-- ==== Sys2Proof/Word.lean ====
section
/-! DEFINITION. The plain word types of the Virorku PLN-9416 and nothing else.
What computes with them (fields, byte order, sign extension) stands in Machine/Bits.lean. -/

namespace Sys2Proof

/-- One byte. -/
abbrev Byte := BitVec 8

/-- A 32-bit register, doubleword of a descriptor, or Accord register (R2, R308). -/
abbrev Word := BitVec 32

/-- A 64-bit register, IOVA or index (R65, R68). -/
abbrev Word64 := BitVec 64

/-- An object handle, Table 02-1 (R24). -/
abbrev Handle := BitVec 32

/-- A PCI Express function, which is one tenant (R61, R62). -/
abbrev Fn := Fin 64

/-- A logical Ethernet port (R91). -/
abbrev PortNo := Fin 8

/-- A cluster number of VC0-VC7 or AC0-AC7 (Tables 01-2, 01-3). -/
abbrev ClusterNo := Fin 8

/-- A device-wide Accord core number (Table 01-3). -/
abbrev CoreNo := Fin 128

/-- An HBM stack (R360). -/
abbrev StackNo := Fin 4

/-- A device-wide pseudo-channel number (R360). -/
abbrev PcNo := Fin 128

end Sys2Proof
end

