-- ==== Sys2Proof/Syntax.lean ====
section
/-! DEFINITION. The commands the block takes: one constructor of `Instr` for each row of
spec/opcode_table.json, and the operand types they carry.

A host command (Table 03-12) carries the 64-byte descriptor as the ring holds it, without the
opcode the row itself names, and the data the device reads at admission.
An event row carries what the outside world adds to the state: the bytes of a frame, a reading, a pin level.
An Accord instruction row carries the core that issues the word and the word's fields. -/

namespace Sys2Proof

/-- Whether the DMA access that a command makes succeeds (Table 03-8 causes 0x03 and 0x04). -/
inductive Dma where
  | ok
  | readFails
  | writeFails
  deriving DecidableEq, Repr

/-- A command descriptor on its way through the Nose (R79, Table 03-10). -/
structure Cmd where
  /-- The issuing function, which is the tenant it must name. -/
  fn : Fn
  /-- The command ring of the function that holds the descriptor, 0-15. -/
  ring : Fin 16
  /-- The free-running index of the entry in its ring (R68). -/
  index : Word
  /-- DW0 [31:16]: reserved, TENANT, reserved flags, SIGNED, QUIET, EXT. -/
  dw0 : BitVec 16
  /-- DW1: TAG. -/
  tag : Word
  /-- DW2: PLEN. -/
  plen : Word
  /-- DW3: OBJECT. -/
  object : Handle
  /-- Bytes 16-63 of the descriptor (DW4-DW15). -/
  params : List Byte
  /-- The extended block as read once from EXT_IOVA (R80); none when the read failed. -/
  ext : Option (List Byte)
  /-- Other data read at admission: gate list (R172), coefficients (R221), flip content (R229); none when unreadable. -/
  data : Option (List Byte)
  deriving DecidableEq, Repr

/-- What triggered a COLD reset (Table 17-3, Table 17-9). -/
inductive ColdCause where
  | resetN
  | refclkLoss
  | vmonTrip
  | thermTrip
  deriving DecidableEq, Repr

/-- What triggered a WARM reset (Table 17-3, Table 17-9). -/
inductive WarmCause where
  | perst
  | hotReset
  | linkDown
  deriving DecidableEq, Repr

/-- An image slot of the boot flash as the boot ROM finds it (R453). -/
structure FlashImage where
  /-- The signature over the image's SHA-384 hash verifies against the fused key hash. -/
  signed : Bool
  version : Word
  securityCounter : BitVec 16
  deriving DecidableEq, Repr

/-- What training of one stack found (R363, Table 13-2). -/
structure TrainResult where
  identityOk : Bool
  calibrationOk : Bool
  /-- Failing CA lanes of each of the 16 channels. -/
  caFails : List Nat
  /-- Failing DQ lanes of each of the 16 channels. -/
  dqFails : List Nat
  patternOk : Bool
  deriving DecidableEq, Repr

/-- A frame on the line (R100, R101). -/
structure WireFrame where
  /-- Destination address through FCS. -/
  bytes : List Byte
  /-- PCS error, uncorrectable codeword or lock lost within the frame (Table 04-4 order 1). -/
  symbolError : Bool
  /-- Codewords the FEC corrected while the frame arrived (Table 04-6). -/
  corrected : Nat
  /-- Codewords the FEC could not correct while the frame arrived (Table 04-6). -/
  uncorrected : Nat
  deriving DecidableEq, Repr

/-- The kinds of target a task may name (R382). -/
inductive TargetKind where
  | decode
  | encode
  | compose
  | stitch
  | accord
  | assist
  | dma
  | aes
  | sha1
  deriving DecidableEq, Repr

/-- A task as a producer admits it (R378, Table 14-1). -/
structure TaskReq where
  flags : Word
  mask : Word
  prio : Fin 64
  kind : TargetKind
  cluster : ClusterNo
  flow : BitVec 16
  ordered : Bool
  audio : Bool
  /-- The result is empty or cancelled when it completes (R386). -/
  empty : Bool
  /-- Slots, generations and bits of the dependants its release flags (R385). -/
  dependants : List (Nat × Nat × Nat)
  /-- Queue entries its release writes (R385): queue number and the buffer handle of the entry. -/
  writes : List (Nat × Nat)
  deriving DecidableEq, Repr

/-- A spill queue entry (R338, Table 12-2). -/
structure SqEntry where
  buf : Word
  sop : Bool
  eop : Bool
  err : Bool
  len : BitVec 17
  off : BitVec 16
  obj : Handle
  time : Word64
  ord : Word
  flow : BitVec 16
  tag : BitVec 16
  deriving DecidableEq, Repr

/-- A request to the HBM controllers (R361, R362). -/
inductive HbmReq where
  /-- Read `len` bytes; `errorBits` is how many bits of a 64-bit word the stack returns wrong; `activate` opens a row. -/
  | read (addr : BitVec 36) (len : Nat) (errorBits : Nat) (activate : Bool)
  /-- Write the bytes at the address. -/
  | write (addr : BitVec 36) (bytes : List Byte) (activate : Bool)
  deriving DecidableEq, Repr

/-- Where a datapath parity error stands (Table 16-11). -/
inductive DatapathUnit where
  | mac (port : PortNo)
  | parser (port : PortNo)
  | sillage
  | attar
  deriving DecidableEq, Repr

/-- A fault inside the device, one row of Table 16-11 (R446). -/
inductive FaultReport where
  /-- Single-bit error in an on-die memory (Table 12-1 address). -/
  | sramCorrected (addr : Nat)
  /-- A decode engine fault: cluster and engine (2 is the spare). -/
  | decodeEngine (cluster : ClusterNo) (engine : Fin 3)
  | encodeEngine (cluster : ClusterNo) (engine : Fin 3)
  | composeEngine (cluster : ClusterNo) (engine : Fin 2)
  | stitcher (cluster : ClusterNo)
  | accordCore (core : CoreNo)
  | assist (cluster : ClusterNo)
  | aesPipeline (n : Fin 16)
  | sha1Engine (n : Fin 8)
  /-- Uncorrectable error in data that feeds output, at an on-die address. -/
  | dataUncorrectable (addr : Nat)
  /-- Uncorrectable error in the key store: the slot. -/
  | keyStore (slot : Nat)
  /-- Datapath parity error in a MAC, parser, Sillage or Attar. -/
  | datapath (unit : DatapathUnit)
  /-- Uncorrectable error in Orgue, ring engine or Nose tables. -/
  | tables
  | noseCore
  /-- Failed pseudo-channel or poison list overflow of a stack. -/
  | hbmFailed (stack : StackNo)
  deriving DecidableEq, Repr

/-- A transfer that a core issued to its cluster's DMA engine (R322, R327). -/
structure DmaReq where
  /-- From HBM to the scratchpad (true) or back. -/
  toScratch : Bool
  hbm : BitVec 36
  scratch : BitVec 21
  len : Nat
  deriving DecidableEq, Repr

/-- The registers of a function's configuration space (Tables 03-1, 03-2). -/
inductive CfgReg where
  | deviceId
  | classCode
  /-- BAR0, BAR2 and BAR4 of the PF, and of its VFs. -/
  | bar (n : Fin 3)
  | vfBar (n : Fin 3)
  | msixControl
  | deviceCapabilities
  | deviceControl
  | deviceCapabilities2
  | deviceControl2
  | linkCapabilities
  | linkControl
  | l1Control
  | powerControl
  | aerControl
  | sriovControl
  /-- InitialVFs and TotalVFs. -/
  | sriovVfs
  | numVfs
  | vfOffsetStride
  | vfDeviceId
  | systemPageSize
  /-- Whether a capability, or an extended capability, of an identifier is in the list. -/
  | capability (extended : Bool) (id : Nat)
  deriving DecidableEq, Repr

/-- A configuration request: the function, its register, and the value of a write (`none` for a read). -/
structure CfgRequest where
  fn : Fn
  reg : CfgReg
  write : Option Word64
  deriving DecidableEq, Repr

/-- The PTP messages the device originates (R406, R408). -/
inductive PtpTx where
  | announce
  | sync
  | delayReq
  | pdelayReq
  deriving DecidableEq, Repr

/-- The peer's PAIR message after unsealing (R425); `authentic` is false when it fails authentication. -/
structure PeerPair where
  authentic : Bool
  deviceId : Word64
  firmware : Word
  state : BitVec 3
  nonce : Word
  /-- The peer holds any conference or trunk (R418). -/
  busy : Bool
  deriving DecidableEq, Repr

/-- Format A of Table 11-4: the fields of the word below the opcode. -/
structure FmtA where
  d : BitVec 5
  s : BitVec 5
  t : BitVec 5
  ns : Bool
  rsv : BitVec 10
  deriving DecidableEq, Repr

/-- Format B of Table 11-4. -/
structure FmtB where
  d : BitVec 5
  s : BitVec 5
  imm : BitVec 16
  deriving DecidableEq, Repr

/-- Format C of Table 11-4. -/
structure FmtC where
  s : BitVec 5
  off : BitVec 21
  deriving DecidableEq, Repr

/-- Format D of Table 11-4. -/
structure FmtD where
  a : BitVec 2
  p : BitVec 5
  q : BitVec 5
  ns : Bool
  rsv : Bool
  sh : BitVec 6
  rsv2 : BitVec 6
  deriving DecidableEq, Repr

/-- The commands of the block, one for each row of spec/opcode_table.json. -/
inductive Instr where
  /-- DEV_QUERY (R85): Returns silicon revision, firmware version, service level and capability bits. -/
  | devQuery (c : Cmd)
  /-- DEV_RESET (R459): Checks the confirm word, replies, cancels other fetched commands and starts a SOFT reset, after a planned switchover on a protecting ACTIVE. -/
  | devReset (c : Cmd)
  /-- RING_CREATE (R500): Creates a command, reply, event or media ring within the tenant's ring reservation. -/
  | ringCreate (c : Cmd)
  /-- RING_DESTROY (R75): Drains and frees a ring, or fails with ST_STATE when the ring is still bound or named. -/
  | ringDestroy (c : Cmd)
  /-- RING_RESET (R70): Returns a ring in ERROR to RUNNING with both indexes at zero and writes any held replies. -/
  | ringReset (c : Cmd)
  /-- VECTOR_CONFIG (R78): Sets MOD_COUNT and MOD_TIME of an MSI-X vector and fires the vector at once if its pending entries already meet the new values. -/
  | vectorConfig (c : Cmd)
  /-- PORT_CONFIG (R93): Sets the mode, policy, MAC_MAXLEN and MAC_TX_START of a port at its log position. -/
  | portConfig (c : Cmd)
  /-- WATCHDOG_SET (R465): Arms, restarts or disables the host watchdog. -/
  | watchdogSet (c : Cmd)
  /-- FW_UPDATE (R473): Verifies a signed image, writes it into the inactive QSPI slot and marks that slot active for the next boot. -/
  | fwUpdate (c : Cmd)
  /-- DEBUG_LOCK (R476): Blows the DEBUG_LOCK fuse under a signed, device-specific authorisation. -/
  | debugLock (c : Cmd)
  /-- TENANT_CREATE (R32): Creates a tenant with its limits, key slot reservation and local addresses. -/
  | tenantCreate (c : Cmd)
  /-- TENANT_MODIFY (R493): Changes a tenant's limits, protection flag or address list at its log position. -/
  | tenantModify (c : Cmd)
  /-- TENANT_DESTROY (R34): Destroys a tenant that holds no conferences, trunks or images and erases its key slots. -/
  | tenantDestroy (c : Cmd)
  /-- TENANT_QUERY (R85): Writes a tenant's state to the output buffer. -/
  | tenantQuery (c : Cmd)
  /-- TENANT_ROUTE (R45): Sets the issuing tenant's exception ring and its unmatched-STUN option. -/
  | tenantRoute (c : Cmd)
  /-- CONF_CREATE (R495): Creates an OPEN conference with the given mode, limits, image and global ID. -/
  | confCreate (c : Cmd)
  /-- CONF_MODIFY (R35): Changes the conference parameters that the change mask selects. -/
  | confModify (c : Cmd)
  /-- CONF_DESTROY (R37): Puts a conference in CLOSING and detaches all of its legs. -/
  | confDestroy (c : Cmd)
  /-- CONF_QUERY (R85): Writes a conference's state to the output buffer. -/
  | confQuery (c : Cmd)
  /-- LEG_ATTACH (R496): Creates a PENDING leg with its transport, policer, streams and slots, and writes the stream handles. -/
  | legAttach (c : Cmd)
  /-- LEG_ENABLE (R47): Moves a PENDING leg to ACTIVE once every key slot it names holds a key. -/
  | legEnable (c : Cmd)
  /-- LEG_MODIFY (R498): Replaces a leg's transport or policer. -/
  | legModify (c : Cmd)
  /-- LEG_HOLD (R46): Moves an ACTIVE leg to HELD. -/
  | legHold (c : Cmd)
  /-- LEG_RESUME (R46): Moves a HELD leg back to ACTIVE. -/
  | legResume (c : Cmd)
  /-- LEG_MOVE (R50): Transfers an ACTIVE or HELD leg to another OPEN conference of the same tenant. -/
  | legMove (c : Cmd)
  /-- LEG_DETACH (R48): Puts a leg in DRAINING, removes it from its conference and optionally admits an RTCP BYE. -/
  | legDetach (c : Cmd)
  /-- LEG_QUERY (R85): Writes a leg's state to the output buffer. -/
  | legQuery (c : Cmd)
  /-- STREAM_ADD (R497): Adds a stream to a leg, or a remote source to a trunk. -/
  | streamAdd (c : Cmd)
  /-- STREAM_REMOVE (R85): Removes a stream and returns its reservations. -/
  | streamRemove (c : Cmd)
  /-- STREAM_MODIFY (R498): Replaces a stream's record from its log position. -/
  | streamModify (c : Cmd)
  /-- STREAM_ROUTE (R499): Sets or removes a stream's copy or divert route to a host media ring. -/
  | streamRoute (c : Cmd)
  /-- STREAM_KEYPIC (R251): Requests a key picture on an outbound composite stream. -/
  | streamKeypic (c : Cmd)
  /-- SLOT_ASSIGN (R496): Assigns a source stream to one of a leg's forwarded slots, or empties the slot. -/
  | slotAssign (c : Cmd)
  /-- KEY_LOAD (R123): Loads a session key into a slot, staging it when operations under the current key are in flight. -/
  | keyLoad (c : Cmd)
  /-- KEY_ERASE (R140): Puts a slot in ERASING so that it drains and is zeroed. -/
  | keyErase (c : Cmd)
  /-- KEY_DERIVE (R124): Derives session keys in Attar from a master key and salt. -/
  | keyDerive (c : Cmd)
  /-- KEY_QUERY (R122): Returns a slot's state and current index. -/
  | keyQuery (c : Cmd)
  /-- GRAPH_LOAD (R295): Checks and loads an Accord image for the issuing tenant. -/
  | graphLoad (c : Cmd)
  /-- GRAPH_SWAP (R296): Switches a conference to an image at the next block, with crossfades. -/
  | graphSwap (c : Cmd)
  /-- GRAPH_UNLOAD (R297): Unloads an image that no conference uses. -/
  | graphUnload (c : Cmd)
  /-- MIX_CREATE (R287): Creates a listener mix object for a leg. -/
  | mixCreate (c : Cmd)
  /-- MIX_MODIFY (R287): Changes a mix object's parameters. -/
  | mixModify (c : Cmd)
  /-- MIX_DESTROY (R287): Frees a mix object and returns its leg to the default mix. -/
  | mixDestroy (c : Cmd)
  /-- TONE_PLAY (R300): Starts a tone on a leg's mix or on every mix of a conference. -/
  | tonePlay (c : Cmd)
  /-- TONE_STOP (R301): Ends a playing tone with a ramp. -/
  | toneStop (c : Cmd)
  /-- ISOLATION_SET (R283): Turns voice isolation on or off for an inbound audio stream. -/
  | isolationSet (c : Cmd)
  /-- LAYOUT_CREATE (R214): Creates a layout and reserves its compose rate and image content space. -/
  | layoutCreate (c : Cmd)
  /-- LAYOUT_MODIFY (R215): Replaces a layout's description from the next picture tick. -/
  | layoutModify (c : Cmd)
  /-- LAYOUT_DESTROY (R215): Destroys a layout that no composite stream or tile set names. -/
  | layoutDestroy (c : Cmd)
  /-- LAYER_FLIP (R229): Reads new content for an image layer and makes it the layer's pending flip, with an optional fence. -/
  | layerFlip (c : Cmd)
  /-- FENCE_SIGNAL (R230): Adds a fence ID to a layout's signalled set. -/
  | fenceSignal (c : Cmd)
  /-- TILESET_CREATE (R252): Creates a tile set and reserves its tile streams, scaling rate and bridges. -/
  | tilesetCreate (c : Cmd)
  /-- TILESET_DESTROY (R266): Destroys a tile set that no composite uses. -/
  | tilesetDestroy (c : Cmd)
  /-- SCALER_BANK_LOAD (R221): Loads a conference's scaler coefficient bank. -/
  | scalerBankLoad (c : Cmd)
  /-- POLICER_SET (R147): Sets a leg or tenant meter. -/
  | policerSet (c : Cmd)
  /-- SHAPER_SET (R170): Sets a leg's shaper rate and burst. -/
  | shaperSet (c : Cmd)
  /-- ESTIMATOR_SET (R153): Sets a leg's estimator limits, start value and flags. -/
  | estimatorSet (c : Cmd)
  /-- SCHED_WEIGHT_SET (R169): Sets the scheduler weight of a leg or trunk, or a tenant's default weight. -/
  | schedWeightSet (c : Cmd)
  /-- GATE_SET (R172): Reads and installs a new gate schedule for a logical port. -/
  | gateSet (c : Cmd)
  /-- DSCP_MAP_SET (R151): Sets a tenant's DSCP pre-colour map. -/
  | dscpMapSet (c : Cmd)
  /-- TIME_STEP (R398): Takes the one owed step of network time, or slews the clock by a correction. -/
  | timeStep (c : Cmd)
  /-- TIME_RATE (R400): Sets the clock rate R, folded so that time stays continuous. -/
  | timeRate (c : Cmd)
  /-- TIME_QUERY (R396): Returns network time and TIM_STATUS. -/
  | timeQuery (c : Cmd)
  /-- PTP_CONFIG (R405): Sets the PTP role, transport, domain, masks and TIME_JUMP_LIMIT. -/
  | ptpConfig (c : Cmd)
  /-- PPS_CONFIG (R410): Configures the PPS_OUT and PPS_IN pins. -/
  | ppsConfig (c : Cmd)
  /-- PORT_TS_COMP (R404): Sets a port's time-stamp compensation values. -/
  | portTsComp (c : Cmd)
  /-- TWIN_CONFIG (R449): Sets the twin mode, flags and pair key. -/
  | twinConfig (c : Cmd)
  /-- TWIN_ROLE_SET (R442): Requests a role change, which starts a planned switchover where one applies. -/
  | twinRoleSet (c : Cmd)
  /-- TWIN_RESYNC (R443): Starts a resync of a WITHDRAWN peer and replies when the resync ends. -/
  | twinResync (c : Cmd)
  /-- TWIN_QUERY (R450): Writes the twin status and the last applied command of each command ring. -/
  | twinQuery (c : Cmd)
  /-- COUNTER_READ (R501): Writes a range of an object's 64-bit counters to the output buffer. -/
  | counterRead (c : Cmd)
  /-- STATUS_READ (R501): Writes a status block or a fixed table to the output buffer. -/
  | statusRead (c : Cmd)
  /-- PORT_LOOPBACK (R115): Sets a port's loopback mode. -/
  | portLoopback (c : Cmd)
  /-- SELFTEST (R85): Runs the device self-test and returns the failing test bits. -/
  | selftest (c : Cmd)
  /-- PARTITION_SET (R20): Sets the sizes of the HBM regions while no conference exists. -/
  | partitionSet (c : Cmd)
  /-- PARTITION_QUERY (R85): Writes the HBM partition to the output buffer. -/
  | partitionQuery (c : Cmd)
  /-- POOL_QUERY (R357): Writes per-class pool counts to the output buffer. -/
  | poolQuery (c : Cmd)
  /-- CASCADE_CONFIG (R55): Sets the device ID and trunk port while no trunk exists. -/
  | cascadeConfig (c : Cmd)
  /-- TRUNK_CREATE (R39): Creates a cascade trunk with its reserved transport entry and key slots. -/
  | trunkCreate (c : Cmd)
  /-- TRUNK_MODIFY (R145): Changes a trunk, including its sending key phase. -/
  | trunkModify (c : Cmd)
  /-- TRUNK_DESTROY (R85): Destroys a cascade trunk. -/
  | trunkDestroy (c : Cmd)
  /-- COMMAND_FETCH (R89): Fetches commands round-robin among functions and rings while reply space allows. -/
  | commandFetch (dma : Dma)
  /-- INJECTION_FETCH (R77): Fetches an injection ring entry, checks it and queues the injected packet. -/
  | injectionFetch (dma : Dma)
  /-- DOORBELL (R69): A doorbell write sets a ring's producer or consumer index, or puts the ring into ERROR. -/
  | doorbell (fn : Fn) (ring : Nat) (size : Nat) (value : Word)
  /-- HST_ADM_ENABLE (R66): Writing ENABLE 1 starts the admin rings, or holds the start until they are FREE. -/
  | hstAdmEnable (fn : Fn) (value : Word)
  /-- HST_ADM_DISABLE (R66): Writing ENABLE 0 drains and stops the admin rings. -/
  | hstAdmDisable (fn : Fn) (value : Word)
  /-- ADM_ERR_RES_CLEAR (R4): Writing 1 to ERR_RES clears it. -/
  | admErrResClear (fn : Fn)
  /-- ADM_ERR_CFG_CLEAR (R4): Writing 1 to ERR_CFG clears it. -/
  | admErrCfgClear (fn : Fn)
  /-- ADMIN_RINGS_FREE (R66): When command ring 0 has drained, the admin rings become FREE together and a held start takes effect. -/
  | adminRingsFree (fn : Fn)
  /-- REGISTER_WRITE (R4): A write to a register without behaviour of its own acts by access type, with bad accesses counted. -/
  | registerWrite (fn : Fn) (addr : Nat) (size : Nat) (value : Word64)
  /-- TIM_NOW_READ (R396): A read of TIM_NOW_LO latches TIM_NOW_HI and TIM_NOW_FRAC for the function. -/
  | timNowRead (fn : Fn) (addr : Nat) (size : Nat)
  /-- HBM_MAX_DEBT_READ (R377): A read returns the highest refresh debt of the stack and clears it. -/
  | hbmMaxDebtRead (stack : StackNo)
  /-- MAC_LANE_MAP_WRITE (R95): Writing a lane map takes the physical port's links down and retrains them. -/
  | macLaneMapWrite (phys : Fin 4) (value : Word)
  /-- TWN_RETRAIN (R421): Writing RETRAIN 1 starts a full retrain of the Llynas Link. -/
  | twnRetrain
  /-- HBM_MIT_SEED_WRITE (R370): Writing a seed register reseeds every mitigation generator. -/
  | hbmMitSeedWrite (hi : Bool) (value : Word)
  /-- HBM_REF_CTL_WRITE (R377): Writing POSTPONE changes the refresh postponement limit at each pseudo-channel's next interval end. -/
  | hbmRefCtlWrite (value : Word)
  /-- HBM_MIT_CTL_WRITE (R377): Writing LOG2N changes the mitigation probability from the next activate. -/
  | hbmMitCtlWrite (value : Word)
  /-- MON_OP_LOCK_SET (R475): Writing LOCK sets the operator lock until a WARM or COLD reset. -/
  | monOpLockSet (value : Word)
  /-- MON_RESET_CAUSE_CLEAR (R4): Writing 1 to a reset cause bit clears that bit. -/
  | monResetCauseClear (value : Word)
  /-- MON_VMON_ALARM_CLEAR (R4): Writing 1 to a voltage alarm bit clears that bit. -/
  | monVmonAlarmClear (value : Word)
  /-- QUIESCE_EN_WRITE (R464): Setting QUIESCE_EN allows QUIESCE; clearing it leaves QUIESCE. -/
  | quiesceEnWrite (value : Word)
  /-- ACC_DBG_HALT (R336): Writing HALT halts a core at its next interruptible boundary. -/
  | accDbgHalt (core : CoreNo) (value : Word)
  /-- ACC_DBG_STEP (R336): Writing STEP issues one instruction, or one whole repeat, on a halted core. -/
  | accDbgStep (core : CoreNo) (value : Word)
  /-- SMBUS_BLOCK_READ (R472): An SMBus block read returns a MON register from the AON domain. -/
  | smbusBlockRead (code : Byte)
  /-- JTAG_LOCK_DEBUG (R476): The JTAG instruction LOCK_DEBUG blows the DEBUG_LOCK fuse. -/
  | jtagLockDebug
  /-- PCIE_CONFIG_REQUEST (R452): A PCIe configuration request completes, or is answered with retry status before readiness. -/
  | pcieConfigRequest (req : CfgRequest)
  /-- RESET_N_RELEASE (R452): Release of RESET_N starts the power-up timeline: fuses, PLLs, port and HBM training, and boot. -/
  | resetNRelease
  /-- COLD_RESET (R458): RESET_N or PWR_GOOD low, an internal cold reset or a trip resets everything except AON. -/
  | coldReset (cause : ColdCause)
  /-- WARM_RESET (R458): PERST_N low, a PCIe hot reset or PCIe link down resets everything except AON and fuses. -/
  | warmReset (cause : WarmCause)
  /-- PF_FLR (R460): An FLR of the PF is handled as a SOFT reset and disables every VF. -/
  | pfFlr
  /-- VF_FLR (R461): An FLR of VF n stops its rings and destroys its objects, keys and routes. -/
  | vfFlr (fn : Fn)
  /-- D3HOT_ENTRY (R463): A function entering D3hot stops fetching, writing and signalling. -/
  | d3hotEntry (fn : Fn)
  /-- D3HOT_EXIT (R463): A function returning to D0 resumes with every setting kept. -/
  | d3hotExit (fn : Fn)
  /-- LINK_L1_EXIT (R463): The PCIe link leaves L1 or L1.2 for a waiting doorbell or DMA. -/
  | linkL1Exit
  /-- BOOT_VERIFY (R453): The boot ROM verifies the QSPI image slots and starts the Nose or falls back. -/
  | bootVerify (slotA : FlashImage) (slotB : FlashImage)
  /-- HBM_TRAINING (R363): A controller trains its stack through the steps of Table 13-2. -/
  | hbmTraining (stack : StackNo) (r : TrainResult)
  /-- BLOTTER_SERVICE_START (R452): Blotter service begins and held admin ring starts take effect. -/
  | blotterServiceStart
  /-- FULL_SERVICE_START (R455): Full service begins at an audio tick, and EV_FULL_SERVICE is posted. -/
  | fullServiceStart
  /-- QUIESCE_ENTRY (R464): After 100 ms of the conditions, MEDIA and ACCORD clocks are gated and HBM enters self-refresh. -/
  | quiesceEntry
  /-- QUIESCE_EXIT (R464): A command that needs clusters or HBM, or clearing QUIESCE_EN, ends QUIESCE. -/
  | quiesceExit (forCommand : Bool)
  /-- WATCHDOG_EXPIRY (R465): An expired watchdog interval posts EV_WATCHDOG or triggers a switchover, and is counted. -/
  | watchdogExpiry
  /-- REFCLK_SYS_LOSS (R17): Loss of REFCLK_SYS detected against the AON oscillator triggers an internal cold reset. -/
  | refclkSysLoss
  /-- TIME_REFCLK_LOSS (R402): Loss of TIME_REFCLK puts the TIME PLL in holdover and posts EV_TIME_REFCLK_LOST. -/
  | timeRefclkLoss
  /-- TIME_REFCLK_RETURN (R402): When the reference returns, the PLL relocks without a phase step. -/
  | timeRefclkReturn
  /-- ETH_REFCLK_LOSS (R17): Loss of ETH_REFCLK takes all ports down with link-down events. -/
  | ethRefclkLoss
  /-- MONITOR_SAMPLE (R468): Every 100 µs the Monitor Unit samples its sensors and posts warnings on threshold crossings. -/
  | monitorSample (temps : List Int) (volts : List Nat) (procs : List Nat)
  /-- THROTTLE_STAGE_CHANGE (R469): After 10 ms at or above threshold, or 100 ms well below it, the throttle stage changes. -/
  | throttleStageChange (rise : Bool) (sensor : Fin 28)
  /-- THERM_TRIP (R466): A sensor reaching 115 °C drives THERM_TRIP_N low and holds an internal cold reset. -/
  | thermTrip (sensor : Fin 24)
  /-- VMON_ALARM (R471): A rail outside its window for 100 µs sets its alarm bit and is counted. -/
  | vmonAlarm (monitor : Fin 16)
  /-- VMON_TRIP (R471): A rail below its trip level for 1 µs causes an internal cold reset. -/
  | vmonTrip (monitor : Fin 16)
  /-- FRAME_RECEIVE (R101): The MAC receives a frame, time-stamps it, checks it and passes, consumes or discards it. -/
  | frameReceive (port : PortNo) (f : WireFrame)
  /-- PAUSE_EXPIRY (R110): When a pause time runs out, held frames are released under the gate rules. -/
  | pauseExpiry (port : PortNo) (prio : Option (Fin 8))
  /-- LINK_UP (R96): After 10 ms of alignment and FEC lock the logical port is up and EV_LINK_UP is posted. -/
  | linkUp (port : PortNo)
  /-- LINK_DOWN (R96): After 100 µs of lost lock the port is down and EV_LINK_DOWN is posted. -/
  | linkDown (port : PortNo)
  /-- FRAME_TRANSMIT (R107): The MAC starts sending a frame once MAC_TX_START bytes of it are queued. -/
  | frameTransmit (port : PortNo)
  /-- TX_UNDERRUN (R108): A transmit queue running dry mid-frame ends the frame with an inverted FCS and raises MAC_TX_START. -/
  | txUnderrun (port : PortNo)
  /-- LOG_TRANSMIT (R427): The log transmitter takes an input in log order and sends it as a FRAME, STUB or other log message. -/
  | logTransmit (port : PortNo)
  /-- PARSE_FRAME (R99): The parser takes a logged frame, classifies it and routes it to PTP, a leg or trunk, or an exception ring. -/
  | parseFrame (port : PortNo)
  /-- ATTAR_INGRESS (R133): Attar checks, authenticates and decrypts an ingress packet into quarantine, and releases it on success. -/
  | attarIngress
  /-- ATTAR_EGRESS (R127): Attar assigns an egress packet its index, encrypts it and returns the index. -/
  | attarEgress
  /-- EGRESS_SCHEDULE (R166): The Sillage scheduler picks the next eligible packet by port, tenant, leg and class. -/
  | egressSchedule (port : PortNo)
  /-- TASK_ADMIT (R378): A producer admits a task into a slot of its ordered flow, or stalls and retries. -/
  | taskAdmit (t : TaskReq)
  /-- FLAG_EVENT (R380): An event sets a flag of a task slot, which makes the task ready when its mask is met. -/
  | flagEvent (slot : Nat) (gen : Nat) (bits : Word)
  /-- TASK_DISPATCH (R382): A free engine takes the head of its highest-priority ready list. -/
  | taskDispatch (completer : Fin 224)
  /-- COMPLETION_COLLECT (R390): The collector takes completions from the completer holds in windows. -/
  | completionCollect (arrivals : List (Nat × Nat))
  /-- TASK_RELEASE (R385): A task is released in flow order: its entries are written, its dependants' flags set and its slot returned. -/
  | taskRelease (flow : Nat)
  /-- ENGINE_FAULT (R446): A fault in an engine, core, pipeline or table is handled locally and is either absorbed or escalated. -/
  | engineFault (f : FaultReport)
  /-- BUFFER_REQUEST (R351): A buffer request is served from the smallest fitting class with a free buffer, or fails. -/
  | bufferRequest (port : Fin 16) (size : Nat)
  /-- BUFFER_FREE (R355): A free or handoff is checked and returns or passes the buffer, or is rejected with EV_BAD_FREE. -/
  | bufferFree (owner : Nat) (handle : Word) (handoff : Option Nat)
  /-- BUFFER_SHARE (R354): A producer shares a buffer among several consumer kinds. -/
  | bufferShare (owner : Nat) (handle : Word) (mask : BitVec 4)
  /-- SQ_WRITE (R339): A producer writes an entry into a spill queue's tail. -/
  | sqWrite (queue : Nat) (e : SqEntry)
  /-- SQ_READ (R339): A consumer reads an entry from a spill queue's head. -/
  | sqRead (queue : Nat)
  /-- SQ_RETRACT (R342): A producer retracts an unfinished packet from a packet-mode queue. -/
  | sqRetract (queue : Nat)
  /-- DISCARD_REST (R346): A consumer discards the unread rest of the current packet. -/
  | discardRest (queue : Nat)
  /-- SQ_FRAME_RELEASE (R340): An unpinned queue that has been empty for 4,096 cycles returns its frame. -/
  | sqFrameRelease (queue : Nat)
  /-- HBM_REQUEST (R361): A pseudo-channel serves a read or write request, with ECC correction and poison handling. -/
  | hbmRequest (r : HbmReq)
  /-- CA_PARITY_ERROR (R366): A reported CA parity error is cleared and the held commands are replayed. -/
  | caParityError (stack : StackNo) (faulty : Nat) (again : Bool)
  /-- REFRESH_INTERVAL (R371): The end of each tREFI raises the refresh debt and issues a refresh at once when the limit is passed. -/
  | refreshInterval (pc : PcNo)
  /-- REFRESH_MAKEUP (R371): After 64 idle cycles the owed refreshes are issued until the debt is 0. -/
  | refreshMakeup (pc : PcNo)
  /-- HBM_TEMP_READ (R373): Every 32 µs the stack temperature is read, and crossings change the refresh mode and recount the debt. -/
  | hbmTempRead (stack : StackNo) (temp : BitVec 8)
  /-- PATROL_SCRUB (R362): The patrol scrubber reads and corrects every word once in 24 hours. -/
  | patrolScrub (addr : BitVec 36) (errorBits : Nat)
  /-- SELF_REFRESH_ENTRY (R374): A pseudo-channel idle for 10 µs in QUIESCE enters self-refresh. -/
  | selfRefreshEntry (pc : PcNo) (phase : Fin 5)
  /-- SELF_REFRESH_EXIT (R375): A request arriving in self-refresh restarts the clock and exits. -/
  | selfRefreshExit (pc : PcNo)
  /-- AUDIO_TICK (R412): Audio tick n is logged after the frames that precede it and drives block processing and ranking. -/
  | audioTick (n : Nat)
  /-- HALF_TICK (R282): A half tick drives the Direct path's half-block processing. -/
  | halfTick (m : Nat)
  /-- PICTURE_TICK (R243): A picture clock tick admits the layout, tile, encode and stitch tasks of that tick. -/
  | pictureTick (rate : Nat) (k : Nat)
  /-- FENCE_TIMEOUT (R231): A flip whose miss count reaches FENCE_LIMIT is discarded with EV_FENCE_TIMEOUT. -/
  | fenceTimeout (layout : Nat) (layer : Nat)
  /-- RANKING_RESORT (R286): At ticks with n mod 100 = 0, neighbouring ranking members are swapped. -/
  | rankingResort (conf : Nat) (n : Nat)
  /-- TALKER_TIMEOUT (R286): A member inactive for 1,000 blocks leaves the ranking. -/
  | talkerTimeout (conf : Nat) (n : Nat)
  /-- PLAYOUT_DEPTH_MOVE (R277): At ticks with n mod 100 = 0, an inactive stream's playout depth moves 1 ms toward its target. -/
  | playoutDepthMove (stream : Nat) (n : Nat)
  /-- LOUDNESS_UPDATE (R285): At ticks with n mod 100 = 0, the loudness gain of an active stream moves toward its target. -/
  | loudnessUpdate (stream : Nat) (n : Nat)
  /-- AUDIO_SILENCE_RESET (R278): After 60 ms without a packet, a stream outputs zeros and its decoder is reset. -/
  | audioSilenceReset (stream : Nat)
  /-- ESTIMATOR_DECISION (R155): A leg's estimator decides a new target rate every 50 ticks and logs it. -/
  | estimatorDecision (leg : Handle) (n : Nat)
  /-- FEEDBACK_TIMEOUT_HALVING (R157): Without feedback for 500 ms, each decision at least 500 ms after the last halving halves the target. -/
  | feedbackTimeoutHalving (leg : Handle) (n : Nat)
  /-- AUDIO_BLOCK (R280): Accord processes input block n at tick n + 1 through decode, mix, limiter and encode. -/
  | audioBlock (conf : Nat) (n : Nat)
  /-- TALKER_REPORT (R302): At every tick with n mod 10 = 0, a member reports its talkers and the home sends its ranking as TYPE 2. -/
  | talkerReport (conf : Nat) (n : Nat)
  /-- CASCADE_RETURN_MIX (R303): At tick n + 26 the home computes and sends each member's return mix. -/
  | cascadeReturnMix (conf : Nat) (n : Nat)
  /-- TONE_CADENCE_EDGE (R301): A cadence on or off edge ramps the tone component. -/
  | toneCadenceEdge (obj : Handle) (n : Nat)
  /-- TONE_END (R301): A tone reaching its duration ends with a ramp. -/
  | toneEnd (obj : Handle) (n : Nat)
  /-- DECODE_PICTURE (R194): A decode engine decodes one picture of a context, with reference substitution and taint: that of an RTP timestamp. -/
  | decodePicture (stream ts : Nat)
  /-- PICTURE_ABANDON (R198): After the loss wait, the oldest incomplete picture is abandoned at a tick. -/
  | pictureAbandon (stream : Nat) (n : Nat)
  /-- NACK_REPEAT (R197): A missing number is requested again every 20 ms, at most twice more. -/
  | nackRepeat (stream : Nat) (n : Nat)
  /-- KEY_REQUEST_REPEAT (R205): A PLI or FIR is repeated every 1 s until a CLEAN picture is decoded. -/
  | keyRequestRepeat (stream : Nat) (n : Nat)
  /-- LAYOUT_PICTURE (R228): A compose engine builds a layout picture from its base and layers. -/
  | layoutPicture (layout : Nat) (k : Nat)
  /-- TILE_SCALING (R228): A compose engine scales one source to the tile size. -/
  | tileScaling (tileset : Nat) (member : Nat) (k : Nat)
  /-- ENCODE_PICTURE (R249): An encode engine codes a picture under the per-picture budget and hard cap. -/
  | encodePicture (ctx : Nat) (k : Nat)
  /-- STITCH_PICTURE (R258): A stitcher assembles a leg's composite access unit from tile slices. -/
  | stitchPicture (stream : Nat) (k : Nat)
  /-- BRIDGE_REJOIN (R262): At the first refresh boundary after its last key picture, the leg rejoins stitching and the bridge is freed. -/
  | bridgeRejoin (stream : Nat) (k : Nat)
  /-- KEY_DRAIN_END (R138): When the retiring key's work has left the pipeline, the key is discarded and a held key command proceeds. -/
  | keyDrainEnd (slot : Nat)
  /-- KEY_ERASE_COMPLETE (R140): After the drain, the slot's keys are zeroed, it becomes EMPTY and the reply is written. -/
  | keyEraseComplete (slot : Nat)
  /-- FALLBACK_KEY_EXPIRY (R139): Two seconds of arrival time after the position, the fallback key is discarded. -/
  | fallbackKeyExpiry (slot : Nat)
  /-- LEG_DRAIN_END (R48): At the second audio tick after detach, waiting packets are encrypted and discarded and the leg becomes FREE. -/
  | legDrainEnd (leg : Nat)
  /-- GATE_SCHEDULE_SWITCH (R174): A new gate schedule replaces the old one at the boundary. -/
  | gateScheduleSwitch (port : PortNo)
  /-- GATE_INSTANT (R173): A gate opens or closes for its priorities at a schedule instant. -/
  | gateInstant (port : PortNo)
  /-- AUDIO_GATE_OVERRIDE (R176): An audio packet held 10 ms by a closed gate becomes eligible regardless of the gate. -/
  | audioGateOverride (leg : Nat)
  /-- TRUNK_KEEPALIVE (R60): A trunk that has sent nothing for 1 ms sends a keepalive. -/
  | trunkKeepalive (trunk : Nat)
  /-- TRUNK_DOWN (R60): A trunk with nothing authenticated for 10 ms is declared down. -/
  | trunkDown (trunk : Nat)
  /-- EVENT_FLUSH (R74): Once a full event ring has room, the held events are written, followed by EV_EVENT_LOST. -/
  | eventFlush (fn : Fn) (ring : Nat)
  /-- VECTOR_MOD_TIME_EXPIRY (R78): A vector fires when MOD_TIME has passed since its first unsignalled entry. -/
  | vectorModTimeExpiry (fn : Fn) (vector : Fin 32)
  /-- DMA_FORCED_GRANT (R326): A DMA starvation counter reaching 4,096 forces a grant and may post EV_DMA_STARVED. -/
  | dmaForcedGrant (cluster : ClusterNo) (bank : Fin 16)
  /-- DMA_TRANSFER (R327): The scratchpad DMA engine completes a transfer a core issued. -/
  | dmaTransfer (core : CoreNo) (t : DmaReq)
  /-- INTERRUPT_ENTRY (R316): A pending enabled interrupt is taken at an interruptible boundary. -/
  | interruptEntry (core : CoreNo) (cause : Fin 3)
  /-- ADD (R311): Saturating register addition. -/
  | add (core : CoreNo) (f : FmtA)
  /-- SUB (R311): Saturating register subtraction. -/
  | sub (core : CoreNo) (f : FmtA)
  /-- AND (R311): Bitwise AND of registers. -/
  | and (core : CoreNo) (f : FmtA)
  /-- OR (R311): Bitwise OR of registers. -/
  | or (core : CoreNo) (f : FmtA)
  /-- XOR (R311): Bitwise XOR of registers. -/
  | xor (core : CoreNo) (f : FmtA)
  /-- SLL (R320): Saturating shift left by a register amount. -/
  | sll (core : CoreNo) (f : FmtA)
  /-- SRL (R311): Logical shift right by a register amount. -/
  | srl (core : CoreNo) (f : FmtA)
  /-- SRA (R311): Arithmetic shift right by a register amount. -/
  | sra (core : CoreNo) (f : FmtA)
  /-- MIN (R311): Signed minimum of registers. -/
  | min (core : CoreNo) (f : FmtA)
  /-- MAX (R311): Signed maximum of registers. -/
  | max (core : CoreNo) (f : FmtA)
  /-- ABS (R320): Saturating absolute value. -/
  | abs (core : CoreNo) (f : FmtA)
  /-- SLT (R311): Signed set-less-than. -/
  | slt (core : CoreNo) (f : FmtA)
  /-- CLZ (R311): Counts leading zero bits. -/
  | clz (core : CoreNo) (f : FmtA)
  /-- JR (R312): Jumps to a register address after two delay slots. -/
  | jr (core : CoreNo) (f : FmtA)
  /-- AADD (R327): Atomic scratchpad add that returns the old value. -/
  | aadd (core : CoreNo) (f : FmtA)
  /-- ASWP (R327): Atomic scratchpad swap that returns the old value. -/
  | aswp (core : CoreNo) (f : FmtA)
  /-- ADDI (R311): Saturating add of an immediate. -/
  | addi (core : CoreNo) (f : FmtB)
  /-- ANDI (R311): AND with a zero-extended immediate. -/
  | andi (core : CoreNo) (f : FmtB)
  /-- ORI (R311): OR with a zero-extended immediate. -/
  | ori (core : CoreNo) (f : FmtB)
  /-- LUI (R311): Loads an immediate into the upper half of a register. -/
  | lui (core : CoreNo) (f : FmtB)
  /-- SLLI (R320): Saturating shift left by an immediate amount. -/
  | slli (core : CoreNo) (f : FmtB)
  /-- SRLI (R311): Logical shift right by an immediate amount. -/
  | srli (core : CoreNo) (f : FmtB)
  /-- SRAI (R311): Arithmetic shift right by an immediate amount. -/
  | srai (core : CoreNo) (f : FmtB)
  /-- SRAR (R321): Rounding arithmetic shift right. -/
  | srar (core : CoreNo) (f : FmtB)
  /-- LW (R312): Loads a scratchpad word, with a load delay slot. -/
  | lw (core : CoreNo) (f : FmtB)
  /-- LH (R312): Loads a sign-extended scratchpad halfword, with a load delay slot. -/
  | lh (core : CoreNo) (f : FmtB)
  /-- SW (R311): Stores a word to the scratchpad. -/
  | sw (core : CoreNo) (f : FmtB)
  /-- SH (R323): Stores a halfword to the scratchpad atomically. -/
  | sh (core : CoreNo) (f : FmtB)
  /-- CSRR (R309): Reads a control register in supervisor mode. -/
  | csrr (core : CoreNo) (f : FmtB)
  /-- CSRW (R309): Writes a control register in supervisor mode. -/
  | csrw (core : CoreNo) (f : FmtB)
  /-- BEQZ (R312): Branches if a register is zero, after two delay slots. -/
  | beqz (core : CoreNo) (f : FmtC)
  /-- BNEZ (R312): Branches if a register is non-zero, after two delay slots. -/
  | bnez (core : CoreNo) (f : FmtC)
  /-- BLTZ (R312): Branches if a register is negative, after two delay slots. -/
  | bltz (core : CoreNo) (f : FmtC)
  /-- BGEZ (R312): Branches if a register is non-negative, after two delay slots. -/
  | bgez (core : CoreNo) (f : FmtC)
  /-- J (R312): Unconditional relative jump after two delay slots. -/
  | j (core : CoreNo) (f : FmtC)
  /-- CALL (R311): Relative call that writes the return address into g31. -/
  | call (core : CoreNo) (f : FmtC)
  /-- RPT (R314): Repeats the next instruction n times, without interruption. -/
  | rpt (core : CoreNo) (f : FmtC)
  /-- WAIT (R311): Stalls until an enabled interrupt is pending. -/
  | wait (core : CoreNo) (f : FmtC)
  /-- RETI (R317): Returns from an interrupt or fault, restoring USER and setting IE. -/
  | reti (core : CoreNo) (f : FmtC)
  /-- MAC (R311): Accumulates the product of two registers. -/
  | mac (core : CoreNo) (f : FmtD)
  /-- MSU (R311): Subtracts the product of two registers from an accumulator. -/
  | msu (core : CoreNo) (f : FmtD)
  /-- MAC2M (R311): Accumulates two 32-bit products read from memory and advances the pointers. -/
  | mac2m (core : CoreNo) (f : FmtD)
  /-- MAC4M (R311): Accumulates four 16-bit products read from memory and advances the pointers. -/
  | mac4m (core : CoreNo) (f : FmtD)
  /-- ACLR (R311): Clears an accumulator. -/
  | aclr (core : CoreNo) (f : FmtD)
  /-- RND (R321): Narrows an accumulator into a register, rounding half up and saturating. -/
  | rnd (core : CoreNo) (f : FmtD)
  /-- ARD (R311): Reads one part of an accumulator into a register. -/
  | ard (core : CoreNo) (f : FmtD)
  /-- AWR (R311): Writes a register into one part of an accumulator. -/
  | awr (core : CoreNo) (f : FmtD)
  /-- ASHR (R321): Rounding arithmetic shift of an accumulator. -/
  | ashr (core : CoreNo) (f : FmtD)
  /-- PPS_IN_EDGE (R408): A PPS_IN edge is time-stamped and, in role 2, runs the servo or completes a held step. -/
  | ppsInEdge
  /-- PPS_LOST (R408): No PPS_IN edge within 1.5 s posts EV_PPS_LOST and puts the clock in holdover. -/
  | ppsLost
  /-- ANNOUNCE_TIMEOUT (R406): No Announce within the receipt timeout loses the master and enters holdover. -/
  | announceTimeout
  /-- PTP_TRANSMIT (R408): The device sends Announce, Sync or delay requests at the configured intervals. -/
  | ptpTransmit (port : PortNo) (kind : PtpTx)
  /-- SLEW_END (R399): A slew that has added its correction removes the extra rate and trims the offset. -/
  | slewEnd
  /-- LLYNAS_LINK_TRAINING (R420): The Llynas Link trains its lane order, polarity and equalisation. -/
  | llynasLinkTraining (working : Byte) (order : List (Fin 8)) (inverted : Byte)
  /-- LANE_FAST_RETRAIN (R421): Lane lock loss or repeated replays start a fast retrain on the largest working group. -/
  | laneFastRetrain (working : Byte)
  /-- BLOCK_RECEIVE (R423): A link block is corrected, CRC-checked and accepted, or discarded with a NAK. -/
  | blockReceive (blk : List Byte)
  /-- PAIR (R425): The PAIR handshake authenticates the peer and decides the roles. -/
  | pair (peer : PeerPair)
  /-- LOG_APPLY (R429): STANDBY applies log entries in ordinal order. -/
  | logApply
  /-- WATERMARK (R432): Every 1 µs ACTIVE sends per-port watermark records of consumed egress. -/
  | watermark (port : PortNo)
  /-- DIGEST (R435): Each twin sends the output digests of a completed tick interval. -/
  | digest (n : Nat)
  /-- DIGEST_TIMEOUT (R435): A peer digest missing 10 ms after a twin's own is treated as a link fault. -/
  | digestTimeout
  /-- AUTO_RESYNC_START (R436): With AUTO_RESYNC set, ACTIVE starts a resync 100 ms after a divergence. -/
  | autoResyncStart
  /-- TIME (R430): Every 125 µs the twins exchange TIME messages, and STANDBY steers its clock. -/
  | time
  /-- HEARTBEAT (R437): Each device sets HB in one block of every 250 while healthy. -/
  | heartbeat
  /-- HEARTBEAT_TIMEOUT (R438): Three heartbeat periods missing with TWIN_LIVE_IN low make STANDBY take over. -/
  | heartbeatTimeout
  /-- LINK_LOSS_TIMEOUT (R439): A link down for 100 µs with the peer live ends protection. -/
  | linkLossTimeout
  /-- CREDIT_TIMEOUT (R424): Log blocks held without credit for 100 µs end protection with a HANDOVER carrying WITHDRAW. -/
  | creditTimeout
  /-- PLANNED_SWITCHOVER (R442): At the next audio tick ACTIVE stops its ports, sends HANDOVER and becomes STANDBY. -/
  | plannedSwitchover
  /-- RESYNC_OBJECT_SYNC (R444): At an object's sync point ACTIVE sends its media state, and STANDBY replays its buffered log. -/
  | resyncObjectSync (obj : Handle)
  /-- RESYNC_COMPLETE (R443): The resync ends, STANDBY protects and EV_TWIN_PROTECTED is posted. -/
  | resyncComplete
  /-- TWIN_LIVE_IN_CHANGE (R437): A change of level on TWIN_LIVE_IN signals whether the peer is live. -/
  | twinLiveInChange (level : Bool)
  /-- PERST_N_RELEASE (R458): Release of PERST_N ends a WARM reset and starts the Table 17-1 timeline, and it counts toward PCIe configuration readiness. -/
  | perstNRelease
  /-- AON_POWER_UP (R472): When VDD_AON rises, the AON domain powers up, sets MON_RESET_CAUSE.POWER_ON, samples the SMB_ADDR straps and starts answering on SMBus. -/
  | aonPowerUp (straps : BitVec 2)
  /-- ASPM_L1_ENTRY (R463): Under ASPM the PCIe link enters L1 or L1.2, and doorbells and DMA then wait for the link to exit. -/
  | aspmL1Entry (sub : Fin 3)
  /-- HEARTBEAT_GENERATOR_STALL (R437): A heartbeat generator that has not run for 6 µs lowers TWIN_LIVE_OUT within 1 µs. -/
  | heartbeatGeneratorStall
  /-- RESERVED_OPCODE (R311): An Accord core issuing a word with opcode 0x00 or 0x31–0x3F raises the ILLEGAL fault. -/
  | reservedOpcode (core : CoreNo) (w : Word)
  deriving DecidableEq, Repr

end Sys2Proof
end

