-- ==== Sys2Proof/Decode.lean ====
section
/-! DEFINITION. The decoder over the bits of spec/opcode_table.json. No row of that table gives bits
(every row is named by the register, the descriptor opcode or the event that stands in its chapter), so no word
spells a command here. The Accord word format of Table 11-4 stands in Machine/AccordWord.lean. -/

namespace Sys2Proof

/-- The command that an `nbits`-bit word spells by the table's bits: none, for the table gives no row any. -/
def decodeTableWord (_nbits _w : Nat) : Option Instr := none

end Sys2Proof
end

