-- ==== Sys2Proof/Machine/State.lean ====
section
/-! DEFINITION. The whole state of the device as plain data, each field with the rule that names it, and
the state right after reset (the field defaults; a default the manual does not give is named in
notes/assumptions). Tables that are mostly at their reset value are lists of (key, value) pairs in strictly
rising key order; a key that is not listed has the table's default. -/

namespace Sys2Proof.Machine

/-- A sparse table: (key, value) pairs in strictly rising key order. -/
abbrev Tbl (α : Type) := List (Nat × α)

/-- A byte memory: (address, byte) cells, addresses strictly rising, no listed zero (log entry 11). -/
abbrev Memory := List Host.Cell

/-! ### Host Complex: rings, vectors, functions (03) -/

/-- Ring states of HST_RING_STAT.STATE (Table 03-6). -/
inductive RingState where
  | free
  | running
  | error
  | draining
  deriving DecidableEq, Repr

/-- Ring kinds of HST_RING_STAT.KIND (Table 03-6). -/
inductive RingKind where
  | command
  | reply
  | event
  | media
  deriving DecidableEq, Repr

/-- One ring of a function (R67-R75, R500). -/
structure Ring where
  /-- HST_RING_STAT.STATE. -/
  state : RingState := .free
  /-- HST_RING_STAT.KIND. -/
  kind : RingKind := .command
  /-- HST_RING_STAT.DIR: a media ring that the host produces. -/
  injection : Bool := false
  /-- HST_RING_STAT.VECTOR. -/
  vector : Nat := 0
  /-- HST_RING_STAT.SIZE_LOG2: entries = 2^(sizeLog2 + 6). -/
  sizeLog2 : Nat := 0
  /-- HST_RING_STAT.CAUSE, Table 03-8. -/
  cause : Byte := 0
  /-- Producer index, free-running (R68). -/
  prod : Word := 0
  /-- Consumer index, free-running (R68). -/
  cons : Word := 0
  /-- IOVA of the ring (R68). -/
  base : Word64 := 0
  /-- IOVA of the consumer-index writeback (R71). -/
  wb : Word64 := 0
  /-- IOVA of an extraction ring's data area. -/
  dataArea : Word64 := 0
  /-- Bytes of the data area. -/
  dataSize : Nat := 0
  /-- Offset at which the next packet is written in the data area. -/
  dataTail : Nat := 0
  /-- Bytes of the data area that each entry not yet consumed occupies, oldest first. -/
  spaces : List Nat := []
  /-- Event groups of an event ring (R74). -/
  groupMask : BitVec 16 := 0
  /-- Reply ring a command ring is bound to (R72). -/
  boundReply : Nat := 0
  /-- Per-ring event sequence (Table 03-11) or extraction ordinal (Table 03-9). -/
  seq : Word := 0
  /-- Events held on die for the ring, at most 64 (R74): DW0-DW7 without PHASE. -/
  held : List (List Word) := []
  /-- Events dropped while the ring was full (R74). -/
  dropped : Nat := 0
  /-- Entries fetched since the last writeback (R71). -/
  sinceWb : Nat := 0
  /-- Injection entries skipped (R77), or extraction packets lost for want of room or of a DMA write. -/
  skipped : Nat := 0
  /-- Commands fetched from this command ring whose reply has been neither written nor dropped (R72). -/
  owed : Nat := 0
  /-- RING_DESTROY or the stop of the admin rings is under way: the ring becomes FREE once its fetched commands are replied (R66, R75). It
  stays set while a doorbell puts the ring into ERROR. -/
  stop : Bool := false
  deriving DecidableEq, Repr

/-- One MSI-X vector of a function (R78). -/
structure Vector where
  /-- MOD_COUNT, 1-256. -/
  modCount : Nat := 1
  /-- MOD_TIME in µs, 0-1,023. -/
  modTime : Nat := 0
  /-- Entries written since the vector last fired. -/
  unsignalled : Nat := 0
  /-- Network time in ns of the first unsignalled entry. -/
  firstAt : Nat := 0
  /-- MSI-X table: message address, data and mask bit (BAR4, Table 03-2); PCI Express resets the mask bit to 1 (PRESUMED, log entry 69). -/
  addr : Word64 := 0
  data : Word := 0
  masked : Bool := true
  /-- MSI-X pending bit. -/
  pending : Bool := false
  /-- Messages sent, modulo 2^32 (the model's own record of the signal). -/
  fired : Word := 0
  deriving DecidableEq, Repr

/-- The admin ring bases and sizes as held at a write of ENABLE (R66, R454). -/
structure AdmStart where
  cmdBase : Word64
  cmdWb : Word64
  rplBase : Word64
  evtBase : Word64
  cmdLog2 : Nat
  rplLog2 : Nat
  evtLog2 : Nat
  deriving DecidableEq, Repr

/-- The PCI Express configuration space of one function as far as it changes (Tables 03-1, 03-2, R463; log entry 142). -/
structure PcieCfg where
  /-- Base addresses of BAR0, BAR2 and BAR4; of a PF also those of the VF BARs. -/
  bars : List Word64 := [0, 0, 0]
  vfBars : List Word64 := [0, 0, 0]
  /-- MSI-X Message Control: MSI-X Enable and Function Mask (R78). -/
  msixEnable : Bool := false
  funcMask : Bool := false
  /-- Device Control: Max_Payload_Size and Max_Read_Request_Size codes, 128 << code bytes; 10-Bit Tag Requester Enable. -/
  payload : Nat := 0
  readReq : Nat := 2
  tag10 : Bool := false
  /-- Link Control and L1 PM Substates Control: ASPM L1, L1.1 and L1.2 enabled. -/
  aspm : BitVec 3 := 0
  /-- AER: ECRC generation and checking enabled. -/
  ecrcGen : Bool := false
  ecrcCheck : Bool := false
  /-- SR-IOV: NumVFs. -/
  numVfs : Nat := 0
  deriving DecidableEq, Repr

/-- The function page and rings of one function (Table 03-4). -/
structure HstFn where
  /-- HST_BAD_ACCESS. -/
  badAccess : Word := 0
  /-- HST_ISO_VIOL. -/
  isoViol : Word := 0
  /-- HST_ADM_CTL.ENABLE. -/
  enable : Bool := false
  evtLog2 : BitVec 4 := 0
  rplLog2 : BitVec 4 := 0
  cmdLog2 : BitVec 4 := 0
  errRes : Bool := false
  errCfg : Bool := false
  ready : Bool := false
  /-- HST_ADM_CMD_BASE, reset DESIGN CHOICE 0 (log entry 12). -/
  cmdBase : Word64 := 0
  /-- HST_ADM_CMD_WB. -/
  cmdWb : Word64 := 0
  /-- HST_ADM_RPL_BASE. -/
  rplBase : Word64 := 0
  /-- HST_ADM_EVT_BASE. -/
  evtBase : Word64 := 0
  /-- HST_RING_SEL. -/
  ringSel : BitVec 14 := 0
  /-- A start held until the rings are FREE or Blotter service begins (R66, R454). -/
  heldStart : Option AdmStart := none
  /-- HST_FN_STATUS.FLR. -/
  flr : Bool := false
  /-- Configuration space (R61, R63). -/
  cfg : PcieCfg := {}
  /-- The function is in D3hot (R463). -/
  d3hot : Bool := false
  /-- Rings by function-local number. -/
  rings : Tbl Ring := []
  /-- Vectors 0-31. -/
  vectors : Tbl Vector := []
  /-- Command ring served last (R89). -/
  cmdTurn : Nat := 0
  /-- Injection ring served last (R89). -/
  injTurn : Nat := 0
  /-- TIM_NOW_HI latch of the function (R396). -/
  timHi : Word := 0
  /-- TIM_NOW_FRAC latch of the function (R396). -/
  timFrac : Word := 0
  /-- Per command ring: index and TAG of the last applied command (R450). -/
  applied : Tbl (Word × Word) := []
  deriving DecidableEq, Repr

/-- The Host Complex beyond its functions (03, 17). -/
structure Hst where
  fns : Tbl HstFn := []
  /-- Function served last by the command fetch (R89). -/
  fnTurn : Nat := 0
  /-- Function served last by the injection fetch (R89). -/
  injFnTurn : Nat := 0
  /-- Host memory as the device sees it through DMA (R68, R71, R76). -/
  mem : Memory := []
  /-- Ranges of IOVAs, first address and length, whose accesses the host's root complex aborts (Table 03-8; the host's own, log entry 143). -/
  badIova : List (Nat × Nat) := []
  /-- The link is in L1 or L1.2 (R463): 0 no, 1 L1, 2 L1.1, 3 L1.2. -/
  linkL1 : Nat := 0
  /-- The last configuration request was answered with retry status (R452). -/
  cfgRetry : Bool := false
  /-- SR-IOV VF Enable (R460; log entry 142). -/
  vfEnable : Bool := false
  /-- Value that the last register, SMBus or configuration read returned. -/
  lastRead : Word64 := 0
  deriving DecidableEq, Repr

/-! ### Nose (03, 17) -/

/-- Service level (DEV_QUERY RES2, R452). -/
inductive Service where
  | off
  | blotter
  | full
  deriving DecidableEq, Repr

/-- A command that was fetched from a ring and has not completed (R72, R459). -/
structure Fetched where
  opcode : Nat
  cmd : Cmd
  deriving DecidableEq, Repr

/-- A reply that has not been written: its command ring and the index of its command in that ring, its reply ring, and the entry (R72, R73). -/
structure HeldReply where
  fn : Nat
  ring : Nat
  index : Word
  rplRing : Nat
  dws : List Word
  deriving DecidableEq, Repr

/-- The Nose: command interpreter, watchdog and firmware (03, 17). -/
structure Nose where
  service : Service := .off
  /-- Commands fetched and not completed. -/
  fetched : List Fetched := []
  /-- Key commands waiting for a slot to drain (R138, R141). -/
  waiting : List Fetched := []
  /-- Bulk commands running: at most one of each opcode (R88). -/
  bulk : List Fetched := []
  /-- Replies that wait for an earlier command of their ring or for their reply ring, in completion order, those of one command ring in that
  ring's order (R72, R73). -/
  behind : List HeldReply := []
  /-- Watchdog interval in ms; 0 disabled (R465). -/
  wdogInterval : Nat := 0
  /-- Expiries since the last WATCHDOG_SET (R465). -/
  wdogExpiries : Nat := 0
  /-- Network ms at which the watchdog was last set or restarted (R465). -/
  wdogSince : Nat := 0
  /-- A Nose core restart is in progress (Table 16-11). -/
  restarts : Nat := 0
  /-- FW running and its security counter (R453, R473). -/
  fwVersion : Word := 0
  fwCounter : BitVec 16 := 0
  /-- Silicon revision (DEV_QUERY RES0). -/
  siliconRev : Word := 0
  deriving DecidableEq, Repr

/-! ### Objects (02) -/

/-- A device-wide table of one object type (R25, R28, R29). -/
structure ObjTbl (α : Type) where
  /-- Objects in use by index. -/
  live : Tbl α := []
  /-- Generations of indexes that are not 1. -/
  gens : Tbl Nat := []
  /-- Indexes at and above this one were never allocated: the front of the free list. -/
  fresh : Nat := 0
  /-- The freed indexes, the one freed longest ago first: the rest of the free list. -/
  freed : List Nat := []
  deriving DecidableEq, Repr, Inhabited

/-- A local address entry (R33, Table 02-19). -/
structure LocalAddr where
  ip : List Byte
  first : Nat
  last : Nat
  v6 : Bool
  deriving DecidableEq, Repr

/-- A meter's parameters and buckets (R147, R148). -/
structure Meter where
  /-- true: trTCM; false: srTCM. -/
  tr : Bool
  aware : Bool
  cir : Nat
  cbs : Nat
  pir : Nat
  pbs : Nat
  /-- tc in µbit. -/
  tc : Nat
  /-- te or tp in µbit. -/
  tx : Nat
  /-- t_last in ns. -/
  last : Nat
  deriving DecidableEq, Repr

/-- A tenant (R32, Table 02-4). -/
structure Tenant where
  keySlots : Nat := 1024
  ringCmd : Nat := 16
  ringReply : Nat := 16
  ringEvent : Nat := 4
  ringMedia : Nat := 64
  confs : Nat := 32
  legs : Nat := 1024
  decode : Nat := 256
  encode : Nat := 128
  /-- Twin-protected peak rate ceiling, Mb/s. -/
  peak : Nat := 320000
  prot : Bool := true
  addrs : List LocalAddr := []
  /-- Exception ring (R45), 0 none. -/
  excRing : Nat := 0
  unmatchedStun : Bool := false
  /-- DSCP map: colour 0, 1 or 2 by DSCP; unlisted green (R151). -/
  dscp : Tbl Nat := []
  /-- Tenant meter (R152). -/
  meter : Option Meter := none
  /-- Scheduler weight its legs receive at creation (R169). -/
  weight : Nat := 10
  /-- Unmatched STUN: the second counted, packets in it, excess (R44). -/
  stunSec : Nat := 0
  stunCount : Nat := 0
  stunExcess : Nat := 0
  deriving DecidableEq, Repr

/-- An entry of a talker ranking (R286). -/
structure Ranked where
  /-- Local leg index; none for a remote entry. -/
  leg : Option Nat
  /-- Global leg ID of R56. -/
  gleg : Nat
  /-- Inbound audio stream index of a local entry. -/
  stream : Nat
  /-- Momentary value, or the reported level (R303). -/
  level : Nat
  /-- Consecutive inactive blocks. -/
  idle : Nat
  deriving DecidableEq, Repr

/-- A tone playing on a leg or conference (R300, R301). -/
structure Tone where
  table : Nat
  cadence : Nat
  level : Nat
  /-- ms; 0 until TONE_STOP. -/
  duration : Nat
  /-- Block in which it starts. -/
  start : Nat
  /-- Components in 0.1 Hz; their phases are 0 at the first sample of `start`. -/
  freqs : List Nat
  /-- The cadence is in its on part, and the block in which its last edge ramps. -/
  on : Bool := true
  edge : Nat
  /-- Clusters on which it holds a generator. -/
  generators : List Nat
  deriving DecidableEq, Repr

/-- A premix received or computed for a block (R302, R303). -/
structure Premix where
  device : Nat
  tick : Nat
  samples : List Int
  deriving DecidableEq, Repr

/-- A select of the fixed multiplexer graph with its ramp (R294). -/
structure MuxSelect where
  /-- Stream now heard, and its weight k of r(k), 96 when settled. -/
  stream : Option Nat := none
  k : Nat := 96
  /-- Stream and weight by sample, up to the end of the last block decided, at most 192. -/
  trace : List (Option Nat × Nat) := []
  deriving DecidableEq, Repr

/-- A bridge request in log order (R261). -/
structure BridgeReq where
  codec : Nat
  stream : Nat
  deriving DecidableEq, Repr

/-- A conference (R35, Table 02-5). -/
structure Conf where
  tenant : Nat
  /-- CLOSING (R36). -/
  closing : Bool
  /-- Media mode 0-2. -/
  mode : Nat
  talkerLimit : Nat
  legLimit : Nat
  /-- Accord image handle, 0 the fixed multiplexer graph. -/
  image : Handle
  /-- Cascade ID when VALID (R495). -/
  globalId : Option (BitVec 24)
  /-- The talker ranking (R286). -/
  ranking : List Ranked := []
  /-- Ticks at which the ranking was last sorted again and last reported, and the block of the last return mixes (R286, R302, R303). -/
  resorted : Option Nat := none
  reported : Option Nat := none
  returned : Option Nat := none
  /-- The home ranking last received (R304), or the members' last reports (R303). -/
  remote : List Ranked := []
  /-- Input block that Accord processes next, and the block up to which selections are decided. -/
  block : Nat := 0
  selEnd : Nat := 0
  /-- State of the image's nodes by instance and node, and of the image that a swap leaves (R295, R296). -/
  nodes : Tbl (List Int) := []
  oldNodes : Tbl (List Int) := []
  /-- The buses of the last block (Table 10-7). -/
  buses : Tbl (List Int) := []
  /-- The cascade return mix is heard, and the block in which that last changed (R290, R303). -/
  cascade : Bool := false
  cascadeAt : Option Nat := none
  /-- Scaler banks that are not the linear set: 768 taps each (R220). -/
  banks : Tbl (List Int) := []
  /-- Selects of the fixed multiplexer graph (R294). -/
  selects : List MuxSelect := []
  /-- The conference runs the fixed graph although it has an image (R294, R332). -/
  fallback : Bool := false
  /-- A swap of images is under way; the image it leaves, and the block in which it started, none while it waits for a tick or for
  units (R296, R297). -/
  swapping : Bool := false
  oldImage : Handle := 0
  swapAt : Option Nat := none
  /-- Tone on every mix of the conference, and tones that ramp down (R300, R301). -/
  tone : Option Tone := none
  fading : List Tone := []
  /-- Premixes by device and tick (R303). -/
  premixes : List Premix := []
  /-- Premixes counted late (R303) and cascade audio without a trunk (R302). -/
  lateMix : Nat := 0
  noTrunk : Nat := 0
  /-- Bridge requests waiting, in log order (R261). -/
  bridgeWait : List BridgeReq := []
  deriving DecidableEq, Repr

/-- Leg states (R46, Table 02-9); FREE is absence from the table. -/
inductive LegState where
  | pending
  | active
  | held
  | draining
  deriving DecidableEq, Repr

/-- A transport record (R41, Table 02-15). -/
structure Transport where
  laddr : List Byte
  raddr : List Byte
  lport : Nat
  rport : Nat
  v6 : Bool
  port : PortNo
  vid : Nat
  pcp : Nat
  ctrl : Nat
  deriving DecidableEq, Repr

/-- An RTP packet of a leg as it left, until its feedback (R154, R156). -/
structure SentRtp where
  twsn : Nat
  ssrc : Word
  seq : Nat
  /-- Egress time-stamp, ns. -/
  at_ : Nat
  bytes : Nat
  ect : Bool
  deriving DecidableEq, Repr

/-- An egress estimator (R153-R157). -/
structure Estimator where
  minimum : Nat
  /-- none until the first ESTIMATOR_SET: its egress port's line rate (R153). -/
  maximum : Option Nat
  start : Nat
  flags : BitVec 4
  target : Nat
  /-- A decision has set the target since LEG_ENABLE (R157, R247). -/
  decided : Bool := false
  /-- Packets sent and not yet fed back, oldest first. -/
  log : List SentRtp := []
  /-- Feedback of the interval: bytes reported as received, packets reported and those of them lost, ECT(1) packets and those with CE. -/
  received : Nat := 0
  reported : Nat := 0
  lost : Nat := 0
  ect : Nat := 0
  ce : Nat := 0
  /-- Receiver reports of the interval: packets lost in 1/256, and packets expected; highest number reported by SSRC. -/
  loss : Nat × Nat := (0, 0)
  heard : Tbl Nat := []
  /-- The group of egress 5 ms being formed: its number, last egress and arrival time, ns; the group before it (R156). -/
  group : Option (Nat × Int × Int) := none
  before : Option (Int × Int) := none
  /-- Arrival time and accumulated delay variation of the last 16 groups, ns, newest first. -/
  delays : List (Int × Int) := []
  /-- Tick of the last delay overuse. -/
  overuseAt : Option Nat
  /-- Tick of the last authenticated feedback of a selected kind. -/
  feedbackAt : Nat
  /-- Tick of the last halving (R157). -/
  halvedAt : Option Nat
  /-- Tick of the last decision (R155). -/
  decidedAt : Option Nat := none
  /-- Feedback ms since a failover (R157). -/
  since : Nat
  /-- Retransmission allowance left in this interval, bytes (R165). -/
  allowance : Nat
  deriving DecidableEq, Repr

/-- A shaper (R170, R171). -/
structure Shaper where
  /-- kb/s; none until the first SHAPER_SET: its egress port's line rate (R170). -/
  rate : Option Nat
  burst : Nat
  /-- Signed credit in µbit. -/
  credit : Int
  /-- CORE time of the last refill, ns. -/
  last : Nat
  deriving DecidableEq, Repr

/-- An outbound forwarded slot (R496, R160-R162). -/
structure FwdSlot where
  ssrc : Word
  slot : Handle
  rtxSsrc : Word
  rtxSlot : Handle
  /-- Inbound source stream handle, 0 empty. -/
  source : Handle := 0
  /-- Current step, −1 none. -/
  cur : Int := -1
  /-- Target step, −1 none. -/
  want : Int := -1
  /-- Tick of the last upward move. -/
  lastUp : Option Nat := none
  /-- Per-slot RTP timestamp offset (R162). -/
  tsOff : Word := 0
  /-- Logged arrival of the last forwarded picture and its output timestamp (R162). -/
  lastArr : Nat := 0
  lastTs : Word := 0
  /-- The encoding last forwarded, by its source SSRC, and the number of the last packet forwarded. -/
  lastEnc : Option Word := none
  lastSeq : Nat := 0
  /-- Tick of the last key request for a pending move (R161). -/
  askedAt : Option Nat := none
  deriving DecidableEq, Repr

/-- A stream declaration (R497, Table 02-21). -/
structure StreamRec where
  outbound : Bool
  /-- 0 audio, 1 video source, 2 data, 3 composite video. -/
  kind : Nat
  pt : Nat
  rtxPt : Nat
  slot : Handle
  form : Nat
  layers : List Nat
  ssrcs : List Word
  rtx : List Word
  fec : Word
  rtxSlot : Handle
  fecSlot : Handle
  /-- Width and height of notes 0, 1, 2. -/
  sizes : List Nat
  /-- Bytes 64-95: audio, decode or encode block. -/
  block : List Byte
  deriving DecidableEq, Repr

/-- A leg (R38, R46). -/
structure Leg where
  tenant : Nat
  conf : Nat
  state : LegState
  transport : Transport
  meter : Meter
  rtcpIn : Handle
  rtcpOut : Handle
  rtcpSsrc : Word
  /-- Inbound and outbound stream indexes in declaration order (R47). -/
  ins : List Nat
  outs : List Nat
  slots : List FwdSlot
  est : Estimator
  shaper : Shaper
  weight : Nat
  /-- Mix object (R287). -/
  mix : Option Nat := none
  /-- Transport-wide sequence number (R154). -/
  twsn : BitVec 16 := 0
  /-- Audio ticks seen since the detach (R48). -/
  drainTicks : Nat := 0
  /-- Counters of R42, R43, R105. -/
  unclassified : Nat := 0
  unknownSsrc : Nat := 0
  unknownSender : Nat := 0
  errored : Nat := 0
  dropped : Nat := 0
  /-- Tone on the leg's own mix, and tones that ramp down (R300, R301). -/
  tone : Option Tone := none
  fading : List Tone := []
  /-- Frame bytes admitted per class with their tick, for R158 and R247. -/
  sent : List (Nat × Nat × Nat) := []
  deriving DecidableEq, Repr

/-- A packet held for assembly (R196). -/
structure HeldPkt where
  seq : Nat
  ts : Word
  marker : Bool
  arrival : Nat
  /-- CSRCs and header extension, and the payload. -/
  head : List Byte
  data : List Byte
  deriving DecidableEq, Repr

/-- A missing sequence number that was requested (R197). -/
structure Nacked where
  seq : Nat
  tick : Nat
  times : Nat
  deriving DecidableEq, Repr

/-- An inbound encoding of a video source (R196-R198, R205). -/
structure Encoding where
  ssrc : Word
  note : Nat
  /-- Highest extended sequence number; none before the first packet. -/
  highest : Option Nat := none
  /-- First sequence number of the next picture to complete. -/
  next : Nat := 0
  /-- `next` is the start of a picture; before the first one, and after packets that were not assembled, it is not known. -/
  synced : Bool := false
  /-- Timestamp of the picture that is passed over because its first packets were not assembled. -/
  passing : Option Word := none
  held : List HeldPkt := []
  /-- Which of the 1,024 numbers up to `highest` have been received: bit i for `highest` − i. -/
  got : Nat := 0
  nacks : List Nacked := []
  /-- Tick of the last PLI or FIR, whether one is owed, FIR sequence number (R205). -/
  askedAt : Option Nat := none
  owed : Bool := false
  firSeq : Byte := 0
  /-- A key request episode is open since this tick. -/
  episode : Option Nat := none
  /-- Arrivals for the ladder costs of R159: (ns, temporal layer, note, bytes). -/
  arrivals : List (Nat × Nat × Nat × Nat) := []
  deriving DecidableEq, Repr

/-- A picture: 4:2:0 planes of samples, 10-bit inside the engines (R224). -/
structure Picture where
  w : Nat
  h : Nat
  y : List Nat
  cb : List Nat
  cr : List Nat
  deriving DecidableEq, Repr

/-- Buffer states of Table 07-5. -/
inductive BufState where
  | unused
  | short
  | long
  | outputPending
  deriving DecidableEq, Repr

/-- A frame buffer of a decode context (R200, R201, R206). -/
structure FrameBuf where
  st : BufState
  /-- Marked CLEAN (R201). -/
  clean : Bool
  concealed : Bool
  reduced : Bool
  order : Nat
  /-- Its place in output order over all sequences of the context (R207), and in decode order. -/
  seq : Nat := 0
  count : Nat := 0
  /-- Index of a long-term reference of H.264. -/
  longIdx : Option Nat := none
  /-- Eligibility time e in ns, and whether the codec's output process has put the picture out (R206). -/
  eligible : Nat
  shown : Bool
  note : Nat
  /-- The decode task that is still in flight, by its number: the picture is not there before its release (R208). -/
  task : Option Nat := none
  /-- What the decoding resulted in (log entry 6). -/
  token : Nat
  pic : Picture
  deriving DecidableEq, Repr

/-- Context states of Table 07-4. -/
inductive DecState where
  | idle
  | waitKey
  | clean
  | tainted
  | overLimit
  deriving DecidableEq, Repr

/-- A decode context (R187-R208). -/
structure DecCtx where
  index : Nat
  home : ClusterNo
  /-- Declared rate D, pixels/s (R190). -/
  rate : Nat
  /-- max(A_max, 8,000) + 2,000 (R195). -/
  charge : Nat
  /-- 64 KiB granules reserved (R189). -/
  granules : Nat
  bufs : List FrameBuf
  state : DecState
  /-- The decode note (R192). -/
  note : Nat
  /-- Pixel bucket in 10^-9 pixel and its last refill, ns (R195). -/
  bucket : Nat
  last : Nat
  /-- Place in output order of the newest picture handed over at a tick (Table 07-5), and the result of the newest decoded picture. -/
  handed : Option Nat := none
  newest : Nat := 0
  /-- Sequences begun, and pictures decoded. -/
  epoch : Nat := 0
  count : Nat := 0
  /-- VP9 and AV1: the decoded picture that each of the eight slots holds, by `count` (R200), and the slots that count as missing (R202). -/
  slots : List (Option Nat) := List.replicate 8 none
  missing : List Nat := []
  /-- A picture of the decoded encoding was lost since the last one decoded (R202). -/
  gap : Bool := false
  /-- Output order, in H.264 frame_num, at which a recovery point that began after the taint recovers (R201). -/
  recovery : Option Nat := none
  /-- RASL pictures of the CRA at which decoding started are discarded (R201). -/
  skipRasl : Bool := false
  /-- H.264 frame_num of the last reference picture. -/
  frameNum : Option Nat := none
  /-- The note that R192 chose last. -/
  target : Option Nat := none
  deriving DecidableEq, Repr

/-- A packet of audio placed at its position (R277). -/
structure AudioPkt where
  pos : Int
  /-- Positions that it covers. -/
  len : Nat
  data : List Byte
  /-- Its samples at the codec's rate, once decoded. -/
  samples : Option (List Int)
  deriving DecidableEq, Repr

/-- Playout, talker measurement and loudness of an inbound audio stream (R277-R285). -/
structure AudioIn where
  started : Bool := false
  /-- Extended RTP timestamp of the first packet, and of the newest. -/
  ts0 : Nat := 0
  tsLast : Nat := 0
  p0 : Int := 0
  /-- Playout depth J, ms. -/
  depth : Nat := 0
  /-- RFC 3550 jitter j in the integer form (16 × j), and the last transit in 48 kHz units. -/
  jitter16 : Nat := 0
  transit : Option Int := none
  /-- Newest received position. -/
  newest : Int := 0
  pkts : List AudioPkt := []
  /-- Block in which a packet's samples were last played, for the 60 ms of R278. -/
  lastPlayed : Nat := 0
  /-- Zeros are put out: before the first packet, and after 60 ms without one. -/
  silent : Bool := true
  /-- State of the decoder (log entry 4). -/
  dec : Nat := 0
  /-- Samples at the codec's rate up to position rawEnd, the last ones first needed by filters and the Direct path. -/
  raw : List Int := []
  rawEnd : Int := 0
  /-- Positions that packets unfit for the Direct path cover (R281). -/
  odd : List (Int × Nat) := []
  /-- K-weighting filter state: x1, x2, y1, y2 of the two biquads (R284). -/
  filter : List Int := []
  /-- e_b of the last 3,000 blocks, newest first (R284). -/
  energies : List Nat := []
  /-- Loudness gain G in 2^-24 dB (R285). -/
  gain : Int := 0
  /-- Ticks at which G and the playout depth were last brought up to date (R277, R285). -/
  loudAt : Option Nat := none
  movedAt : Option Nat := none
  /-- Input chain outputs of the last five blocks, 240 samples. -/
  block : List Int := []
  /-- Voice isolation as commanded, and from which block; as in effect, and the block in which its crossfade began (R283, R290); the
  network's state. -/
  isolated : Bool := false
  isoFrom : Nat := 0
  isoOn : Bool := false
  isoStart : Option Nat := none
  iso : Nat := 0
  /-- A block of silence is inserted at this block (R277). -/
  gap : Option Nat := none
  /-- The block that was counted last as concealed (R278). -/
  concealed : Option Nat := none
  deriving DecidableEq, Repr

/-- An inbound stream (R497). -/
structure InStream where
  tenant : Nat
  /-- Leg index, or trunk index for a remote source (R180). -/
  owner : Nat
  onTrunk : Bool
  decl : StreamRec
  /-- Host route: ring and divert (R499). -/
  route : Option (Nat × Bool)
  encs : List Encoding
  dec : Option DecCtx
  audio : Option AudioIn
  /-- GLEG and GCONF of the last TYPE 0 packet of a remote source (R180). -/
  gleg : Nat := 0
  gconf : Nat := 0
  deriving DecidableEq, Repr

/-- Paths of a composite (Table 09-11 index 7). -/
inductive CompPath where
  | compose
  | stitched
  | bridged
  | waiting
  deriving DecidableEq, Repr

/-- Composite video state of an outbound stream (R245-R265). -/
structure Comp where
  path : CompPath
  /-- Private encode context (R241). -/
  priv : Option Nat
  /-- Stitcher reservation: stitcher number (R246). -/
  stitcher : Option Nat
  /-- Bridge held: tile set index and bridge number (R261). -/
  bridge : Option (Nat × Nat)
  /-- Home cluster and rate of the SELF layout picture task (R246). -/
  selfRate : Option (Nat × Nat)
  /-- Tick time of the last key picture, ns. -/
  lastKey : Option Nat
  /-- Pending key requests (R251). -/
  requests : Nat
  /-- Sequence number of the last FIR (R251). -/
  lastFir : Option Byte
  /-- Temporal ceiling and tick of the last upward move (R260). -/
  ceiling : Nat
  ceilUp : Option Nat
  /-- Bc of the last estimator decision, kb/s (R247). -/
  bc : Option Nat
  /-- Tile stream taken at each position: tile set and member (R259); none for a fill tile. -/
  tiles : List (Option (Nat × Nat))
  /-- The geometry that `tiles` belongs to: canvas, then x, y, w, h and fill of each position (R263). -/
  geom : List Nat := []
  /-- Colours of the fill tiles of the last stitched picture, by position; 0 for a stream (R259). -/
  fills : List Nat := []
  /-- Parameter sets are owed with the next stitched picture (R258). -/
  paramsOwed : Bool
  deriving DecidableEq, Repr

/-- A contribution to a listener mix with its crossfade: positions at which it enters and leaves (R290). -/
structure MixTerm where
  stream : Nat
  seat : Nat
  enter : Int
  leave : Option Int
  deriving DecidableEq, Repr

/-- Mix, output stage and encoder of an outbound audio stream (R279, R287-R299); samples stand by channel. -/
structure AudioOut where
  /-- Streams in the mix of an image conference (R290). -/
  terms : List MixTerm := []
  /-- Seats by stream (R289). -/
  seats : List (Nat × Nat) := []
  /-- Selects of the fixed graph that it hears, in the last block decided and before it (R288). -/
  heard : List Nat := []
  heardWas : List Nat := []
  /-- Stage-7 output at 48 kHz that waits for stage 8, and the output position of its first sample. -/
  std : List (List Int) := []
  outPos : Option Int := none
  /-- Smoothed gain reduction s, and the last 48 samples for the lookahead (R299). -/
  smooth : List Int := []
  look : List (List Int) := []
  /-- The last 48 samples before the conversion to the sink rate (R274). -/
  down : List (List Int) := []
  /-- Linear samples at the sink rate waiting for a full frame, and the output position of the first. -/
  frame : List (List Int) := []
  framePos : Int := 0
  /-- State of the encoder (log entry 4). -/
  enc : Nat := 0
  /-- What decides the mix's samples in the last block (R291). -/
  sig : List Nat := []
  /-- Share group, by the stream that it began with (R291, R292). -/
  group : Option Nat := none
  /-- Group whose output the mix's equals, and the output position since which it does (R292). -/
  equal : Option (Nat × Int) := none
  /-- Output position at which the mix comes to differ from its group (R292). -/
  splitAt : Option Int := none
  deriving DecidableEq, Repr

/-- An outbound stream (R497). -/
structure OutStream where
  tenant : Nat
  leg : Nat
  decl : StreamRec
  route : Option (Nat × Bool)
  comp : Option Comp
  audio : Option AudioOut
  deriving DecidableEq, Repr

/-- A pending flip (R229-R231). -/
structure Flip where
  fence : Word
  miss : Nat
  content : List Byte
  deriving DecidableEq, Repr

/-- A layer of a layout (Table 08-3). -/
structure Layer where
  kind : Nat
  z : Nat
  isStatic : Bool
  fit : Nat
  alpha : Nat
  x : Nat
  y : Nat
  w : Nat
  h : Nat
  bank : Nat
  fmt : Nat
  source : Handle
  rank : Nat
  fill : Nat × Nat × Nat
  imgW : Nat
  imgH : Nat
  /-- Content shown; none before the first flip (R217). -/
  content : Option (List Byte)
  pending : Option Flip
  deriving DecidableEq, Repr

/-- A layout (R214, R215). -/
structure Layout where
  tenant : Nat
  conf : Nat
  w : Nat
  h : Nat
  rate : Nat
  tenBit : Bool
  excl : Bool
  background : Nat × Nat × Nat
  emptyFill : Nat × Nat × Nat
  fenceLimit : Nat
  exclLeg : Handle
  layers : List Layer
  /-- Signalled fence IDs, oldest first, at most 16 (R230). -/
  signalled : List Word
  /-- Timed-out fence IDs, oldest first, at most 16 (R231). -/
  timedOut : List Word
  home : ClusterNo
  /-- Reserved compose rate D (R212). -/
  reserved : Nat
  /-- Absolute cache bytes reserved for image content (R233). -/
  content : Nat
  /-- The layout picture of the last tick at which the layout was in use: tick, samples, and the number of its task (R228, R243). -/
  output : Option (Nat × Picture × Nat)
  /-- The description is new since the last picture tick (R215). -/
  changed : Bool
  deriving DecidableEq, Repr

/-- A listener mix object (R287). -/
structure Mix where
  tenant : Nat
  conf : Nat
  leg : Nat
  limit : Nat
  pan : Bool
  binaural : Bool
  noShare : Bool
  noDirect : Bool
  deriving DecidableEq, Repr

/-- A member of a tile set (Table 09-5). -/
structure Member where
  isRank : Bool
  rank : Nat
  source : Handle
  /-- Encode context; none once its source was removed (R253). -/
  ctx : Option Nat
  /-- Leg that held the rank at the last picture (R253). -/
  holder : Option Nat
  /-- Tile scaling output of the last tick, with the number of its task (R228). -/
  scaled : Option (Nat × Picture × Nat)
  /-- The next picture is coded intra throughout (R253). -/
  intra : Bool := true
  /-- Last coded slice: tick, bytes, and the number of its task. -/
  slice : Option (Nat × List Byte × Nat)
  /-- Slices of the last 500 ms: ns, temporal layer, bytes (R260). -/
  hist : List (Nat × Nat × Nat) := []
  deriving DecidableEq, Repr

/-- A bridge of a tile set (R241, R261). -/
structure Bridge where
  ctx : Nat
  holder : Option Nat
  /-- Cluster of its compose rate (R212, R252). -/
  home : ClusterNo
  deriving DecidableEq, Repr

/-- A tile set (R252). -/
structure TileSet where
  tenant : Nat
  conf : Nat
  codec : Nat
  tenBit : Bool
  layers : Nat
  fit : Nat
  w : Nat
  h : Nat
  rate : Nat
  bank : Nat
  girPeriod : Nat
  tileRate : Nat
  minQp : Nat
  maxQp : Nat
  capMult : Nat
  bridgeW : Nat
  bridgeH : Nat
  fill : Nat × Nat × Nat
  members : List Member
  bridges : List Bridge
  home : ClusterNo
  reserved : Nat
  deriving DecidableEq, Repr

/-- Encode context kinds (R241). -/
inductive EncKind where
  | priv (stream : Nat)
  | tile (tileset member : Nat)
  | bridge (tileset number : Nat)
  deriving DecidableEq, Repr

/-- An encode context (R241, R248, R249). -/
structure EncCtx where
  kind : EncKind
  tenant : Nat
  home : ClusterNo
  /-- D, pixels/s. -/
  rate : Nat
  granules : Nat
  w : Nat
  h : Nat
  f : Nat
  tenBit : Bool
  layers : Nat
  codec : Nat
  capMult : Nat
  /-- Debt v in bits (R249). -/
  debt : Int
  /-- Tick of the last key picture, and of the last picture. -/
  lastKey : Option Nat
  lastPic : Option Nat
  /-- What the last coding resulted in (log entry 7). -/
  token : Nat := 0
  deriving DecidableEq, Repr

/-- Slot states of Table 05-3, without RETIRING and HALF, which are fields. -/
inductive SlotState where
  | empty
  | loaded
  | exhausted
  | erasing
  deriving DecidableEq, Repr

/-- A session key as Attar holds it (R116, R119, R124). -/
structure SessKey where
  profile : Byte
  key : List Byte
  salt : List Byte
  auth : List Byte
  deriving DecidableEq, Repr

/-- Index estimate and replay window of one inbound SSRC entry (R125, R135). -/
structure RxWindow where
  ssrc : Word
  /-- Highest authenticated index; none before the first. -/
  highest : Option Nat
  /-- Bit i: index highest − i was accepted. -/
  bits : Nat
  deriving DecidableEq, Repr

/-- A key slot (R118-R141). -/
structure KeySlot where
  tenant : Nat
  state : SlotState := .empty
  outbound : Bool := false
  rtcp : Bool := false
  fallbackFlag : Bool := false
  window : Nat := 128
  key : Option SessKey := none
  /-- The previous key while its work drains (R138). -/
  retiring : Option SessKey := none
  /-- The retiring key kept as fallback, and the arrival time at which it expires (R139). -/
  fallback : Option (SessKey × Nat) := none
  /-- Next egress index (R122); for a trunk wrap count and TSEQ. -/
  next : Nat := 0
  /-- Outbound SSRC bound to the slot. -/
  ssrc : Option Word := none
  /-- Highest inbound index authenticated over all entries (R122). -/
  highest : Nat := 0
  windows : List RxWindow := []
  /-- EV_KEY_HALF has been posted for the current key. -/
  half : Bool := false
  /-- The key that was exhausted (R132). -/
  spent : Option SessKey := none
  /-- EV_PRECEDENCE of R131 was posted. -/
  precedence : Bool := false
  /-- A KEY_ERASE reply is owed (R140), or the erasure came without one. -/
  eraseOwed : Option Fetched := none
  deriving DecidableEq, Repr

/-- A cascade trunk (R58-R60, R145, R178). -/
structure Trunk where
  tenant : Nat
  transport : Transport
  peer : Nat
  /-- Sending slots of phases 0 and 1, receiving slots of phases 0 and 1. -/
  tx : List Handle
  rx : List Handle
  phase : Bool
  meter : Meter
  est : Estimator
  shaper : Shaper
  weight : Nat
  slots : List FwdSlot
  /-- Remote source streams declared on it (R180). -/
  ins : List Nat
  /-- Logged time, ns, of the last packet sent and authenticated. -/
  lastSent : Nat
  lastAuth : Nat
  down : Bool
  /-- Highest TSEQ received on phases 0 and 1, and missing values (R60, R145). -/
  rxSeq : List (Option Nat) := [none, none]
  lost : Nat
  /-- Datagrams dropped by R58-R60. -/
  drops : Nat
  deriving DecidableEq, Repr

/-- An Accord image (R295, Table 10-6). -/
structure Image where
  tenant : Nat
  /-- The whole image block. -/
  bytes : List Byte
  directOk : Bool
  confNodes : Nat
  inNodes : Nat
  lisNodes : Nat
  edges : Nat
  codeBytes : Nat
  tableBytes : Nat
  confCycles : Nat
  inCycles : Nat
  lisCycles : Nat
  buildId : Word
  /-- Node ID of the last user fault, 0xFFFF if none (Table 11-13). -/
  lastFault : Nat
  /-- It goes once no conference uses it: its tenant's function was reset (R461). -/
  leaving : Bool := false
  deriving DecidableEq, Repr

/-- All object tables (Table 02-2). -/
structure Objects where
  tenants : ObjTbl Tenant := {}
  confs : ObjTbl Conf := {}
  legs : ObjTbl Leg := {}
  ins : ObjTbl InStream := {}
  outs : ObjTbl OutStream := {}
  layouts : ObjTbl Layout := {}
  mixes : ObjTbl Mix := {}
  tilesets : ObjTbl TileSet := {}
  slots : ObjTbl KeySlot := {}
  trunks : ObjTbl Trunk := {}
  images : ObjTbl Image := {}
  /-- Encode contexts by device-wide context index (R241). -/
  encs : ObjTbl EncCtx := {}
  /-- Decode context indexes in use: freed list only (R187). -/
  decFresh : Nat := 0
  decFreed : List Nat := []
  deriving DecidableEq, Repr, Inhabited

/-! ### Packets inside the device -/

/-- An ingress frame from the port receive queue (R102, R403). -/
structure RxFrame where
  port : PortNo
  /-- Bytes held (FCS included unless truncated). -/
  bytes : List Byte
  /-- Bytes on the wire. -/
  wire : Nat
  /-- Arrival time-stamp in 2^-16 ns (R403). -/
  stamp : Nat
  /-- Marked errored (R103). -/
  err : Bool
  /-- The log transmitter has taken it (R343). -/
  logged : Bool
  /-- Bytes charged to the receive budget: the sizes of the pool classes that served the frame (R102, R352). -/
  charged : Nat
  /-- Handles of the pool buffers that hold it, in order (R351). -/
  bufs : List Word := []
  deriving DecidableEq, Repr

/-- Where an ingress packet is bound after the policer (R42, R59). -/
inductive InKind where
  | srtp
  | srtcp
  | trunk
  deriving DecidableEq, Repr

/-- A policed packet waiting for Attar (R133). -/
structure InPkt where
  kind : InKind
  /-- Leg or trunk index. -/
  owner : Nat
  slot : Nat
  ssrc : Word
  stream : Option Nat
  /-- UDP payload. -/
  payload : List Byte
  /-- Logged arrival, ns. -/
  arrival : Nat
  frameLen : Nat
  /-- The leg was HELD at its log position: RTCP is processed, media dropped (Table 02-9). -/
  held : Bool := false
  /-- The pool buffers that it was received in (R351). -/
  bufs : List Word := []
  deriving DecidableEq, Repr

/-- Egress classes of Table 06-5. -/
inductive EgClass where
  | audio
  | control
  | rtx
  | base
  | heart
  | top
  deriving DecidableEq, Repr

/-- A packet held by Sillage for the scheduler (R166-R168). -/
structure EgPkt where
  /-- Leg or trunk index. -/
  owner : Nat
  onTrunk : Bool
  tenant : Nat
  port : PortNo
  cls : EgClass
  ssrc : Word
  slot : Handle
  rtcp : Bool
  /-- Plaintext RTP, RTCP or trunk datagram (the sequence number is Attar's, R127). -/
  plain : List Byte
  /-- Tick or arrival that produced it, ns: TIME of a copied packet (R499). -/
  born : Nat
  /-- Payload type, sequence number and SSRC of the source packet that was forwarded (R129). -/
  orig : Option (Nat × Nat × Word) := none
  /-- The encode or stitch task, by its number, whose release the packet waits for (R385). -/
  wait : Option Nat := none
  /-- Already encrypted under a retiring key (R138): the finished payload. -/
  cipher : Option (List Byte)
  /-- Unencrypted packet of a leg: STUN or DTLS (R431). -/
  raw : Bool
  /-- Stream of a composite or audio frame, for its route. -/
  stream : Option Nat
  /-- Earliest send time of an injected packet, ns (Table 03-9). -/
  notBefore : Nat
  /-- Number in its egress stream (R431). -/
  number : Nat
  /-- Eligible regardless of its gate (R176); counted as held by its gate (R184). -/
  overGate : Bool := false
  held : Bool := false
  /-- Injection ring and entry index (R77, R136). -/
  inject : Option (Nat × Nat) := none
  deriving DecidableEq, Repr

/-- What becomes of a PTP message as it leaves (R406, R409). -/
inductive PtpAct where
  /-- The residence time since a receive time-stamp (2^-16 ns) is added to the correctionField. -/
  | correct (rx : Nat)
  /-- A two-step Sync: its residence time is kept for the Follow_Up. -/
  | twoStep (rx : Nat)
  /-- A Follow_Up that arrived at a time-stamp: the residence time of its Sync and the link delay of the ingress port are added. -/
  | followUp (rx : Nat) (link : Int)
  /-- The device's own Sync: its transmit time is its originTimestamp. -/
  | origin
  /-- The device's own delay request: its transmit time is kept. -/
  | request
  /-- Unchanged. -/
  | plain
  deriving DecidableEq, Repr

/-- A frame on its way to the line (R107). -/
structure TxFrame where
  bytes : List Byte
  /-- Priority for pauses, the PCP of its tag or 0 (R110), and for gates (R173). -/
  prio : Nat
  gate : Nat
  /-- Eligible regardless of its gate (R176). -/
  overGate : Bool := false
  /-- Egress stream ID and number for the watermark (R431); none for PTP and announce frames. -/
  mark : Option (Nat × Nat)
  /-- A PTP message, with what becomes of it at transmission (R409). -/
  ptp : Option PtpAct
  /-- Tenant that the frame belongs to. -/
  tenant : Nat
  /-- What its estimator records as it leaves: of a trunk, leg or trunk index, packet (R154). -/
  est : Option (Bool × Nat × SentRtp) := none
  deriving DecidableEq, Repr

/-! ### Ethernet (04) -/

/-- A gate schedule (R172-R174). -/
structure GatePlan where
  /-- Mode 1, a cyclic gate list; mode 0 is a periodic window. -/
  mode : Bool
  /-- Fixed guard mode (R175). -/
  fixed : Bool
  base : Nat
  period : Nat
  /-- GATES and DURATION; none opens all gates. -/
  entries : List (Byte × Nat)
  /-- Instant at which it starts, and the end of the cycle of the schedule before it. -/
  start : Nat
  oldEnd : Nat
  deriving DecidableEq, Repr

/-- One logical port (R91-R115). -/
structure Port where
  /-- true: PLN-7200 policy. -/
  pln7200 : Bool := false
  maxLen : Nat := 9216
  txStart : Nat := 512
  /-- MAC_ADDR, 48 bits; reset fused base plus p (R97). -/
  addr : BitVec 48 := 0
  /-- MAC_RX_BUDGET in KiB. -/
  rxBudget : Nat := 8192
  /-- MAC_MCAST: address [47:0], valid [63], by entry. -/
  mcast : Tbl Word64 := []
  fecLock : Bool := false
  alignLock : Bool := false
  link : Bool := false
  /-- 802.3x pause ends at this CORE time in 10^-2 ns, the unit of a pause quantum; 0 not paused (R110). -/
  pauseEnd : Nat := 0
  /-- PFC pause ends per priority. -/
  pfcEnd : Tbl Nat := []
  loopback : Nat := 0
  /-- Receive queue, oldest first (R343). -/
  rx : List RxFrame := []
  /-- Transmit dual-clock queue, oldest first (R107). -/
  tx : List TxFrame := []
  /-- Last frame put on the line, FCS included. -/
  lastTx : List Byte := []
  /-- Exception frames in the current second (R99). -/
  excSec : Nat := 0
  excCount : Nat := 0
  /-- Datagrams that match no transport entry, and errored frames against the port (R44, R105). -/
  noMatch : Nat := 0
  errored : Nat := 0
  /-- Gate schedule in force; none is the reset schedule, all gates open (R172). -/
  gatePlan : Option GatePlan := none
  /-- Schedule waiting for its boundary (R174). -/
  gateNext : Option GatePlan := none
  /-- Gates now open. -/
  gates : Byte := 0xFF
  /-- Deficits and round-robin positions of the hierarchy (R167). -/
  tenantTurn : Nat := 0
  deficits : Tbl Nat := []
  legTurn : Tbl Nat := []
  /-- Network ns of the last EV_PRECEDENCE of R176 and R177. -/
  precAudio : Option Nat := none
  precRate : Option Nat := none
  /-- Time-stamp compensation (R404), 2^-16 ns. -/
  tsIngress : Word := 0
  tsEgress : Word := 0
  tsAsym : Word := 0
  /-- TIM_PORT_RES. -/
  residence : Word := 0
  /-- Measured link delay, 2^-16 ns (R409). -/
  linkDelay : Nat := 0
  /-- Last consumed number per egress stream since the last watermark (R432). -/
  consumed : Tbl Nat := []
  wmSeq : Word := 0
  deriving DecidableEq, Repr

/-- One physical port (R91, R95). -/
structure Phys where
  mode : Nat := 1
  /-- MAC_LANE_MAP. -/
  laneMap : Word := 0x0000E4E4
  mapErr : Bool := false
  deriving DecidableEq, Repr

/-! ### Sillage and Attar (05, 06) -/

/-- An entry of the retransmission cache (R163, R164). -/
structure RtxEntry where
  ssrc : Word
  seq : BitVec 16
  /-- ns of admission. -/
  at_ : Nat
  owner : Nat
  rtxSsrc : Word
  rtxPt : Nat
  rtxSlot : Handle
  plain : List Byte
  /-- Times resent and ns of the last. -/
  times : Nat
  lastAt : Nat
  deriving DecidableEq, Repr

/-- A freed audio source that mixes still name while they drop it: by a number past the stream table, its conference, and the stream as it was freed, with no
packet to come (R49, R290; log entry 102). -/
structure GoneIn where
  id : Nat
  conf : Nat
  stream : InStream
  deriving DecidableEq, Repr

/-- Attar and Sillage queues (05, 06). -/
structure Media where
  /-- Policed packets waiting for Attar. -/
  inQ : List InPkt := []
  /-- Packets waiting in Sillage, in admission order (R168). -/
  egress : List EgPkt := []
  /-- Packets picked by the scheduler, waiting for Attar. -/
  outQ : List EgPkt := []
  /-- Retransmission cache, oldest first. -/
  cache : List RtxEntry := []
  /-- Packets admitted per egress stream (R431). -/
  numbers : Tbl Nat := []
  /-- Last audio tick, half tick and picture ticks by rate. -/
  tick : Nat := 0
  half : Nat := 0
  pics : Tbl Nat := []
  /-- Crossfade units granted by block, of the last five (R290). -/
  fades : List (Nat × Nat) := []
  /-- Changes waiting for a unit, in log order: (0 mix, 1 isolation or 2 cascade, stream or conference, term stream) (R290). -/
  fadeWait : List (Nat × Nat × Nat) := []
  /-- Audio sources that are freed and still leave a mix through its crossfade (R49, R290). -/
  gone : List GoneIn := []
  /-- Cascade device ID and trunk port (R55, R58). -/
  deviceId : BitVec 12 := 0
  trunkPort : Nat := 47210
  /-- Logged time of the input at whose log position the device is, ns (R137, R427; log entry 144), and whether that input is being processed. -/
  logNow : Nat := 0
  inInput : Bool := false
  /-- Trunk packets produced at the present log position, by rank of their TYPE: they are admitted at its end (R178). -/
  trunkQ : List (Nat × EgPkt) := []
  /-- Remote members of home conferences: (conference index, device) (R57). -/
  members : List (Nat × Nat) := []
  /-- EV_PRECEDENCE posted in the last second without a rate limit of its own: levels as 8 × winning + losing, object, ns (R448). -/
  precedences : List (Nat × Nat × Nat) := []
  deriving DecidableEq, Repr, Inhabited

/-! ### Video Clusters (07-09) -/

/-- Status of one video engine (Tables 07-10, 08-10, 09-14, 09-15); the task that it runs stands in the Orgue. -/
structure EngStatus where
  quar : Bool := false
  deriving DecidableEq, Repr

/-- One Video Cluster. -/
structure VidCluster where
  dec : List EngStatus := [{}, {}]
  cmp : List EngStatus := [{}, {}]
  enc : List EngStatus := [{}, {}]
  stitch : EngStatus := {}
  /-- The spare: 0 idle, 1 decode, 2 encode (VID_DEC_STATUS2.KIND), and the engine it replaces. -/
  spareKind : Nat := 0
  spareFor : Nat := 0
  spare : EngStatus := {}
  deriving DecidableEq, Repr

/-- An Absolute cache base entry (R232-R235). -/
structure BaseEntry where
  /-- The full description the entry was built from. -/
  desc : List Nat
  pic : Picture
  bytes : Nat
  /-- Layouts that refer to it. -/
  users : List Nat
  /-- The 64 KiB granules of the Absolute cache region that it occupies. -/
  granules : List Nat := []
  deriving DecidableEq, Repr

/-- Video Clusters and Absolute cache. -/
structure Video where
  clusters : Tbl VidCluster := []
  /-- Base entries, least recently used first. -/
  bases : List BaseEntry := []
  /-- Lookups hit, builds, evictions, uncached, dropped fence IDs (Table 08-8). -/
  hits : Nat := 0
  builds : Nat := 0
  evictions : Nat := 0
  uncached : Nat := 0
  fenceDrops : Nat := 0
  deriving DecidableEq, Repr, Inhabited

/-! ### Accord Clusters and cores (10, 11) -/

/-- One Accord core (R308, Table 11-1). -/
structure Core where
  /-- g0-g31; an unlisted register is 0. -/
  regs : Tbl Word := []
  /-- a0-a3, 72 bits. -/
  acc : Tbl (BitVec 72) := []
  pc : Word := 0
  /-- ACC_STATUS.IE, USER, PUSER. -/
  ie : Bool := false
  user : Bool := false
  puser : Bool := false
  epc : Word := 0
  cause : BitVec 5 := 0
  vbase : Word := 0
  imask : BitVec 3 := 0
  icount : Word := 0
  ibudget : Word := 0
  codeBase : Word := 0
  codeLimit : Word := 0
  win0Base : Word := 0
  win0Limit : Word := 0
  win1Base : Word := 0
  win1Limit : Word := 0
  cycle : Word64 := 0
  /-- A load whose value is visible to the second instruction after it: register and value (R312). -/
  load : Option (BitVec 5 × Word) := none
  /-- A taken transfer: target and delay slots still to run (R312); `reti` for the return of R317. -/
  branch : Option (Word × Nat × Bool) := none
  /-- Repetitions still to issue of the next instruction (R314); ACC_STATUS.REP while not 0. -/
  rep : Nat := 0
  /-- Stalled in WAIT (R311). -/
  waiting : Bool := false
  /-- Interrupt sources requesting (R316). -/
  irq : BitVec 3 := 0
  /-- ACC_DBG_CTL.HALT written, core halted, ACC_DBG_SEL (R336). A fault is taken at once, so none is ever pending (R315). -/
  haltReq : Bool := false
  halted : Bool := false
  dbgSel : Byte := 0
  /-- ACC_ICOUNT counts: stopped from entry to the first instruction after the return (R317). -/
  counting : Bool := true
  deriving DecidableEq, Repr

/-- One Accord Cluster. -/
structure AccCluster where
  assistQuar : Bool := false
  coreQuar : BitVec 16 := 0
  /-- Scratchpad contents, 2 MiB (R322). -/
  scratch : Memory := []
  /-- Words with an uncorrectable error (R322). -/
  poison : List Nat := []
  /-- DMA starvation counters of banks 2-15 and banks in an episode (R326). -/
  starve : Tbl Nat := []
  episode : BitVec 16 := 0
  /-- Banks on which DMA waits; DMA busy (ACC_DMA_STATUS). -/
  dmaWait : BitVec 16 := 0
  dmaBusy : Bool := false
  deriving DecidableEq, Repr

/-- All Accord Clusters. -/
structure Accord where
  cores : Tbl Core := []
  clusters : Tbl AccCluster := []
  deriving DecidableEq, Repr, Inhabited

/-! ### Memory Complex (12, 13) -/

/-- Holder record of a buffer that is not FREE (R354). -/
inductive Holder where
  | held (owner : Nat)
  | shared (mask : BitVec 4)
  deriving DecidableEq, Repr

/-- One pool class (R347-R353). -/
structure Pool where
  count : Nat
  /-- Buffers never allocated start here; freed buffers queue behind them. -/
  fresh : Nat := 0
  freed : List Nat := []
  /-- Generations that are not 1 (R350). -/
  gens : Tbl Nat := []
  holders : Tbl Holder := []
  /-- Lowest free count and requests moved up since the last POOL_QUERY of tenant 0 (R357). -/
  lowest : Nat
  movedUp : Nat := 0
  /-- The class is being rebuilt to this count (R348). -/
  rebuild : Option Nat := none
  deriving DecidableEq, Repr

/-- A spill queue (R338-R346). -/
structure SpillQ where
  /-- Row of Table 12-3, counted from 0. -/
  kind : Nat
  /-- The object that the queue was created for (R341): type × 2^16 + index, or 2^24 + function × 2^14 + ring for a media ring. -/
  owner : Nat := 0
  cap : Nat
  pinned : Bool
  pkt : Bool
  frame : Option Nat
  /-- Entries in order: head (≤ 8), middle, tail (≤ 8). -/
  head : List SqEntry := []
  middle : List SqEntry := []
  tail : List SqEntry := []
  /-- Write and read indexes, and their synchronised copies (R344). -/
  wr : Nat := 0
  rd : Nat := 0
  wrSync : Nat := 0
  rdSync : Nat := 0
  /-- Entries of the packet being written (packet mode, R342). -/
  open_ : Nat := 0
  /-- The consumer has read an SOP and not yet its EOP (R346). -/
  inPkt : Bool := false
  /-- A DISCARD_REST is dropping entries not yet written. -/
  disc : Bool := false
  /-- The entry that the consumer read last. -/
  last : Option SqEntry := none
  /-- Pool buffers that hold the middle in Blotter service, 8 entries in each (R457). -/
  midBufs : List Word := []
  deriving DecidableEq, Repr

/-- Pools and spill queues. -/
structure Mem where
  pools : List Pool := [
    { count := 32768, lowest := 32768 }, { count := 8192, lowest := 8192 }, { count := 24576, lowest := 24576 },
    { count := 786432, lowest := 786432 }, { count := 314572, lowest := 314572 }, { count := 98304, lowest := 98304 }]
  /-- Requests served since reset: the port considered first is this number mod 16 (R353). -/
  cycle : Nat := 0
  /-- Handle that the last buffer request was given; none when it failed (R351). -/
  granted : Option Word := none
  queues : Tbl SpillQ := []
  frameFresh : Nat := 0
  frameFreed : List Nat := []
  /-- Unreserved middle space in 4 KiB granules (Table 12-11). -/
  midFree : Nat := 2097152
  /-- MEM_SQ_SEL. -/
  sqSel : BitVec 16 := 0
  /-- HBM partition in MiB, the eight regions of Table 01-9 in order (R19, R20). -/
  partition : List Nat := [20480, 12288, 8192, 8192, 4096, 2048, 512, 512]
  /-- EV_BAD_FREE posted in this second (R356). -/
  badSec : Nat := 0
  badCount : Nat := 0
  deriving DecidableEq, Repr, Inhabited

/-- One pseudo-channel (R361-R375). -/
structure Pc where
  /-- Refresh debt d. -/
  debt : Nat := 0
  /-- Mitigation generator x; none until seeded at its reset value (R370). -/
  gen : Option Word := none
  failed : Bool := false
  /-- Self-refresh: 0 out, 1-3 entry phases of Table 13-5, 4 in self-refresh. -/
  sr : Nat := 0
  /-- Refreshes issued (model's record of R371). -/
  refreshed : Nat := 0
  /-- Corrections since the last EV_ECC_CORRECTED, and its second (R362). -/
  corrected : Nat := 0
  corrSec : Option Nat := none
  deriving DecidableEq, Repr

/-- A command in the retry buffer (R366, R367); `refresh` also stands for a neighbour refresh and for self-refresh entry and exit, whose second
failure Table 13-3 handles in the same way. -/
inductive HbmCmd where
  | read (addr : Nat)
  | write (addr : Nat) (len : Nat)
  | activate
  | refresh (pc : Nat)
  deriving DecidableEq, Repr

/-- One HBM stack (Table 13-7). -/
structure Stack where
  trained : Bool := false
  trainFail : Bool := false
  trainStep : Nat := 0
  doubled : Bool := false
  poisonFull : Bool := false
  pcFailed : Bool := false
  temp : Byte := 0
  repairCa : BitVec 16 := 0
  repairDq : Word := 0
  maxDebt : Nat := 0
  /-- Poison list: 32-byte units (R368). -/
  poison : List Nat := []
  /-- Retry buffer, oldest first (R366). -/
  retry : List HbmCmd := []
  deriving DecidableEq, Repr

/-- HBM controllers. -/
structure Hbm where
  /-- HBM_REF_CTL.POSTPONE. -/
  postpone : BitVec 4 := 4
  /-- HBM_MIT_CTL.LOG2N. -/
  log2n : BitVec 4 := 9
  seedLo : Word := 1
  seedHi : Word := 0
  stackTbl : Tbl Stack := []
  pcs : Tbl Pc := []
  mem : Memory := []
  /-- Data of the last read, and whether it was poisoned (R362). -/
  lastData : List Byte := []
  lastPoison : Bool := false
  deriving DecidableEq, Repr

/-! ### Orgue (14) -/

/-- One coded picture: its bytes, whether it is a key picture or intra throughout, whether it passed its budget, and what it ran out of: bit 0 rows
at maximum QP, bit 1 zero residual (R249, R250). -/
structure Coded where
  bytes : List Byte
  key : Bool
  intra : Bool
  past : Bool
  flags : Nat
  deriving DecidableEq, Repr

/-- The work of a task (R194, R211, R242, R258). Its inputs are fixed at its log position, and so is its result (R14, R208, R243): what the release adds
is that the result is there for the tasks and packets that wait for it, and its counts (R385; log entry 160). -/
inductive Work where
  | decode (stream : Nat)
  /-- A layout picture with the base that it starts from; the composite whose own it is. -/
  | layout (layout : Nat) (own : Option Nat) (base : BaseEntry)
  | scale (tileset member : Nat)
  /-- A picture of an encode context; the object that counts it, by counter group and handle. -/
  | encode (ctx : Nat) (coded : Coded) (group : Nat) (h : Handle)
  | stitch (stream : Nat)
  deriving DecidableEq, Repr

/-- The work of a task with its picture tick: number, network time and period of the clock, ns; a decode has the picture's RTP timestamp in place of
the number and 0 for the others. -/
structure Job where
  work : Work
  tick : Nat := 0
  due : Nat := 0
  period : Nat := 0
  deriving DecidableEq, Repr

/-- A task slot in flight (Table 14-1). -/
structure Task where
  flags : Word
  mask : Word
  prio : Nat
  kind : TargetKind
  cluster : Nat
  flow : Nat
  ordered : Bool
  seq : Nat
  audio : Bool
  empty : Bool
  dependants : List (Nat × Nat × Nat)
  writes : List (Nat × Nat)
  /-- 0 waiting, 1 ready, 2 running, 3 completed, 4 collected. -/
  stage : Nat
  /-- Its number among all tasks, the numbers of the tasks whose results its one flag waits for, and its work. -/
  num : Nat := 0
  waits : List Nat := []
  job : Option Job := none
  deriving DecidableEq, Repr

/-- A task whose admission stalls (R379, R384). -/
structure Stalled where
  req : TaskReq
  num : Nat
  waits : List Nat
  job : Option Job
  deriving DecidableEq, Repr

/-- An ordered flow (R383, R384). -/
structure Flow where
  nextSeq : Nat := 0
  nextRel : Nat := 0
  inFlight : Nat := 0
  deriving DecidableEq, Repr

/-- The Orgue. -/
structure Orgue where
  tasks : Tbl Task := []
  gens : Tbl Nat := []
  fresh : Nat := 0
  freed : List Nat := []
  /-- Slots held by tasks. -/
  used : Nat := 0
  /-- Slots held by tasks without AUDIO (R379). -/
  plain : Nat := 0
  flows : Tbl Flow := []
  /-- Ready slots in the order in which they became ready (R382). -/
  ready : List Nat := []
  /-- Task that each completer runs. -/
  running : Tbl Nat := []
  /-- Holds of the completers, oldest first (R389). -/
  holds : Tbl (List Nat) := []
  /-- Completers recorded in the window and not yet taken (R390). -/
  window : List Nat := []
  /-- Admissions that stall, oldest first (R379). -/
  stalled : List Stalled := []
  /-- Tasks that have been admitted or stalled so far. -/
  born : Nat := 0
  /-- Object of each assigned flow (R383), and the flows whose object is freed and that have tasks in flight. -/
  owners : Tbl Nat := []
  closing : List Nat := []
  /-- Completers quarantined (Table 16-11). -/
  quarantined : List Nat := []
  deriving DecidableEq, Repr, Inhabited

/-! ### Time Unit (15) -/

/-- A two-step Sync whose residence time is owed to its Follow_Up (R409). -/
structure OwedFollowUp where
  seqId : BitVec 16
  port : Nat
  residence : Nat
  at_ : Nat
  deriving DecidableEq, Repr

/-- The Time Unit. -/
structure Tim where
  /-- Counter c (R393). -/
  c : Nat := 0
  /-- Offset O, 2^-32 ns (R394). -/
  o : Int := 0
  /-- Rate R, 2^-48 (R394). -/
  r : Int := 0
  /-- Slew extra rate S, its correction in 2^-32 ns, the counter at its start (R399). -/
  s : Int := 0
  slew : Option (Int × Nat) := none
  stepped : Bool := false
  /-- TIME_STEP held for the next PPS_IN edge (R398). -/
  heldStep : Option Int := none
  jumpLimit : Nat := 1000
  role : Nat := 0
  domain : Nat := 0
  p2p : Bool := false
  udp : Bool := false
  tc : Bool := false
  as : Bool := false
  logSync : Int := 0
  logAnnounce : Int := 0
  announceTimeout : Nat := 3
  slaveMask : Byte := 0
  tcMask : Byte := 0
  masterMask : Byte := 0
  priority1 : Byte := 0
  priority2 : Byte := 0
  clockClass : Byte := 0
  /-- Ri (R407). -/
  ri : Int := 0
  holdover : Bool := false
  /-- Accepted Syncs in a row with |θ| ≤ 100 ns, up to 3 (R407). -/
  good : Nat := 0
  lastTheta : Word := 0
  /-- Network time of the last EV_TIME_REFUSED, ns (R401). -/
  refusedAt : Option Nat := none
  ppsLost : Bool := false
  refclkLost : Bool := false
  follow : Bool := false
  /-- Network time of the last PPS_IN edge, 2^-16 ns. -/
  lastEdge : Option Nat := none
  /-- Selected master: its Announce data set (priority1, class, accuracy, variance, priority2, identity, steps, port). -/
  master : Option (List Nat) := none
  masterPort : Nat := 0
  lastAnnounce : Nat := 0
  /-- Network time of the last Sync, 2^-16 ns; its sequenceId and receive stamp while its Follow_Up is owed. -/
  lastSync : Option Nat := none
  syncWait : Option (Nat × Nat × Int) := none
  /-- Mean path delay, 2^-16 ns, and by port the pending delay request (sequenceId, transmit stamp). -/
  pathDelay : Int := 0
  delayReq : Tbl (Nat × Nat) := []
  /-- By port a two-step Pdelay_Resp that waits for its Follow_Up: sequenceId, and the round trip less the peer's receive time. -/
  delayWait : Tbl (Nat × Int) := []
  /-- t1 to t2 of the last Sync from the master, for the mean path delay: receive stamp less corrected origin, 2^-16 ns. -/
  syncDelta : Option Int := none
  /-- Sequence numbers of sent messages. -/
  txSeq : BitVec 16 := 0
  followUps : List OwedFollowUp := []
  /-- PPS_OUT: on, active edge of PPS_IN falling, width, phase (R410). -/
  ppsOn : Bool := false
  ppsFalling : Bool := false
  ppsWidth : Nat := 0
  ppsPhase : Nat := 0
  deriving DecidableEq, Repr, Inhabited

/-! ### Twin Complex (16) -/

/-- Twin states of Table 16-1. -/
inductive TwinState where
  | solo
  | active
  | standby
  | syncing
  | withdrawn
  | faultStop
  deriving DecidableEq, Repr

/-- A log entry (Table 16-5, log class). -/
inductive LogEntry where
  | frame (f : RxFrame)
  | stub (n : Nat)
  /-- Kind 0 audio, 1 half, 2 picture; rate; number. -/
  | tick (kind rate n : Nat)
  | command (opcode : Nat) (cmd : Cmd) (status : BitVec 16)
  | estimate (owner : Handle) (target : Nat)
  | inject (tenant ring : Nat) (entry : List Word) (packet : List Byte)
  /-- Device-wide state during resync, and the FLR and failover steps that enter the log (R461). -/
  | state (kind arg : Nat)
  deriving DecidableEq, Repr

/-- A received log entry with its first ordinal, and the link blocks that its application frees (R424, R429). -/
structure RxEntry where
  ord : Nat
  entry : LogEntry
  blocks : Nat
  deriving DecidableEq, Repr

/-- A shadow packet (R433). -/
structure Shadow where
  stream : Nat
  number : Nat
  port : PortNo
  frame : TxFrame
  deriving DecidableEq, Repr

/-- An output digest (R434, R435). -/
structure DigestRec where
  tick : Nat
  object : Nat
  count : Nat
  crc : Word64
  deriving DecidableEq, Repr

/-- The Twin Complex. -/
structure Twin where
  state : TwinState := .withdrawn
  cause : BitVec 4 := 0
  peerState : BitVec 3 := 0
  liveIn : Bool := false
  liveOut : Bool := false
  paired : Bool := false
  pairFail : Bool := false
  link : Bool := false
  resync : Bool := false
  prot : Bool := false
  /-- TWIN_CONFIG: mode 1, flags, pair key (R449). -/
  mode : Bool := false
  autoResync : Bool := false
  degradedOk : Bool := false
  pairKey : Option (List Byte) := none
  /-- TWN_LANES: working lanes and the group used; TWN_LANE_MAP. -/
  working : Byte := 0
  group : Byte := 0
  laneMap : Word := 0
  peerId : Word64 := 0
  /-- The peer's firmware version, as its PAIR message gave it. -/
  peerFw : Word := 0
  /-- Session nonce and sealed messages sent (R425). -/
  nonce : Word := 0
  sealed : Nat := 0
  /-- The peer's nonce, and its sealed messages opened. -/
  peerNonce : Word := 0
  peerSealed : Nat := 0
  /-- Inputs waiting for the log transmitter (R427). -/
  pend : List LogEntry := []
  /-- Last ordinal sent. -/
  ordinal : Nat := 0
  /-- Ports of the frames that are logged and not yet parsed, in log order (R343). -/
  parseOrder : List Nat := []
  /-- Received entries waiting to be applied, and the last applied ordinal (R429). -/
  rxLog : List RxEntry := []
  applied : Nat := 0
  appliedCmd : Nat := 0
  /-- Link layer: last block sent, received in order, NAK owed, credit counts (R422-R424). -/
  txSeq : BitVec 16 := 0
  rxSeq : BitVec 16 := 0
  nak : Bool := false
  credit : BitVec 16 := 0
  peerCredit : BitVec 16 := 0
  logSent : BitVec 16 := 0
  /-- Blocks in the replay buffer, oldest first, at most 1,024 (R423). -/
  replay : List (List Byte) := []
  /-- Log-class blocks received since the last whole entry (R424). -/
  rxBlocks : Nat := 0
  /-- Message bytes of a class not yet parsed: log, control. -/
  rxBytesLog : List Byte := []
  rxBytesCtl : List Byte := []
  /-- Parts of a COMMAND whose MORE flag was set (Table 16-5). -/
  rxCommand : List Byte := []
  /-- FAULT is set in the blocks sent from now on (R438). -/
  faultNote : Bool := false
  hbMissed : Nat := 0
  /-- Confirmed numbers per egress stream, shadow packets (R432, R433). -/
  confirmed : Tbl Nat := []
  shadow : List Shadow := []
  shadowBytes : Nat := 0
  /-- Digests: being formed per object, own and peer's not yet compared (R434, R435). -/
  forming : List DigestRec := []
  ownDigests : List DigestRec := []
  peerDigests : List DigestRec := []
  /-- Intervals whose digests this device, and the peer, has sent and that are not yet compared. -/
  ownTicks : List Nat := []
  peerTicks : List Nat := []
  /-- Last divergence: object and tick (Table 16-15). -/
  divObj : Handle := 0
  divTick : Word := 0
  /-- Network s of the last automatic resync (R436). -/
  autoAt : Option Nat := none
  /-- An automatic resync is owed. -/
  autoDue : Bool := false
  /-- Resync: objects synced, to sync, start ms, duration, pending reply owed on the link. -/
  synced : Nat := 0
  toSync : Nat := 0
  syncStart : Nat := 0
  duration : Nat := 0
  /-- Item of Table 16-9 that failed in the last check, 0 none, and whether the peer has yet to make its check. -/
  checkItem : Nat := 0
  asking : Bool := false
  /-- RESYNC bytes received, conferences and trunks that are still to be synced, and log entries buffered for them (R444). -/
  resyncRx : List Byte := []
  todoObjs : List Handle := []
  buffered : List (Handle × RxEntry) := []
  /-- Objects whose state has been received and whose buffered log has not been replayed (R444). -/
  readyObjs : List Handle := []
  /-- Tenants whose protection was turned on and whose objects are not yet synced (R445). -/
  unsynced : List Nat := []
  /-- A planned switchover is requested for the next audio tick (R442). -/
  switchReq : Bool := false
  /-- A logged command is being applied, whose output buffer is not this device's host's (R429; the model's own field). -/
  applying : Bool := false
  /-- Inputs are logged for the peer (R424, R427). -/
  logging : Bool := false
  /-- TIME exchange: sequence, own last send, peer's stamps (R430). -/
  timeSeq : Word := 0
  timeSent : Nat := 0
  timePeer : Nat := 0
  timeRx : Nat := 0
  firstTime : Bool := true
  deriving DecidableEq, Repr

/-! ### Monitor Unit, pins and boot (17, 18) -/

/-- An image slot as the model keeps it (R453, R473). -/
structure FlashSlot where
  valid : Bool := false
  version : Word := 0
  counter : BitVec 16 := 0
  deriving DecidableEq, Repr

/-- The Monitor Unit, fuses, boot flash and pins. -/
structure Mon where
  resetCause : BitVec 10 := 1
  bootStage : BitVec 4 := 0
  slotB : Bool := false
  fallback : Bool := false
  staged : Bool := false
  flashA : FlashSlot := {}
  flashB : FlashSlot := {}
  /-- Slot marked active for the next boot: true B (R453). -/
  activeB : Bool := false
  /-- Fuses: anti-rollback counter, DEBUG_LOCK, device ID, MAC address base. -/
  rollback : BitVec 16 := 0
  debugLock : Bool := false
  fusedId : Word64 := 0
  macBase : BitVec 48 := 0
  opLock : Bool := false
  quiesceEn : Bool := false
  quiesce : Bool := false
  throttle : BitVec 2 := 0
  throttleSensor : BitVec 5 := 0
  tempWarn : Nat := 95
  vmonAlarm : BitVec 16 := 0
  /-- Sensors 0-27 in 0.25 °C, monitors in mV, oscillator counts (DESIGN CHOICE 0, log entry 12). -/
  temps : List Int := []
  volts : List Nat := []
  procs : List Nat := []
  /-- Sensors whose warning is not armed (R469). -/
  warned : List Nat := []
  /-- Pins: THERM_TRIP_N low, RESET_N, PWR_GOOD, PERST_N, TEST_MODE, TWIN_ROLE, TREF_SEL, SMB_ADDR. -/
  thermTrip : Bool := false
  resetN : Bool := false
  pwrGood : Bool := true
  perstN : Bool := true
  testMode : Bool := false
  twinRole : Bool := true
  trefSel : Bool := false
  smbStraps : BitVec 2 := 0
  smbAddr : BitVec 7 := 0x4C
  /-- REFCLK_SYS, ETH_REFCLK present. -/
  refclkSys : Bool := true
  ethRefclk : Bool := true
  /-- The device is held in reset (RESET_N low, trip). -/
  inReset : Bool := true
  /-- What the Time Unit's counter had reached since the release of the reset when SOFT resets cleared it, ns (R452). -/
  sinceNs : Nat := 0
  /-- The SOFT reset of a DEV_RESET that has been answered on this reply ring, before it starts (R459). -/
  softPending : Option Nat := none
  deriving DecidableEq, Repr

/-! ### The device -/

/-- The whole device and the queue of waiting commands. -/
structure State where
  /-- Commands waiting, first in, first out. -/
  pending : List Instr := []
  /-- Draws taken from the free values of Config (the model's own field, log entry 2). -/
  free : Nat := 0
  hst : Hst := {}
  nose : Nose := {}
  obj : Objects := {}
  ports : Tbl Port := []
  phys : Tbl Phys := []
  media : Media := {}
  video : Video := {}
  accord : Accord := {}
  mem : Mem := {}
  hbm : Hbm := {}
  orgue : Orgue := {}
  tim : Tim := {}
  twin : Twin := {}
  mon : Mon := {}
  /-- Every counter of R112 by its counter ID; an unlisted counter is 0. -/
  counters : Tbl Word := []
  /-- The 64-bit object counters of R501 by (group × 2^32 + handle) × 64 + index; unlisted is 0. -/
  objCounters : Tbl Nat := []
  deriving DecidableEq, Repr

/-- Why a step stops. -/
inductive Fault where
  /-- Raised by RESET_N_RELEASE while TEST_MODE is high: "the device does not leave reset, and no rule of this
  manual applies" (R480). Safe: nothing is claimed of the device in that mode. -/
  | testMode
  deriving DecidableEq, Repr

/-- Why a command has no meaning. -/
inductive Refusal where
  /-- Raised by a Dispatch arm without a meaning. Safe: nothing is claimed of the command. -/
  | notModelled (mnemonic : String)
  deriving DecidableEq, Repr

/-- Tenant 0, which exists from reset with the limits of Table 02-4 (R25, Table 02-2). -/
def tenantZero : ObjTbl Tenant := { live := [(0, {})] }

/-- Its 1,024 key slots, the lowest-numbered of the device (R494, Table 02-4). -/
def tenantZeroSlots : ObjTbl KeySlot := { live := (List.range 1024).map fun i => (i, { tenant := 0 }) }

/-- The device right after reset: RESET_N not yet released, the AON domain powered (Table 17-9). -/
def State.reset : State :=
  { obj := { tenants := tenantZero, slots := tenantZeroSlots }, twin := { state := .solo } }

end Sys2Proof.Machine
end

