-- ==== Sys2Proof/Machine/Bits.lean ====
section
/-! DEFINITION. Bit fields, byte order, sign extension, lists and sparse tables: the plain arithmetic that the
meanings share. Nothing here is about the device. -/

namespace Sys2Proof.Machine

/-- f of a number, once the number is known: an evaluation then carries its value along, not the expression that gives it. -/
def onceKnown {α : Type} (n : Nat) (f : Nat → α) : α :=
  match n with
  | 0 => f 0
  | m + 1 => f (m + 1)

@[simp] theorem onceKnown_eq {α : Type} (n : Nat) (f : Nat → α) : onceKnown n f = f n := by
  unfold onceKnown; split <;> rfl

/-! ### Bits of a number -/

/-- Bits [lo + n - 1 : lo] of x. -/
def bits (x lo n : Nat) : Nat := x / 2 ^ lo % 2 ^ n

/-- Bit i of x. -/
def bit (x i : Nat) : Bool := x / 2 ^ i % 2 == 1

/-- x with bits [lo + n - 1 : lo] replaced by v. -/
def setBits (x lo n v : Nat) : Nat := x - bits x lo n * 2 ^ lo + v % 2 ^ n * 2 ^ lo

/-- A flag as a number. -/
def b2n (b : Bool) : Nat := if b then 1 else 0

/-- The two's complement value of the low w bits of x. -/
def sext (w x : Nat) : Int :=
  if x % 2 ^ w < 2 ^ (w - 1) then (x % 2 ^ w : Nat) else (x % 2 ^ w : Nat) - (2 ^ w : Nat)

/-- The low w bits of an integer. -/
def wrapInt (w : Nat) (x : Int) : Nat := (x % (2 ^ w : Nat)).toNat

/-- Number of set bits among the low n bits. -/
def popcount (n x : Nat) : Nat := ((List.range n).filter (bit x)).length

/-- x shifted left or right by one side: division by 2^n rounding half up, toward plus infinity. -/
def rshRound (x : Int) (n : Nat) : Int := if n = 0 then x else (x + 2 ^ (n - 1)) / 2 ^ n

/-- x limited to [lo, hi]. -/
def clampI (lo hi x : Int) : Int := if x < lo then lo else if hi < x then hi else x

/-- x limited to [lo, hi]. -/
def clampN (lo hi x : Nat) : Nat := if x < lo then lo else if hi < x then hi else x

/-- Division rounding half up, for a positive divisor. -/
def divRound (a : Int) (b : Nat) : Int := (2 * a + b) / (2 * b)

/-- Division rounding up. -/
def ceilDiv (a b : Nat) : Nat := (a + b - 1) / b

/-- The integer square root by its bits, from bit n down. -/
def isqrtFrom : Nat → Nat → Nat → Nat
  | 0, _, r => r
  | n + 1, x, r => isqrtFrom n x (if (r + 2 ^ n) * (r + 2 ^ n) ≤ x then r + 2 ^ n else r)

/-- The integer square root of a number below 2^128. -/
def isqrt (x : Nat) : Nat := isqrtFrom 64 x 0

/-- floor(log2 x) for x below 2^n, 0 for 0. -/
def log2Below : Nat → Nat → Nat
  | 0, _ => 0
  | n + 1, x => if 2 ^ (n + 1) ≤ x then n + 1 else log2Below n x

/-! ### Byte order -/

/-- The number that bytes spell, low byte first (R2). -/
def leNat : List Byte → Nat
  | [] => 0
  | b :: r => b.toNat + 256 * leNat r

/-- The number that bytes spell, high byte first (network order). -/
def beNat (bs : List Byte) : Nat := bs.foldl (fun n b => n * 256 + b.toNat) 0

/-- n bytes of x, low byte first. -/
def leBytes : Nat → Nat → List Byte
  | 0, _ => []
  | n + 1, x => BitVec.ofNat 8 x :: leBytes n (x / 256)

/-- n bytes of x, high byte first. -/
def beBytes (n x : Nat) : List Byte := (leBytes n x).reverse

/-- The bytes [off, off + n) of a block, 0 beyond its end. -/
def slice (bs : List Byte) (off n : Nat) : List Byte :=
  let r := (bs.drop off).take n
  r ++ List.replicate (n - r.length) 0

/-- A little-endian number of a block. -/
def leAt (bs : List Byte) (off n : Nat) : Nat := leNat (slice bs off n)

/-- A big-endian number of a block. -/
def beAt (bs : List Byte) (off n : Nat) : Nat := beNat (slice bs off n)

/-- All bytes are 0. -/
def zeros (bs : List Byte) : Bool := bs.all (· == 0)

/-- The block with the bytes at `off` replaced. -/
def patch (bs : List Byte) (off : Nat) (new : List Byte) : List Byte :=
  bs.take off ++ new ++ bs.drop (off + new.length)

/-- Bytewise exclusive or, to the shorter length. -/
def xorBytes (a b : List Byte) : List Byte := List.zipWith (· ^^^ ·) a b

/-! ### Lists -/

/-- The list with the element at i changed. -/
def modAt {α : Type} (l : List α) (i : Nat) (f : α → α) : List α :=
  match l, i with
  | [], _ => []
  | a :: r, 0 => f a :: r
  | a :: r, n + 1 => a :: modAt r n f

/-- The list with the element at i removed. -/
def delAt {α : Type} (l : List α) (i : Nat) : List α := l.take i ++ l.drop (i + 1)

/-- The first elements with their positions. -/
def indexed {α : Type} (l : List α) : List (Nat × α) := (List.range l.length).zip l

/-- The sum of a list. -/
def total (l : List Nat) : Nat := l.foldl (· + ·) 0

/-- The sum of a list of integers. -/
def totalI (l : List Int) : Int := l.foldl (· + ·) 0

/-- Adjacent repeats in order: whether some element stands twice. -/
def hasDup [BEq α] : List α → Bool
  | [] => false
  | a :: r => r.contains a || hasDup r

/-- The last n elements. -/
def lastN {α : Type} (n : Nat) (l : List α) : List α := l.drop (l.length - n)

/-! ### Sparse tables -/

/-- The value at a key. -/
def tget {α : Type} : Tbl α → Nat → Option α
  | [], _ => none
  | (k, v) :: r, n => if n = k then some v else if n < k then none else tget r n

/-- The value at a key, or the table's default. -/
def tgetD {α : Type} (t : Tbl α) (n : Nat) (d : α) : α := (tget t n).getD d

/-- The table with a key's value set. -/
def tput {α : Type} : Tbl α → Nat → α → Tbl α
  | [], n, a => [(n, a)]
  | (k, v) :: r, n, a => if n = k then (k, a) :: r else if n < k then (n, a) :: (k, v) :: r else (k, v) :: tput r n a

/-- The table without a key. -/
def tdel {α : Type} : Tbl α → Nat → Tbl α
  | [], _ => []
  | (k, v) :: r, n => if n = k then tdel r n else (k, v) :: tdel r n

/-- The table with the value at a key changed where it is listed. -/
def tupd {α : Type} : Tbl α → Nat → (α → α) → Tbl α
  | [], _, _ => []
  | (k, v) :: r, n, f => if n = k then (k, f v) :: r else (k, v) :: tupd r n f

/-- The table with the value at a key changed, from the default where it is not listed. -/
def tmod {α : Type} (t : Tbl α) (n : Nat) (d : α) (f : α → α) : Tbl α := tput t n (f (tgetD t n d))

/-- Keys strictly rise from `lo` on. -/
def keysFrom {α : Type} : Nat → Tbl α → Bool
  | _, [] => true
  | lo, (k, _) :: r => decide (lo ≤ k) && keysFrom (k + 1) r

/-- The keys of a table strictly rise. -/
def keysRise {α : Type} (t : Tbl α) : Bool := keysFrom 0 t

/-- The values of a table, mapped. -/
def tmap {α : Type} (t : Tbl α) (f : Nat → α → α) : Tbl α := t.map fun kv => (kv.1, f kv.1 kv.2)

/-- Entries of a table that meet a condition, in rising key order. -/
def tfilter {α : Type} (t : Tbl α) (p : Nat → α → Bool) : Tbl α := t.filter fun kv => p kv.1 kv.2

/-- The number of entries that meet a condition. -/
def tcount {α : Type} (t : Tbl α) (p : Nat → α → Bool) : Nat := (tfilter t p).length

/-- The first entry, in rising key order, that meets a condition. -/
def tfind {α : Type} (t : Tbl α) (p : Nat → α → Bool) : Option (Nat × α) := t.find? fun kv => p kv.1 kv.2

/-! ### Byte memory -/

/-- The byte at an address: 0 where the memory lists nothing (log entry 11). -/
def mread (m : Memory) (a : Nat) : Byte := (tget m a).getD 0

/-- The memory with a byte written, in canonical form. -/
def mwrite (m : Memory) (a : Nat) (b : Byte) : Memory := if b = 0 then tdel m a else tput m a b

/-- The n bytes at an address. -/
def mreadN (m : Memory) (a : Nat) : Nat → List Byte
  | 0 => []
  | n + 1 => mread m a :: mreadN m (a + 1) n

/-- The memory with bytes written at an address upward. -/
def mwriteN (m : Memory) (a : Nat) : List Byte → Memory
  | [] => m
  | b :: r => mwriteN (mwrite m a b) (a + 1) r

/-- The canonical form: addresses strictly rise and no listed byte is 0. -/
def Memory.wf (m : Memory) : Bool := keysRise m && m.all fun c => decide (c.2 ≠ 0)

end Sys2Proof.Machine
end

