-- ==== Sys2Proof/Machine/Flags.lean ====
section
/-! DEFINITION. The arithmetic conditions of the Accord core: saturation, wrapping and narrowing (R319-R321). -/

namespace Sys2Proof.Machine

/-- Clamp to the signed range of w bits (R311). -/
def satTo (w : Nat) (x : Int) : Int := clampI (-(2 ^ (w - 1) : Nat)) ((2 ^ (w - 1) : Nat) - 1) x

/-- A result of a 32-bit destination: saturated, or the low bits under NS (R320). -/
def fit32 (ns : Bool) (x : Int) : Word := if ns then BitVec.ofInt 32 x else BitVec.ofInt 32 (satTo 32 x)

/-- A result of an accumulator: saturated, or the low bits under NS (R320). -/
def fit72 (ns : Bool) (x : Int) : BitVec 72 := if ns then BitVec.ofInt 72 x else BitVec.ofInt 72 (satTo 72 x)

/-- narrow(a, sh) of R321 before the fit: half of the lowest kept weight is added, then an arithmetic shift. -/
def narrow (a : BitVec 72) (sh : Nat) : Int := rshRound a.toInt sh

/-- Leading zero bits of a word (R311, CLZ). -/
def leadingZeros (x : Word) : Nat := 32 - (if x = 0 then 0 else log2Below 31 x.toNat + 1)

end Sys2Proof.Machine
end

