-- ==== Sys2Proof/Machine/AccordWord.lean ====
section
/-! DEFINITION. The instruction words of the Accord core: formats, opcodes, decoding and encoding (R310, R311). -/

namespace Sys2Proof

/-! ### Reserved fields (R310, R311): what Table 11-5 does not use for an instruction must be 0 -/

/-- A format A word of an instruction that uses T and NS as told. -/
def FmtA.plain (f : FmtA) (useT useNs : Bool) : Bool :=
  decide (f.rsv = 0) && (useT || decide (f.t = 0)) && (useNs || !f.ns)

/-- A shift amount in imm[4:0]: the bits above it are not used. -/
def FmtB.shiftOk (f : FmtB) : Bool := decide (f.imm.toNat < 32)

/-- A format D word: reserved bits 0, and P, Q, NS, SH where they are not used. -/
def FmtD.plain (f : FmtD) (useP useQ useNs useSh : Bool) : Bool :=
  !f.rsv && decide (f.rsv2 = 0) && (useP || decide (f.p = 0)) && (useQ || decide (f.q = 0)) && (useNs || !f.ns) && (useSh || decide (f.sh = 0))

namespace Machine

/-- An Accord instruction with its fields: Table 11-5, in the order of the opcodes; `reserved` is a word of opcode 0x00 or 0x31-0x3F. -/
inductive AccOp where
  | add (f : FmtA)
  | sub (f : FmtA)
  | and (f : FmtA)
  | or (f : FmtA)
  | xor (f : FmtA)
  | sll (f : FmtA)
  | srl (f : FmtA)
  | sra (f : FmtA)
  | min (f : FmtA)
  | max (f : FmtA)
  | abs (f : FmtA)
  | slt (f : FmtA)
  | clz (f : FmtA)
  | jr (f : FmtA)
  | aadd (f : FmtA)
  | aswp (f : FmtA)
  | addi (f : FmtB)
  | andi (f : FmtB)
  | ori (f : FmtB)
  | lui (f : FmtB)
  | slli (f : FmtB)
  | srli (f : FmtB)
  | srai (f : FmtB)
  | srar (f : FmtB)
  | lw (f : FmtB)
  | lh (f : FmtB)
  | sw (f : FmtB)
  | sh (f : FmtB)
  | csrr (f : FmtB)
  | csrw (f : FmtB)
  | beqz (f : FmtC)
  | bnez (f : FmtC)
  | bltz (f : FmtC)
  | bgez (f : FmtC)
  | j (f : FmtC)
  | call (f : FmtC)
  | rpt (f : FmtC)
  | wait (f : FmtC)
  | reti (f : FmtC)
  | mac (f : FmtD)
  | msu (f : FmtD)
  | mac2m (f : FmtD)
  | mac4m (f : FmtD)
  | aclr (f : FmtD)
  | rnd (f : FmtD)
  | ard (f : FmtD)
  | awr (f : FmtD)
  | ashr (f : FmtD)
  | reserved (w : Word)
  deriving DecidableEq, Repr

/-- The fields of a word in each format of Table 11-4. -/
def fmtAOf (w : Word) : FmtA :=
  { d := w.extractLsb' 21 5, s := w.extractLsb' 16 5, t := w.extractLsb' 11 5, ns := w.getLsbD 10, rsv := w.extractLsb' 0 10 }
def fmtBOf (w : Word) : FmtB := { d := w.extractLsb' 21 5, s := w.extractLsb' 16 5, imm := w.extractLsb' 0 16 }
def fmtCOf (w : Word) : FmtC := { s := w.extractLsb' 21 5, off := w.extractLsb' 0 21 }
def fmtDOf (w : Word) : FmtD :=
  { a := w.extractLsb' 24 2, p := w.extractLsb' 19 5, q := w.extractLsb' 14 5, ns := w.getLsbD 13, rsv := w.getLsbD 12,
    sh := w.extractLsb' 6 6, rsv2 := w.extractLsb' 0 6 }

/-- The word of an opcode and fields (Table 11-4). -/
def wordA (op : BitVec 6) (f : FmtA) : Word := op ++ f.d ++ f.s ++ f.t ++ BitVec.ofBool f.ns ++ f.rsv
def wordB (op : BitVec 6) (f : FmtB) : Word := op ++ f.d ++ f.s ++ f.imm
def wordC (op : BitVec 6) (f : FmtC) : Word := op ++ f.s ++ f.off
def wordD (op : BitVec 6) (f : FmtD) : Word := op ++ f.a ++ f.p ++ f.q ++ BitVec.ofBool f.ns ++ BitVec.ofBool f.rsv ++ f.sh ++ f.rsv2

/-- The instruction of a word (Table 11-5). -/
def decodeWord (w : Word) : AccOp :=
  let a := fmtAOf w
  let b := fmtBOf w
  let c := fmtCOf w
  let d := fmtDOf w
  match (w.extractLsb' 26 6).toNat with
  | 0x01 => .add a | 0x02 => .sub a | 0x03 => .and a | 0x04 => .or a | 0x05 => .xor a | 0x06 => .sll a
  | 0x07 => .srl a | 0x08 => .sra a | 0x09 => .min a | 0x0A => .max a | 0x0B => .abs a | 0x0C => .slt a
  | 0x0D => .clz a | 0x0E => .jr a | 0x0F => .aadd a | 0x10 => .aswp a
  | 0x11 => .addi b | 0x12 => .andi b | 0x13 => .ori b | 0x14 => .lui b | 0x15 => .slli b | 0x16 => .srli b
  | 0x17 => .srai b | 0x18 => .srar b | 0x19 => .lw b | 0x1A => .lh b | 0x1B => .sw b | 0x1C => .sh b
  | 0x1D => .csrr b | 0x1E => .csrw b
  | 0x1F => .beqz c | 0x20 => .bnez c | 0x21 => .bltz c | 0x22 => .bgez c | 0x23 => .j c | 0x24 => .call c
  | 0x25 => .rpt c | 0x26 => .wait c | 0x27 => .reti c
  | 0x28 => .mac d | 0x29 => .msu d | 0x2A => .mac2m d | 0x2B => .mac4m d | 0x2C => .aclr d | 0x2D => .rnd d
  | 0x2E => .ard d | 0x2F => .awr d | 0x30 => .ashr d
  | _ => .reserved w

/-- The word of an instruction. -/
def encodeWord : AccOp → Word
  | .add f => wordA 0x01 f | .sub f => wordA 0x02 f | .and f => wordA 0x03 f | .or f => wordA 0x04 f
  | .xor f => wordA 0x05 f | .sll f => wordA 0x06 f | .srl f => wordA 0x07 f | .sra f => wordA 0x08 f
  | .min f => wordA 0x09 f | .max f => wordA 0x0A f | .abs f => wordA 0x0B f | .slt f => wordA 0x0C f
  | .clz f => wordA 0x0D f | .jr f => wordA 0x0E f | .aadd f => wordA 0x0F f | .aswp f => wordA 0x10 f
  | .addi f => wordB 0x11 f | .andi f => wordB 0x12 f | .ori f => wordB 0x13 f | .lui f => wordB 0x14 f
  | .slli f => wordB 0x15 f | .srli f => wordB 0x16 f | .srai f => wordB 0x17 f | .srar f => wordB 0x18 f
  | .lw f => wordB 0x19 f | .lh f => wordB 0x1A f | .sw f => wordB 0x1B f | .sh f => wordB 0x1C f
  | .csrr f => wordB 0x1D f | .csrw f => wordB 0x1E f
  | .beqz f => wordC 0x1F f | .bnez f => wordC 0x20 f | .bltz f => wordC 0x21 f | .bgez f => wordC 0x22 f
  | .j f => wordC 0x23 f | .call f => wordC 0x24 f | .rpt f => wordC 0x25 f | .wait f => wordC 0x26 f
  | .reti f => wordC 0x27 f
  | .mac f => wordD 0x28 f | .msu f => wordD 0x29 f | .mac2m f => wordD 0x2A f | .mac4m f => wordD 0x2B f
  | .aclr f => wordD 0x2C f | .rnd f => wordD 0x2D f | .ard f => wordD 0x2E f | .awr f => wordD 0x2F f
  | .ashr f => wordD 0x30 f
  | .reserved w => w

/-- Every reserved field of an Accord instruction is 0 and its part, shift or count is one that Table 11-5 gives (DEDUCED for a shift of
0 and part 3, log entry 31). -/
def AccOp.ok : AccOp → Bool
  | .add f => f.plain true true
  | .sub f => f.plain true true
  | .and f => f.plain true false
  | .or f => f.plain true false
  | .xor f => f.plain true false
  | .sll f => f.plain true true
  | .srl f => f.plain true false
  | .sra f => f.plain true false
  | .min f => f.plain true false
  | .max f => f.plain true false
  | .abs f => f.plain false true
  | .slt f => f.plain true false
  | .clz f => f.plain false false
  | .jr f => f.plain false false && decide (f.d = 0)
  | .aadd f => f.plain true true
  | .aswp f => f.plain true false
  | .addi _ => true
  | .andi _ => true
  | .ori _ => true
  | .lui f => decide (f.s = 0)
  | .slli f => f.shiftOk
  | .srli f => f.shiftOk
  | .srai f => f.shiftOk
  | .srar f => f.shiftOk && decide (f.imm ≠ 0)
  | .lw _ => true
  | .lh _ => true
  | .sw _ => true
  | .sh _ => true
  | .csrr f => decide (f.s = 0) && decide (f.imm.toNat < 4096)
  | .csrw f => decide (f.d = 0) && decide (f.imm.toNat < 4096)
  | .beqz _ => true
  | .bnez _ => true
  | .bltz _ => true
  | .bgez _ => true
  | .j f => decide (f.s = 0)
  | .call f => decide (f.s = 0)
  | .rpt f => decide (f.s = 0) && decide (f.off.toNat < 4096)
  | .wait f => decide (f.s = 0) && decide (f.off = 0)
  | .reti f => decide (f.s = 0) && decide (f.off = 0)
  | .mac f => f.plain true true true false
  | .msu f => f.plain true true true false
  | .mac2m f => f.plain true true true false
  | .mac4m f => f.plain true true true false
  | .aclr f => f.plain false false false false
  | .rnd f => f.plain true false true true
  | .ard f => f.plain true false false true && decide (f.sh.toNat < 3)
  | .awr f => f.plain true false false true && decide (f.sh.toNat < 3)
  | .ashr f => f.plain false false false true && decide (f.sh ≠ 0)
  | .reserved _ => false

/-- Control transfers, RPT and WAIT (Table 11-7). -/
def AccOp.isTransfer : AccOp → Bool
  | .beqz _ | .bnez _ | .bltz _ | .bgez _ | .j _ | .call _ | .jr _ | .reti _ => true
  | _ => false

/-- Loads and atomics, whose value arrives late (Table 11-6). -/
def AccOp.isLoad : AccOp → Bool
  | .lw _ | .lh _ | .aadd _ | .aswp _ => true
  | _ => false

def AccOp.isRpt : AccOp → Bool
  | .rpt _ => true
  | _ => false

def AccOp.isWait : AccOp → Bool
  | .wait _ => true
  | _ => false

def AccOp.isCsrw : AccOp → Bool
  | .csrw _ => true
  | _ => false

/-- Instructions that user code may not hold (Table 11-12, order 2). -/
def AccOp.isSupervisor : AccOp → Bool
  | .csrr _ | .csrw _ | .wait _ | .reti _ => true
  | _ => false

/-- The target of a pc-relative transfer: off words from the address after it, signed (R310). -/
def relTarget (pc : Word) (off : BitVec 21) : Word := pc + 4 + (off.signExtend 32 <<< 2)

end Machine
end Sys2Proof
end

