-- ==== Sys2Proof/Machine/Crypto.lean ====
section
/-! DEFINITION. The ciphers of chapter 5: AES, counter mode, GCM, SHA-1, HMAC and the SRTP key derivation.
The manual names the standards (RFC 3711, RFC 7714); their arithmetic is PRESUMED from them (log entry 19).
Blocks are numbers, the first byte most significant. -/

namespace Sys2Proof.Machine

/-! ### AES (FIPS 197) -/

/-- Doubling in GF(2^8). -/
def gDouble (a : Nat) : Nat := let d := a * 2; if d < 256 then d else d ^^^ 0x11B

/-- Product in GF(2^8), over the n low bits of b. -/
def gMulN : Nat → Nat → Nat → Nat
  | 0, _, _ => 0
  | n + 1, a, b => (if b % 2 = 1 then a else 0) ^^^ gMulN n (gDouble a) (b / 2)

def gMul (a b : Nat) : Nat := gMulN 8 a b

/-- a^254, the inverse of a. -/
def gInv (a : Nat) : Nat :=
  let a2 := gMul a a
  let a4 := gMul a2 a2
  let a8 := gMul a4 a4
  let a16 := gMul a8 a8
  let a32 := gMul a16 a16
  let a64 := gMul a32 a32
  let a128 := gMul a64 a64
  gMul a2 (gMul a4 (gMul a8 (gMul a16 (gMul a32 (gMul a64 a128)))))

/-- A byte rotated left. -/
def rotl8 (a n : Nat) : Nat := (a * 2 ^ n ||| a / 2 ^ (8 - n)) % 256

/-- The S-box. -/
def sbox (a : Nat) : Nat := let i := gInv a; i ^^^ rotl8 i 1 ^^^ rotl8 i 2 ^^^ rotl8 i 3 ^^^ rotl8 i 4 ^^^ 0x63

/-- Four S-boxes over a 32-bit word. -/
def subWord (w : Nat) : Nat :=
  sbox (w / 2 ^ 24 % 256) * 2 ^ 24 + sbox (w / 2 ^ 16 % 256) * 2 ^ 16 + sbox (w / 2 ^ 8 % 256) * 2 ^ 8 + sbox (w % 256)

/-- The next key word: `i` words are held in `ws`, newest first; nk words of key. -/
def nextKeyWord (nk i rcon : Nat) (ws : List Nat) : Nat :=
  let t := ws.getD 0 0
  let t := if i % nk = 0 then subWord ((t * 256 ||| t / 2 ^ 24) % 2 ^ 32) ^^^ rcon * 2 ^ 24
    else if 6 < nk ∧ i % nk = 4 then subWord t else t
  ws.getD (nk - 1) 0 ^^^ t

def expandFrom (nk : Nat) : Nat → Nat → Nat → List Nat → List Nat
  | 0, _, _, ws => ws
  | n + 1, i, rcon, ws =>
    expandFrom nk n (i + 1) (if i % nk = 0 then gDouble rcon else rcon) (nextKeyWord nk i rcon ws :: ws)

/-- The words of a key, first word first. -/
def keyWords (key : List Byte) : List Nat := (List.range (key.length / 4)).map fun i => beAt key (4 * i) 4

/-- The expanded key, first word first. -/
def expandKey (key : List Byte) : List Nat :=
  let nk := key.length / 4
  (expandFrom nk (4 * (nk + 7) - nk) nk 1 (keyWords key).reverse).reverse

def addKey (st ks : List Nat) : List Nat := List.zipWith (· ^^^ ·) st ks

/-- The bytes of round key r. -/
def roundKey (ws : List Nat) (r : Nat) : List Nat :=
  ((ws.drop (4 * r)).take 4).flatMap fun w => [w / 2 ^ 24 % 256, w / 2 ^ 16 % 256, w / 2 ^ 8 % 256, w % 256]

def shiftRows (st : List Nat) : List Nat :=
  (List.range 16).map fun i => st.getD ((i + 4 * (i % 4)) % 16) 0

def mixColumn (a b c d : Nat) : List Nat :=
  let f := fun w x y z => gDouble w ^^^ gDouble x ^^^ x ^^^ y ^^^ z
  [f a b c d, f b c d a, f c d a b, f d a b c]

def mixColumns (st : List Nat) : List Nat :=
  [0, 4, 8, 12].flatMap fun i => mixColumn (st.getD i 0) (st.getD (i + 1) 0) (st.getD (i + 2) 0) (st.getD (i + 3) 0)

def aesRounds (ws : List Nat) (last : Nat) : Nat → List Nat → List Nat
  | 0, st => st
  | n + 1, st =>
    let r := last - n
    let t := shiftRows (st.map sbox)
    aesRounds ws last n (addKey (if n = 0 then t else mixColumns t) (roundKey ws r))

/-- One AES block under a 16- or 32-byte key. -/
def aes (key block : List Byte) : List Byte :=
  let ws := expandKey key
  let rounds := key.length / 4 + 6
  (aesRounds ws rounds rounds (addKey (block.map (·.toNat)) (roundKey ws 0))).map (BitVec.ofNat 8)

/-- n blocks of key stream from a 16-byte counter block, its low 32 bits (GCM) or 16 bits (AES-CM) counting. -/
def keyStream (key : List Byte) (width : Nat) : Nat → List Byte → List Byte
  | 0, _ => []
  | n + 1, ctr =>
    let k := width / 8
    let next := ctr.take (16 - k) ++ beBytes k ((beNat (ctr.drop (16 - k)) + 1) % 2 ^ width)
    aes key ctr ++ keyStream key width n next

/-- Counter mode. -/
def aesCtr (key : List Byte) (width : Nat) (ctr data : List Byte) : List Byte :=
  xorBytes data (keyStream key width (ceilDiv data.length 16) ctr)

/-! ### GCM (NIST SP 800-38D) -/

/-- One bit of the product in GF(2^128): z, v and the remaining bits of x, high first. -/
def ghashMulN : Nat → Nat → Nat → Nat → Nat
  | 0, _, _, z => z
  | n + 1, x, v, z =>
    ghashMulN n x (if v % 2 = 1 then v / 2 ^^^ 0xE1 * 2 ^ 120 else v / 2) (if bit x n then z ^^^ v else z)

def ghashMul (x h : Nat) : Nat := ghashMulN 128 x h 0

/-- GHASH over whole blocks. -/
def ghash (h : Nat) : Nat → List Byte → Nat → Nat
  | 0, _, y => y
  | n + 1, bs, y => ghash h n (bs.drop 16) (ghashMul (y ^^^ beNat (slice bs 0 16)) h)

/-- Bytes padded with zeros to whole blocks. -/
def pad16 (bs : List Byte) : List Byte := slice bs 0 (ceilDiv bs.length 16 * 16)

/-- The GCM tag of a ciphertext. -/
def gcmTag (key iv aad cipher : List Byte) : List Byte :=
  let h := beNat (aes key (List.replicate 16 0))
  let data := pad16 aad ++ pad16 cipher ++ beBytes 8 (aad.length * 8) ++ beBytes 8 (cipher.length * 8)
  xorBytes (aes key (iv ++ [0, 0, 0, 1])) (beBytes 16 (ghash h (data.length / 16) data 0))

/-- GCM encryption: ciphertext and tag. -/
def gcmSeal (key iv aad plain : List Byte) : List Byte :=
  let c := aesCtr key 32 (iv ++ [0, 0, 0, 2]) plain
  c ++ gcmTag key iv aad c

/-- GCM decryption of a ciphertext with its 16-byte tag; none when the tag does not match. -/
def gcmOpen (key iv aad data : List Byte) : Option (List Byte) :=
  let c := data.take (data.length - 16)
  if 16 ≤ data.length ∧ gcmTag key iv aad c = data.drop (data.length - 16)
  then some (aesCtr key 32 (iv ++ [0, 0, 0, 2]) c) else none

/-! ### SHA-1 and HMAC (FIPS 180-4, RFC 2104) -/

def rotl32 (x n : Nat) : Nat := (x * 2 ^ n ||| x / 2 ^ (32 - n)) % 2 ^ 32

/-- The message schedule, newest word first. -/
def shaExpand : Nat → List Nat → List Nat
  | 0, ws => ws
  | n + 1, ws => shaExpand n (rotl32 (ws.getD 2 0 ^^^ ws.getD 7 0 ^^^ ws.getD 13 0 ^^^ ws.getD 15 0) 1 :: ws)

/-- f and K of round t. -/
def shaF (t b c d : Nat) : Nat × Nat :=
  if t < 20 then (b &&& c ||| (2 ^ 32 - 1 - b) &&& d, 0x5A827999)
  else if t < 40 then (b ^^^ c ^^^ d, 0x6ED9EBA1)
  else if t < 60 then (b &&& c ||| b &&& d ||| c &&& d, 0x8F1BBCDC)
  else (b ^^^ c ^^^ d, 0xCA62C1D6)

def shaRounds : List (Nat × Nat) → List Nat → List Nat
  | (t, w) :: r, [a, b, c, d, e] =>
    let (f, k) := shaF t b c d
    shaRounds r [(rotl32 a 5 + f + e + k + w) % 2 ^ 32, a, rotl32 b 30, c, d]
  | _, h => h

def shaBlocks : Nat → List Byte → List Nat → List Nat
  | 0, _, h => h
  | n + 1, bs, h =>
    let w0 := (List.range 16).map fun i => beAt bs (4 * i) 4
    let ws := (shaExpand 64 w0.reverse).reverse
    shaBlocks n (bs.drop 64) (List.zipWith (fun a b => (a + b) % 2 ^ 32) h (shaRounds (indexed ws) h))

/-- SHA-1. -/
def sha1 (m : List Byte) : List Byte :=
  let k := (119 - m.length % 64) % 64
  let p := m ++ [0x80] ++ List.replicate k 0 ++ beBytes 8 (m.length * 8)
  (shaBlocks (p.length / 64) p [0x67452301, 0xEFCDAB89, 0x98BADCFE, 0x10325476, 0xC3D2E1F0]).flatMap (beBytes 4)

/-- HMAC-SHA1 with a key of at most 64 bytes. -/
def hmac (key m : List Byte) : List Byte :=
  let k := slice key 0 64
  sha1 (k.map (· ^^^ 0x5C) ++ sha1 (k.map (· ^^^ 0x36) ++ m))

/-! ### SRTP key derivation (RFC 3711, 4.3; RFC 7714, 11) -/

/-- n bytes derived from a master key and a 14-byte master salt under a label, at key derivation rate 0. -/
def kdf (master salt : List Byte) (label : Byte) (n : Nat) : List Byte :=
  let x := (salt.take 7) ++ [salt.getD 7 0 ^^^ label] ++ (salt.drop 8).take 6
  (keyStream master 16 (ceilDiv n 16) (x ++ [0, 0])).take n

/-! ### Check sums -/

/-- Bits of a reflected CRC of one byte. -/
def crcStep (poly : Nat) : Nat → Nat → Nat
  | 0, c => c
  | n + 1, c => crcStep poly n (if c % 2 = 1 then c / 2 ^^^ poly else c / 2)

/-- A reflected CRC over bytes, from a register value. -/
def crcRef (poly : Nat) : Nat → List Byte → Nat
  | c, [] => c
  | c, b :: r => onceKnown (crcStep poly 8 (c ^^^ b.toNat)) fun d => crcRef poly d r

/-- CRC-32 of IEEE 802.3, as its four bytes are sent. -/
def crc32 (bs : List Byte) : Nat := crcRef 0xEDB88320 0xFFFFFFFF bs ^^^ 0xFFFFFFFF

end Sys2Proof.Machine
end

