-- ==== Sys2Proof/Config.lean ====
section
/-! DEFINITION. What the manual leaves to the implementation or does not state: opaque constants
without a body, so that nothing in Lean can evaluate them or prove a value of them.
Each is named in the assumption log (notes/assumptions). -/

namespace Sys2Proof

/-! ### What a codec's syntax says of a picture (log entry 6) -/

/-- The profiles of Table 07-1, and any other. -/
inductive CodecProfile where
  | h264Baseline
  | h264Main
  | h264High
  | hevcMain
  | hevcMain10
  | vp9P0
  | vp9P2
  | av1Main
  | vvcMain10
  | other
  deriving DecidableEq, Repr, Inhabited

/-- A layer of a picture that was received whole: its spatial layer identifier, its coded size, and its size after conformance cropping. -/
structure PicLayer where
  spatial : Nat
  w : Nat
  h : Nat
  outW : Nat
  outH : Nat
  deriving DecidableEq, Repr, Inhabited

/-- Kinds of picture that R201 tells apart. -/
inductive PicKind where
  | ordinary
  /-- An H.264, HEVC or VVC IDR picture, or a VP9 or AV1 key frame: a key picture that starts a sequence. -/
  | idr
  /-- Another HEVC or VVC IRAP picture: a key picture that starts a sequence only where decoding starts at it. -/
  | cra
  /-- A leading picture that cannot be decoded where decoding starts at its CRA. -/
  | rasl
  /-- An intra-only picture that refreshes every slot. -/
  | intraAll
  deriving DecidableEq, Repr, Inhabited

/-- A reference that a picture names: the slot that holds it (VP9, AV1), and its output order. -/
structure RefName where
  slot : Nat
  order : Nat
  deriving DecidableEq, Repr, Inhabited

/-- Memory management control operations of H.264, with pictures by output order. -/
inductive Mmco where
  | unmark (order : Nat)
  | unmarkLong (index : Nat)
  | makeLong (order index : Nat)
  | longLimit (indexes : Nat)
  | unmarkAll
  | selfLong (index : Nat)
  deriving DecidableEq, Repr, Inhabited

/-- How a picture marks references (R200). -/
inductive Marking where
  /-- It is no reference and changes none. -/
  | none
  /-- H.264 sliding window over at most so many references. -/
  | sliding (most : Nat)
  /-- H.264 memory management control operations. -/
  | control (ops : List Mmco)
  /-- HEVC reference picture set, VVC reference picture lists: the orders that stay short-term and long-term. -/
  | sets (short long : List Nat)
  /-- VP9 and AV1: the slots that the picture refreshes. -/
  | slots (refreshed : List Nat)
  deriving DecidableEq, Repr, Inhabited

/-- What the headers of a coded picture say. -/
structure PicInfo where
  /-- Parses and decodes without a bitstream error (R199). -/
  valid : Bool
  profile : CodecProfile
  /-- Level in tenths: 52 is 5.2. -/
  level : Nat
  /-- Bit depth, and chroma format: 0 monochrome, 1 4:2:0, more for the others. -/
  depth : Nat
  chroma : Nat
  /-- Reference pictures that the sequence's headers require (R191). -/
  refsRequired : Nat
  /-- Layers received whole, lowest first. -/
  layers : List PicLayer
  kind : PicKind
  /-- Output order within its sequence: picture order count, order hint, or decode order in VP9. -/
  order : Nat
  refs : List RefName
  marking : Marking
  /-- The pictures that the standard's output process puts out with this decoding, by order (R206). -/
  outputs : List Nat
  /-- A recovery point SEI or a GDR picture: output order, in H.264 frame_num, of its recovery point picture (R201). -/
  recovery : Option Nat
  /-- H.264 frame_num, its modulus, and whether gaps are allowed (R202). -/
  frameNum : Nat
  maxFrameNum : Nat
  gapsAllowed : Bool
  /-- Slots that the lost pictures before this one would have refreshed, where a descriptor carries them (R202). -/
  lostSlots : Option (List Nat)
  /-- A spatial switch-up point (Table 06-4). -/
  switchUp : Bool
  deriving DecidableEq, Repr, Inhabited

end Sys2Proof

namespace Sys2Proof.Config

/-- A fresh free value, by the counter `State.free` (log entry 2). -/
opaque freeNat : Nat → Nat

/-- The words of fixed table `t` of Table 10-2 at index `i` (R275): the manual gives their number, format
and, for some, a formula without a rounding rule (log entry 3). -/
opaque fixedTable (t i : Nat) : Word

/-- What one step of an audio decoder results in, as one number: codec and channels, the result before it, and the coded frame (R273: the codecs'
arithmetic stands in texts the manual only names; log entry 4). -/
opaque decodeAudio : Nat → Nat → List Byte → Nat

/-- What the concealment of missing samples results in: codec and channels, the result before it, and the next packet where it has arrived (R278,
log entry 4). -/
opaque concealAudio : Nat → Nat → List Byte → Nat

/-- One linear sample of a step's result: 16 bits, or 17 bits of L + R for a stereo Opus stream (R273, log entry 4). -/
opaque audioSample (token i : Nat) : BitVec 17

/-- What the coding of an audio frame results in: codec, channels, bitrate and flags, the result before it, and the linear samples (R273, R279,
log entry 4); the number of its bytes, and its bytes. -/
opaque encodeAudio : List Nat → Nat → List Int → Nat
opaque audioSize (token : Nat) : Nat
opaque audioByte (token i : Nat) : Byte

/-- What one frame of the voice isolation network results in: the result before it and the input samples (R283, log entry 5); its output. -/
opaque isolateToken : Nat → List Int → Nat
opaque isolatedSample (token i : Nat) : Word

/-- The syntax of a coded picture: codec, coded bytes, payload descriptors and header extensions, and the result of the context's previous picture (R185, log entry 6). -/
opaque pictureSyntax : Nat → List Byte → List Byte → Nat → PicInfo

/-- What a picture's decoding results in, as one number: codec, coded bytes, the results of its reference pictures, and the result of the context's
previous picture (R185, log entry 6). -/
opaque decodeToken : Nat → List Byte → List Nat → Nat → Nat

/-- One sample of a decoded picture: the result of its decoding, plane (0 Y, 1 Cb, 2 Cr), x, y (R185, log entry 6). -/
opaque pictureSample (token plane x y : Nat) : Nat

/-- What the coding of a picture results in, as one number: the settings, the source samples and the result of the context's previous picture (R240,
R242: a function of the source pictures, the saved context and the logged rates; log entry 7). -/
opaque encodeToken : List Nat → List Nat → Nat → Nat

/-- The bytes that a coded picture has before its hard cap, and its bytes (log entry 7). -/
opaque codedSize (token : Nat) : Nat
opaque codedByte (token i : Nat) : Byte

/-- Whether a coded picture has rows at maximum QP (bit 0) and whether it was forced to zero residual (bit 1) (R250, log entry 7). -/
opaque codedFlags (token : Nat) : Nat

/-- The NAL units or OBUs of the parameter sets that a composite sends in band, from its settings (R251, R258, Table 09-7; log entry 7). -/
opaque paramSets : List Nat → List (List Byte)

/-- The picture header of a stitched VVC picture, from its settings (Table 09-7; log entry 7). -/
opaque pictureHead : List Nat → List Byte

/-- The length of a tile slice's header, and the header as the stitcher rewrites it: settings and the old header (Table 09-7; log entry 7). -/
opaque sliceHeadLen : List Byte → Nat
opaque stitchHeader : List Nat → List Byte → List Byte

/-- A fill tile's slice, from its settings (R259, log entry 7). -/
opaque fillSlice : List Nat → List Byte

/-- Whether a Degozar signature over these bytes verifies (R82 order 8, R453, R476; log entry 8). -/
opaque signatureOk : List Byte → Bool

/-- The capability bits that DEV_QUERY answers (R85; log entry 65). -/
opaque capabilities : Word

/-- A word of the NOS window, whose registers the manual names without offsets or fields (Table 03-3; log entry 76): offset, firmware version, boot
stage, and whether a Nose core restarts. -/
opaque nosWord : Nat → Word → Nat → Nat → Word

/-- What the layout of a firmware image and of a debug authorisation, which the manual does not give, holds: the version that an image carries, and the
device that an authorisation names (R453, R473, R476; log entry 66). -/
opaque imageVersion : List Byte → Word
opaque authorisedId : List Byte → Word64

/-- One byte of a query output whose layout the manual does not give (R85: TENANT_QUERY, CONF_QUERY, LEG_QUERY,
PARTITION_QUERY, STATUS_READ blocks; log entry 10). -/
opaque queryByte (opcode object i : Nat) : Byte

/-- How many bytes such a query output has, within what the length field of its command can give (log entry 10). -/
opaque querySize (opcode : Nat) : Word

/-- Fields of the Ethernet and IP headers of transmitted packets that the manual does not give (log entry 24): 0 DSCP, 1 identification,
2 flags and fragment offset, 3 time to live or hop limit, 4 flow label. -/
opaque ipField : Nat → BitVec 20

/-- The destination MAC address of a packet to a remote address (log entry 24). -/
opaque nextHop : List Byte → BitVec 48

/-- The meter of a trunk, whose parameters no command carries (R178; log entry 27): 0 algorithm, 1 CIR, 2 CBS, 3 PIR, 4 PBS. -/
opaque trunkMeter : Nat → Nat

/-- Fields of the PTP messages the device sends that the manual does not give (log entry 38): 0 clockAccuracy, 1 offsetScaledLogVariance,
2 timeSource, 3 currentUtcOffset, 4 the IPv4 source address. -/
opaque ptpField : Nat → BitVec 32

/-- What the RTP payload format of a codec says of a packet (log entry 40): spatial layer identifier, temporal layer, and flags: bit 0 first packet
of a picture, 1 key picture, 2 temporal switch point, 3 spatial switch-up point, 4 last packet of a picture. -/
opaque packetLayer : Nat → List Byte → Nat × Nat × Nat

/-- The bytes by which the original header block of RFC 8723 records an original SSRC: the block has no field for one (R129, log entry 152). -/
opaque ohbSsrc : Word → List Byte

/-- The identifier of the transport-wide sequence header extension, which no command carries (R154, log entry 41). -/
opaque twccId : BitVec 4

/-- Where the code of custom node `node` of an image stands: byte offset and length within the image's code bytes (R330; log entry 34). -/
opaque nodeCode : List Byte → Nat → Nat × Nat

/-- The Accord core, 0-127, that runs the sections of a conference (R297; log entry 33). -/
opaque confCore : Nat → Nat

/-- The tone and cadence tables of an image, whose format the manual does not give (Table 10-7, Table 10-8; log entry 9): the components of a tone
in 0.1 Hz; on and off parts of a cadence in ms, and whether it repeats. -/
opaque imageTone : List Byte → Nat → Option (List Nat)
opaque imageCadence : List Byte → Nat → Option (List Nat × Bool)

/-- The Accord Cluster that an audio stream is placed on (R297, R300, R307; log entry 33): 2i for inbound stream i, 2i + 1 for outbound stream i. -/
opaque audioCluster : Nat → BitVec 3

end Sys2Proof.Config
end

