-- ==== Sys2Proof/Machine/Codes.lean ====
section
/-! DEFINITION. The numbers the manual gives names to: status codes (Table 03-15), event codes (Table 03-16),
object types (Table 02-2), counter identifiers. -/

namespace Sys2Proof.Machine

/-- A status code of Table 03-15. -/
abbrev Status := BitVec 16

def stOk : Status := 0x0000
def stAdjusted : Status := 0x0001
def stNoop : Status := 0x0002
def stStaged : Status := 0x0003
def stFormat : Status := 0x8000
def stOpcode : Status := 0x8001
def stHandle : Status := 0x8002
def stStale : Status := 0x8003
def stNotOwner : Status := 0x8004
def stNoResource : Status := 0x8005
def stLength : Status := 0x8006
def stZero : Status := 0x8007
def stState : Status := 0x8008
def stBusy : Status := 0x8009
def stKeyEmpty : Status := 0x800A
def stKeyExhausted : Status := 0x800B
def stAuthFail : Status := 0x800C
def stReplay : Status := 0x800D
def stFenceTimeout : Status := 0x800E
def stTimeRefused : Status := 0x800F
def stDiverged : Status := 0x8010
def stRange : Status := 0x8011
def stDmaFault : Status := 0x8012
def stSignature : Status := 0x8013
def stLocked : Status := 0x8014
def stNotReady : Status := 0x8015
def stCancelled : Status := 0x8016
def stInternal : Status := 0x8017

/-- Codes 0x0000-0x00FF mean that the command took effect (R86). -/
def tookEffect (s : Status) : Bool := decide (s.toNat < 0x100)

/-! ### Event codes (Table 03-16) -/

def evRingError : Nat := 0x0101
def evEventLost : Nat := 0x0102
def evLinkUp : Nat := 0x0103
def evLinkDown : Nat := 0x0104
def evCounterHalf : Nat := 0x0105
def evThermalWarn : Nat := 0x0106
def evThrottle : Nat := 0x0107
def evFullService : Nat := 0x0108
def evWatchdog : Nat := 0x0109
def evQuarantined : Nat := 0x010A
def evPrecedence : Nat := 0x010B
def evDmaStarved : Nat := 0x010C
def evInjectError : Nat := 0x010D
def evFlrDone : Nat := 0x0201
def evConfClosed : Nat := 0x0301
def evLegFreed : Nat := 0x0401
def evKeyHalf : Nat := 0x0601
def evKeyExhausted : Nat := 0x0602
def evKeyErased : Nat := 0x0603
def evGraphSwapped : Nat := 0x0701
def evFenceTimeout : Nat := 0x0801
def evTimeRefused : Nat := 0x0A01
def evTimeRefclkLost : Nat := 0x0A02
def evPpsLost : Nat := 0x0A03
def evTwinDiverged : Nat := 0x0B01
def evFailover : Nat := 0x0B02
def evTwinProtected : Nat := 0x0B03
def evTwinLinkDown : Nat := 0x0B04
def evBadFree : Nat := 0x0D01
def evEccCorrected : Nat := 0x0D02
def evEccUncorrectable : Nat := 0x0D03
def evTrunkDown : Nat := 0x0E01
def evTrunkUp : Nat := 0x0E02

/-- The events whose subject is a tenant object or a media outcome of the log (R502). EV_PRECEDENCE and
EV_KEY_ERASED depend on their cause and are withheld where they are raised. -/
def subjectEvent (code : Nat) : Bool :=
  [evConfClosed, evLegFreed, evKeyHalf, evKeyExhausted, evGraphSwapped, evFenceTimeout, evTrunkDown, evTrunkUp,
   evInjectError].contains code

/-! ### Object types (Table 02-2) -/

def tyTenant : Nat := 0x1
def tyConf : Nat := 0x2
def tyLeg : Nat := 0x3
def tyIn : Nat := 0x4
def tyOut : Nat := 0x5
def tyLayout : Nat := 0x6
def tyMix : Nat := 0x7
def tyTileset : Nat := 0x8
def tySlot : Nat := 0x9
def tyTrunk : Nat := 0xA
def tyImage : Nat := 0xB

/-- The size of each type's device-wide table; 0 for an invalid type (Table 02-2). -/
def tableSize : Nat → Nat
  | 0x1 => 64
  | 0x2 => 2048
  | 0x3 => 8192
  | 0x4 => 65536
  | 0x5 => 32768
  | 0x6 => 8192
  | 0x7 => 8192
  | 0x8 => 1024
  | 0x9 => 65536
  | 0xA => 512
  | 0xB => 256
  | _ => 0

/-! ### Fields of a handle (Table 02-1) -/

def hTenant (h : Handle) : Nat := bits h.toNat 26 6
def hType (h : Handle) : Nat := bits h.toNat 22 4
def hIndex (h : Handle) : Nat := bits h.toNat 6 16
def hGen (h : Handle) : Nat := bits h.toNat 0 6

/-- The handle of Table 02-1. -/
def mkHandle (tenant ty idx gen : Nat) : Handle :=
  BitVec.ofNat 32 (tenant % 64 * 2 ^ 26 + ty % 16 * 2 ^ 22 + idx % 65536 * 64 + gen % 64)

/-! ### Counter identifiers -/

/-- A port counter (R112). -/
def portCtr (p off : Nat) : Nat := 0x02000000 + p * 0x10000 + off
/-- A Sillage tenant page counter (R183). -/
def slgCtr (t off : Nat) : Nat := 0x09000000 + t * 0x10000 + off
/-- A Video Cluster counter (R210, R239, R270). -/
def vidCtr (n off : Nat) : Nat := 0x05000000 + n * 0x10000 + off
/-- An Accord Cluster counter (R307, R335). -/
def accCtr (n off : Nat) : Nat := 0x07000000 + n * 0x10000 + off
/-- A Twin Complex counter (R451). -/
def twnCtr (off : Nat) : Nat := 0x0B000000 + off
/-- An Orgue counter (R392). -/
def orgCtr (off : Nat) : Nat := 0x0C800000 + off
/-- A memory counter (R359). -/
def memCtr (off : Nat) : Nat := 0x0D000000 + off
/-- A counter of an HBM stack (R377). -/
def hbmCtr (stack off : Nat) : Nat := 0x0D800000 + stack * 0x10000 + off
/-- An Attar tenant page counter (R120). -/
def atrCtr (t off : Nat) : Nat := 0x06000000 + t * 0x10000 + off
/-- A Monitor Unit counter (R478). -/
def monCtr (off : Nat) : Nat := 0x01000000 + off
/-- A Time Unit counter (R415). -/
def timCtr (off : Nat) : Nat := 0x0A000000 + off

end Sys2Proof.Machine
end

