-- ==== Sys2Proof/Machine/Ops.lean ====
section
/-! DEFINITION. The named operations over the state that every family shares: free values, network time, rings,
vectors, events, counters, object tables, handle checks, and the outcome of a command. -/

namespace Sys2Proof.Machine

/-! ### The outcome of a command -/

/-- The outcome of what the AON domain takes, which works in reset too: the new state, with the queue as the step left it. No command
touches the queue. -/
def doneAon (s t : State) : Host.Outcome State Fault Refusal := .next { t with pending := s.pending }

/-- A command's outcome: the new state; a device that is held in reset takes nothing (R458). -/
def done (s t : State) : Host.Outcome State Fault Refusal := doneAon s (if s.mon.inReset then s else t)

/-! ### Free values (log entry 2) -/

/-- The next free value, and the state that has drawn it. -/
def drawFree (s : State) : Nat × State := (Config.freeNat s.free, { s with free := s.free + 1 })

/-! ### Network time (R393-R396) -/

/-- Network time in 2^-32 ns at the counter value c (R394); S of R399 is part of the rate. -/
def timeAt (t : Tim) (c : Nat) : Int := t.o + (c : Int) * 2 ^ 32 + ((c : Int) * (t.r + t.s)) / 2 ^ 16

/-- Network time now, in 2^-32 ns. -/
def now32 (s : State) : Int := timeAt s.tim s.tim.c

/-- Network time in whole nanoseconds, the upper 64 bits (R394). -/
def nowNs (s : State) : Nat := wrapInt 64 (now32 s / 2 ^ 32)

/-- The fraction, 2^-32 ns. -/
def nowFrac (s : State) : Nat := wrapInt 32 (now32 s)

/-- Network time in 2^-16 ns, the unit of a time-stamp (R403). -/
def nowStamp (s : State) : Nat := wrapInt 80 (now32 s / 2 ^ 16)

/-- Network time in ms. -/
def nowMs (s : State) : Nat := nowNs s / 1000000

/-- Network time in s. -/
def nowSec (s : State) : Nat := nowNs s / 1000000000

/-! ### QUIESCE (R374, R464) -/

/-- Every pseudo-channel out of self-refresh or of its entry; one that was in it owes no refresh (R374). -/
def Hbm.roused (h : Hbm) : Hbm := { h with pcs := tmap h.pcs fun _ c => { c with sr := 0, debt := if 3 ≤ c.sr then 0 else c.debt } }

/-- The device leaves QUIESCE, in which alone the HBM is in self-refresh. -/
def leaveQuiesce (s : State) : State := { s with mon := { s.mon with quiesce := false }, hbm := s.hbm.roused }

/-! ### Roles of the device -/

/-- The device follows ACTIVE's log (R83, R502). -/
def followsLog (s : State) : Bool := s.twin.state == .standby || s.twin.state == .syncing

/-- The device is ACTIVE or runs alone: it serves media (HST_FN_STATUS.ACTIVE, R416). -/
def isActive (s : State) : Bool := s.twin.state == .active || s.twin.state == .solo

/-- The ports transmit, and media is processed from the device's own ingress (Table 16-1). -/
def drivesPorts (s : State) : Bool := isActive s

/-- Tasks of ticks run: on a device that serves media, and on a follower, from the log (R429). -/
def runsTasks (s : State) : Bool := drivesPorts s || followsLog s

/-- A task of tick n may run: tick n is the present one, logged or applied from the log (R429; log entry 36). -/
def taskRuns (s : State) (n : Nat) : Bool := runsTasks s && decide (n = s.media.tick)

/-- A logged frame has not been parsed yet, or Attar has not processed one that has: no other input takes its log position before that, so that
whatever follows it depends on the log alone (R14, R143, R343, R427; log entry 145). -/
def logBusy (s : State) : Bool := !s.twin.parseOrder.isEmpty || !s.media.inQ.isEmpty

/-- Logged time: that of the input at whose log position the device is, ns (R14, R137, R182, R429; log entry 144). -/
def logNs (s : State) : Nat := s.media.logNow

/-- The log ordinal of the input that is being processed: the last one applied from the log, or the last one sent (Table 12-2). -/
def logOrdinal (s : State) : Nat := if followsLog s then s.twin.applied else s.twin.ordinal

/-- The state while work of an earlier input is done: its logged time stands for the present one. -/
def atTime (t : Nat) (f : State → State) (s : State) : State :=
  let u := f { s with media := { s.media with logNow := t } }
  { u with media := { u.media with logNow := s.media.logNow } }

/-- An input enters the log that the log transmitter sends (R31, R427). -/
def logInput (e : LogEntry) (s : State) : State :=
  if s.twin.logging then { s with twin := { s.twin with pend := s.twin.pend ++ [e] } } else s

/-! ### Functions and rings (R65-R75) -/

/-- The function page of function f. -/
def fnOf (s : State) (f : Nat) : HstFn := tgetD s.hst.fns f {}

/-- The state with a function page replaced. -/
def setFn (f : Nat) (p : HstFn) (s : State) : State := { s with hst := { s.hst with fns := tput s.hst.fns f p } }

/-- The state with a function page changed. -/
def modFn (f : Nat) (g : HstFn → HstFn) (s : State) : State := setFn f (g (fnOf s f)) s

/-- A ring of a function; none while the number was never used. -/
def ringOf (s : State) (f n : Nat) : Option Ring := tget (fnOf s f).rings n

/-- The state with a ring replaced. -/
def setRing (f n : Nat) (r : Ring) (s : State) : State := modFn f (fun p => { p with rings := tput p.rings n r }) s

/-- Entries of a ring (Table 03-6). -/
def Ring.entries (r : Ring) : Nat := 2 ^ (r.sizeLog2 + 6)

/-- Entries that the ring holds: prod − cons modulo 2^32 (R68). -/
def Ring.used (r : Ring) : Nat := (r.prod - r.cons).toNat

/-- The ring is full (R68). -/
def Ring.full (r : Ring) : Bool := decide (r.entries ≤ r.used)

/-- Bytes of an entry: 64 for a command ring, 32 for every other (Table 03-7). -/
def Ring.entryBytes (r : Ring) : Nat := if r.kind == .command then 64 else 32

/-- The IOVA of the entry of an index: slot index mod entries (R68). -/
def Ring.entryAddr (r : Ring) (idx : Word) : Nat :=
  (r.base.toNat + idx.toNat % r.entries * r.entryBytes) % 2 ^ 64

/-- PHASE of an index: 1 on even passes (R71). -/
def Ring.phase (r : Ring) (idx : Word) : Bool := idx.toNat / r.entries % 2 == 0

/-- Count a rejected register or doorbell access (R65, R69). -/
def badAccess (f : Nat) (s : State) : State := modFn f (fun p => { p with badAccess := p.badAccess + 1 }) s

/-- Count an ST_NOT_OWNER outcome of a tenant (R27). -/
def isoViolation (f : Nat) (s : State) : State := modFn f (fun p => { p with isoViol := p.isoViol + 1 }) s

/-- The host's root complex completes accesses to every one of n bytes at an IOVA (Table 03-8). -/
def hostReach (addr n : Nat) (s : State) : Bool := s.hst.badIova.all fun r => decide (addr + n ≤ r.1) || decide (r.1 + r.2 ≤ addr)

/-- Host memory with bytes written by DMA. -/
def hostWrite (addr : Nat) (bs : List Byte) (s : State) : State :=
  { s with hst := { s.hst with mem := mwriteN s.hst.mem addr bs } }

/-- Host memory as read by DMA. -/
def hostRead (addr n : Nat) (s : State) : List Byte := mreadN s.hst.mem addr n

/-! ### Vectors (R78) -/

/-- A vector of a function. -/
def vectorOf (s : State) (f v : Nat) : Vector := tgetD (fnOf s f).vectors v {}

/-- The state with a vector replaced. -/
def setVector (f n : Nat) (v : Vector) (s : State) : State :=
  modFn f (fun p => { p with vectors := tput p.vectors n v }) s

/-- The function sends no message: it is in D3hot, MSI-X is not enabled, or the Function Mask is set (R78, R463). -/
def HstFn.mute (p : HstFn) : Bool := p.d3hot || !p.cfg.msixEnable || p.cfg.funcMask

/-- A pending vector of a function that may send again sends its message, unless it is masked (R78). -/
def Vector.release (v : Vector) : Vector := if v.pending && !v.masked then { v with pending := false, fired := v.fired + 1 } else v

/-- The vectors of a function that may send again. -/
def HstFn.unmuted (p : HstFn) : HstFn := if p.mute then p else { p with vectors := tmap p.vectors fun _ v => v.release }

/-- The vector fires: a message, or the pending bit while masked or while the function signals nothing (R78, R463). -/
def Vector.fire (held : Bool) (v : Vector) : Vector :=
  if v.masked || held then { v with unsignalled := 0, pending := true }
  else { v with unsignalled := 0, fired := v.fired + 1 }

/-- The vector has reached MOD_COUNT or MOD_TIME (R78). -/
def Vector.due (v : Vector) (now : Nat) : Bool :=
  decide (0 < v.unsignalled) && (decide (v.modCount ≤ v.unsignalled) || decide (v.firstAt + v.modTime * 1000 ≤ now))

/-- One more entry was written on a ring of the vector (R78). -/
def noteEntry (f n : Nat) (s : State) : State :=
  let v := vectorOf s f n
  let v := { v with unsignalled := v.unsignalled + 1, firstAt := if v.unsignalled = 0 then nowNs s else v.firstAt }
  setVector f n (if v.due (nowNs s) then v.fire (fnOf s f).mute else v) s

/-! ### Entries that the device writes (R71) -/

/-- Doublewords as bytes, low byte first. -/
def dwBytes (ws : List Word) : List Byte := ws.flatMap fun w => leBytes 4 w.toNat

/-- The entry at the producer index of a ring can be written (Table 03-8 cause 0x04). -/
def entryReaches (s : State) (f n : Nat) : Bool := ((ringOf s f n).map fun r => hostReach (r.entryAddr r.prod) r.entryBytes s).getD true

/-- Write one entry at the producer index: seven doublewords and DW7 without PHASE (R71), then signal (R78). -/
def putEntry (f n : Nat) (dws : List Word) (s : State) : State :=
  match ringOf s f n with
  | none => s
  | some r =>
    let dw7 := (dws.getD 7 0) ||| (if r.phase r.prod then 0x80000000 else 0)
    let s1 := hostWrite (r.entryAddr r.prod) (dwBytes (dws.take 7 ++ [dw7])) s
    noteEntry f r.vector (setRing f n { r with prod := r.prod + 1 } s1)

/-- The ring takes an entry now: it runs, has room, holds nothing back, and its function is not in D3hot or FLR. -/
def ringOpen (s : State) (f n : Nat) : Bool :=
  match ringOf s f n with
  | none => false
  | some r => r.state == .running && !r.full && r.held.isEmpty && decide (r.dropped = 0)
      && !(fnOf s f).d3hot && !(fnOf s f).flr

/-! ### Events (R74, R502) -/

/-- DW0-DW6 of an event entry (Table 03-11). -/
def eventDws (owner code : Nat) (obj : Word) (d0 d1 d2 : Nat) (s : State) : List Word :=
  [BitVec.ofNat 32 (owner % 64 * 65536 + code), obj, BitVec.ofNat 32 (nowNs s), BitVec.ofNat 32 (nowNs s / 2 ^ 32),
   BitVec.ofNat 32 d0, BitVec.ofNat 32 d1, BitVec.ofNat 32 d2]

/-- The event ring that an event of group g goes to: the lowest RUNNING one whose mask has bit g, else ring 32 (R74). -/
def eventRing (p : HstFn) (g : Nat) : Nat :=
  match [32, 33, 34, 35].find? (fun n =>
    match tget p.rings n with
    | some r => r.state == .running && bit r.groupMask.toNat g
    | none => false) with
  | some n => n
  | none => 32

/-- Write an event entry with the ring's sequence number (Table 03-11). -/
def putEvent (f n : Nat) (dws : List Word) (s : State) : State :=
  match ringOf s f n with
  | none => s
  | some r => putEntry f n (dws.take 7 ++ [r.seq &&& 0xFFFF]) (setRing f n { r with seq := r.seq + 1 } s)

/-- Hold an event for a ring that cannot take it: up to 64 on die, further ones dropped and counted (R74). An event for a
ring number that was never used is lost (DESIGN CHOICE, log entry 13). -/
def holdEvent (f n : Nat) (dws : List Word) (s : State) : State :=
  match ringOf s f n with
  | none => s
  | some r =>
    if r.held.length < 64 then setRing f n { r with held := r.held ++ [dws] } s
    else setRing f n { r with dropped := r.dropped + 1 } s

/-- Deliver an event of group g (R74). A ring whose entry cannot be written goes into ERROR and holds the event, and EV_RING_ERROR follows on
the ring that is then chosen (R70, Table 03-8); no more than the four event rings can fail so. -/
def deliverEvent : Nat → Nat → Nat → List Word → State → State
  | 0, owner, g, dws, s => holdEvent owner (eventRing (fnOf s owner) g) dws s
  | fuel + 1, owner, g, dws, s =>
    let n := eventRing (fnOf s owner) g
    if ¬ ringOpen s owner n then holdEvent owner n dws s
    else if entryReaches s owner n then putEvent owner n dws s
    else
      let t := holdEvent owner n dws (modFn owner (fun p => { p with rings := tupd p.rings n fun r => { r with state := .error, cause := 0x04 } }) s)
      deliverEvent fuel owner 0x01 (eventDws owner evRingError 0 n 0x04 0 t) t

/-- Post an event to one tenant (R74); a device that follows a log withholds the events of R502. -/
def postEvent (owner code : Nat) (obj : Word) (d0 d1 d2 : Nat) (s : State) : State :=
  if subjectEvent code && followsLog s then s else
  deliverEvent 4 owner (code / 256) (eventDws owner code obj d0 d1 d2 s) s

/-- Post an event to tenant 0. -/
def postDevice (code : Nat) (d0 d1 : Nat) (s : State) : State := postEvent 0 code 0 d0 d1 0 s

/-- Put a ring into ERROR with a cause of Table 03-8 and post EV_RING_ERROR to its tenant (R70). -/
def ringError (f n : Nat) (cause : Byte) (s : State) : State :=
  match ringOf s f n with
  | none => s
  | some r => postEvent f evRingError 0 n cause.toNat 0 (setRing f n { r with state := .error, cause := cause } s)

/-- EV_PRECEDENCE with its two levels and the object; a follower withholds it unless the fault is its own (R448, R502). -/
def postPrecedence (win lose obj : Nat) (own : Bool) (s : State) : State :=
  if followsLog s && !own then s else postEvent 0 evPrecedence 0 win lose obj s

/-- EV_PRECEDENCE of a conflict whose rule gives no rate limit: at most once per second for each pair of levels and object (R448). -/
def postConflict (win lose obj : Nat) (own : Bool) (s : State) : State :=
  let now := nowNs s
  let recent := s.media.precedences.filter fun p => decide (now < p.2.2 + 1000000000)
  if recent.any fun p => decide (p.1 = 8 * win + lose) && decide (p.2.1 = obj) then s
  else postPrecedence win lose obj own { s with media := { s.media with precedences := recent ++ [(8 * win + lose, obj, now)] } }

/-! ### Counters (R112, R501) -/

/-- The value of a counter of R112. -/
def counterOf (s : State) (id : Nat) : Word := tgetD s.counters id 0

/-- Add n to a 32-bit wrapping counter; EV_COUNTER_HALF when it passes 0x8000_0000 and when it wraps (R112). -/
def count (owner id n : Nat) (s : State) : State :=
  let v := (counterOf s id).toNat
  let s1 := { s with counters := tput s.counters id (BitVec.ofNat 32 (v + n)) }
  if v < 2 ^ 31 ∧ 2 ^ 31 ≤ v + n then postEvent owner evCounterHalf 0 id 0 0 s1
  else if 2 ^ 32 ≤ v + n then postEvent owner evCounterHalf 0 id 1 0 s1
  else s1

/-- Count one for tenant 0. -/
def count1 (id : Nat) (s : State) : State := count 0 id 1 s

/-- The key of a 64-bit object counter (R501). -/
def objKey (group : Nat) (h : Handle) (idx : Nat) : Nat := (group * 2 ^ 32 + h.toNat) * 64 + idx

/-- A 64-bit object counter. -/
def objCounter (s : State) (group : Nat) (h : Handle) (idx : Nat) : Nat := tgetD s.objCounters (objKey group h idx) 0

/-- Add n to a 64-bit object counter. -/
def countObj (group : Nat) (h : Handle) (idx n : Nat) (s : State) : State :=
  { s with objCounters := tput s.objCounters (objKey group h idx) ((objCounter s group h idx + n) % 2 ^ 64) }

/-- Write a 64-bit object counter that shows a maximum or a present value. -/
def putObj (group : Nat) (h : Handle) (idx v : Nat) (s : State) : State :=
  { s with objCounters := tput s.objCounters (objKey group h idx) (v % 2 ^ 64) }

/-- The object counters without those of a freed object. -/
def dropObj (h : Handle) (s : State) : State :=
  { s with objCounters := s.objCounters.filter fun kv => decide (kv.1 / 64 % 2 ^ 32 ≠ h.toNat) }

/-! ### Object tables (R24-R29) -/

/-- The generation of an index (R28): 1 until it has been freed. -/
def ObjTbl.gen {α : Type} (t : ObjTbl α) (i : Nat) : Nat := tgetD t.gens i 1

/-- The index that the next allocation receives: the front of the first-in, first-out free list (R29). -/
def ObjTbl.next {α : Type} (t : ObjTbl α) (size : Nat) : Option Nat :=
  if t.fresh < size then some t.fresh else t.freed.head?

/-- The table with the next index allocated to an object; unchanged while none is free. -/
def ObjTbl.alloc {α : Type} (t : ObjTbl α) (size : Nat) (a : α) : ObjTbl α :=
  if t.fresh < size then { t with live := tput t.live t.fresh a, fresh := t.fresh + 1 }
  else match t.freed with
    | [] => t
    | i :: r => { t with live := tput t.live i a, freed := r }

/-- The generation after g: 63 wraps to 1 (R28). -/
def nextGen (g : Nat) : Nat := if g = 63 then 1 else g + 1

/-- The table with an index freed: its generation advances and it goes to the end of the free list (R28, R29). -/
def ObjTbl.free {α : Type} (t : ObjTbl α) (i : Nat) : ObjTbl α :=
  match tget t.live i with
  | none => t
  | some _ => { t with live := tdel t.live i, gens := tput t.gens i (nextGen (t.gen i)), freed := t.freed ++ [i] }

/-- The object at an index. -/
def ObjTbl.at? {α : Type} (t : ObjTbl α) (i : Nat) : Option α := tget t.live i

/-- The table with the object at an index changed. -/
def ObjTbl.upd {α : Type} (t : ObjTbl α) (i : Nat) (f : α → α) : ObjTbl α := { t with live := tupd t.live i f }

/-- The number of objects in use. -/
def ObjTbl.inUse {α : Type} (t : ObjTbl α) : Nat := t.live.length

/-- The tenant that the object at an index belongs to; none while it is not in use (Table 02-3). -/
def objTenant (s : State) (ty i : Nat) : Option Nat :=
  match ty with
  | 0x1 => (s.obj.tenants.at? i).map fun _ => i
  | 0x2 => (s.obj.confs.at? i).map (·.tenant)
  | 0x3 => (s.obj.legs.at? i).map (·.tenant)
  | 0x4 => (s.obj.ins.at? i).map (·.tenant)
  | 0x5 => (s.obj.outs.at? i).map (·.tenant)
  | 0x6 => (s.obj.layouts.at? i).map (·.tenant)
  | 0x7 => (s.obj.mixes.at? i).map (·.tenant)
  | 0x8 => (s.obj.tilesets.at? i).map (·.tenant)
  | 0x9 => (s.obj.slots.at? i).map (·.tenant)
  | 0xA => (s.obj.trunks.at? i).map (·.tenant)
  | 0xB => (s.obj.images.at? i).map (·.tenant)
  | _ => none

/-- The generation of an index of a type. -/
def objGen (s : State) (ty i : Nat) : Nat :=
  match ty with
  | 0x1 => s.obj.tenants.gen i
  | 0x2 => s.obj.confs.gen i
  | 0x3 => s.obj.legs.gen i
  | 0x4 => s.obj.ins.gen i
  | 0x5 => s.obj.outs.gen i
  | 0x6 => s.obj.layouts.gen i
  | 0x7 => s.obj.mixes.gen i
  | 0x8 => s.obj.tilesets.gen i
  | 0x9 => s.obj.slots.gen i
  | 0xA => s.obj.trunks.gen i
  | 0xB => s.obj.images.gen i
  | _ => 0

/-- The handle of the object at an index of a type, as the state holds it now. -/
def handleOf (s : State) (ty i : Nat) : Handle := mkHandle ((objTenant s ty i).getD 0) ty i (objGen s ty i)

/-- The handle checks of Table 02-3 in order; `anyTenant` is the exception of R27. -/
def handleFault (s : State) (fn : Nat) (anyTenant : Bool) (types : List Nat) (h : Handle) : Option Status :=
  if ¬ types.contains (hType h) ∨ tableSize (hType h) = 0 then some stHandle
  else if tableSize (hType h) ≤ hIndex h then some stHandle
  else if hTenant h ≠ fn ∧ ¬ (anyTenant ∧ fn = 0) then some stNotOwner
  else match objTenant s (hType h) (hIndex h) with
    | some t => if t ≠ hTenant h then some stNotOwner
        else if hGen h ≠ objGen s (hType h) (hIndex h) then some stStale else none
    | none => some stStale

/-- A valid handle names an object in use: its index, when the handle is of the type and up to date. -/
def liveIndex (s : State) (ty : Nat) (h : Handle) : Option Nat :=
  if hType h = ty ∧ objTenant s ty (hIndex h) = some (hTenant h) ∧ hGen h = objGen s ty (hIndex h)
  then some (hIndex h) else none

/-! ### Replaced parts of the object tables -/

def setTenants (f : ObjTbl Tenant → ObjTbl Tenant) (s : State) : State :=
  { s with obj := { s.obj with tenants := f s.obj.tenants } }
def setConfs (f : ObjTbl Conf → ObjTbl Conf) (s : State) : State :=
  { s with obj := { s.obj with confs := f s.obj.confs } }
def setLegs (f : ObjTbl Leg → ObjTbl Leg) (s : State) : State :=
  { s with obj := { s.obj with legs := f s.obj.legs } }
def setIns (f : ObjTbl InStream → ObjTbl InStream) (s : State) : State :=
  { s with obj := { s.obj with ins := f s.obj.ins } }
def setOuts (f : ObjTbl OutStream → ObjTbl OutStream) (s : State) : State :=
  { s with obj := { s.obj with outs := f s.obj.outs } }
def setLayouts (f : ObjTbl Layout → ObjTbl Layout) (s : State) : State :=
  { s with obj := { s.obj with layouts := f s.obj.layouts } }
def setMixes (f : ObjTbl Mix → ObjTbl Mix) (s : State) : State :=
  { s with obj := { s.obj with mixes := f s.obj.mixes } }
def setTilesets (f : ObjTbl TileSet → ObjTbl TileSet) (s : State) : State :=
  { s with obj := { s.obj with tilesets := f s.obj.tilesets } }
def setSlots (f : ObjTbl KeySlot → ObjTbl KeySlot) (s : State) : State :=
  { s with obj := { s.obj with slots := f s.obj.slots } }
def setTrunks (f : ObjTbl Trunk → ObjTbl Trunk) (s : State) : State :=
  { s with obj := { s.obj with trunks := f s.obj.trunks } }
def setImages (f : ObjTbl Image → ObjTbl Image) (s : State) : State :=
  { s with obj := { s.obj with images := f s.obj.images } }
def setEncs (f : ObjTbl EncCtx → ObjTbl EncCtx) (s : State) : State :=
  { s with obj := { s.obj with encs := f s.obj.encs } }

def updTenant (i : Nat) (f : Tenant → Tenant) : State → State := setTenants (·.upd i f)
def updConf (i : Nat) (f : Conf → Conf) : State → State := setConfs (·.upd i f)
def updLeg (i : Nat) (f : Leg → Leg) : State → State := setLegs (·.upd i f)
def updIn (i : Nat) (f : InStream → InStream) : State → State := setIns (·.upd i f)
def updOut (i : Nat) (f : OutStream → OutStream) : State → State := setOuts (·.upd i f)
def updLayout (i : Nat) (f : Layout → Layout) : State → State := setLayouts (·.upd i f)
def updMix (i : Nat) (f : Mix → Mix) : State → State := setMixes (·.upd i f)
def updTileset (i : Nat) (f : TileSet → TileSet) : State → State := setTilesets (·.upd i f)
def updSlot (i : Nat) (f : KeySlot → KeySlot) : State → State := setSlots (·.upd i f)
def updTrunk (i : Nat) (f : Trunk → Trunk) : State → State := setTrunks (·.upd i f)
def updImage (i : Nat) (f : Image → Image) : State → State := setImages (·.upd i f)
def updEnc (i : Nat) (f : EncCtx → EncCtx) : State → State := setEncs (·.upd i f)

/-- The legs of a conference that are not in DRAINING, by rising index (R35). -/
def confLegs (s : State) (conf : Nat) : List (Nat × Leg) :=
  tfilter s.obj.legs.live fun _ l => decide (l.conf = conf) && !(l.state == .draining)

/-- A port of the device. -/
def portOf (s : State) (p : Nat) : Port := tgetD s.ports p { addr := BitVec.ofNat 48 (s.mon.macBase.toNat + p) }

/-- The state with a port changed. -/
def modPort (p : Nat) (f : Port → Port) (s : State) : State := { s with ports := tput s.ports p (f (portOf s p)) }

/-- The mode of a physical port; 1 after reset (R92). -/
def physOf (s : State) (n : Nat) : Phys := tgetD s.phys n {}

/-- The logical port exists in the current mode (R91). -/
def portExists (s : State) (p : Nat) : Bool :=
  decide (p < 8) && (if p % 2 = 0 then true else decide ((physOf s (p / 2)).mode = 2))

end Sys2Proof.Machine
end

