-- ==== Sys2Proof/Machine/Operands.lean ====
section
/-! DEFINITION. The operand forms of host commands: fields of a descriptor and of its extended block, the checks of
Table 03-13 in their order, the reply, and the one shared operation that issues a command. -/

namespace Sys2Proof

/-- n bytes at a byte offset from the start of the descriptor; offsets from 64 on lie in the extended block (R79, R82). -/
def Cmd.raw (c : Cmd) (off n : Nat) : List Byte :=
  if off < 64 then Machine.slice c.params (off - 16) n else Machine.slice (c.ext.getD []) (off - 64) n

/-- A little-endian field (R2). -/
def Cmd.u (c : Cmd) (off n : Nat) : Nat := Machine.leNat (c.raw off n)

def Cmd.u8 (c : Cmd) (off : Nat) : Nat := c.u off 1
def Cmd.u16 (c : Cmd) (off : Nat) : Nat := c.u off 2
def Cmd.u32 (c : Cmd) (off : Nat) : Nat := c.u off 4
def Cmd.u64 (c : Cmd) (off : Nat) : Nat := c.u off 8

/-- A handle field. -/
def Cmd.hdl (c : Cmd) (off : Nat) : Handle := BitVec.ofNat 32 (c.u off 4)

/-- Length of the extended block. -/
def Cmd.extLen (c : Cmd) : Nat := (c.ext.getD []).length

/-- DW0 [16]: EXT. -/
def Cmd.isExt (c : Cmd) : Bool := c.dw0.getLsbD 0
/-- DW0 [17]: QUIET. -/
def Cmd.quiet (c : Cmd) : Bool := c.dw0.getLsbD 1
/-- DW0 [18]: SIGNED. -/
def Cmd.signed (c : Cmd) : Bool := c.dw0.getLsbD 2
/-- DW0 [29:24]: TENANT. -/
def Cmd.tenant (c : Cmd) : Nat := c.dw0.toNat / 256 % 64

namespace Machine

/-! ### Checks -/

/-- A failed check: its status and DETAIL. -/
structure Fail where
  status : Status
  detail : Word
  deriving DecidableEq, Repr

/-- The outcome of one check. -/
abbrev Check := Option Fail

/-- A check that fails under a condition. -/
def failIf (b : Bool) (st : Status) (detail : Nat) : Check :=
  if b then some ⟨st, BitVec.ofNat 32 detail⟩ else none

/-- The first failure decides (R82). -/
def firstFail : List Check → Check
  | [] => none
  | some f :: _ => some f
  | none :: r => firstFail r

/-- A count, length or size field that may not be 0 (R84). -/
def zeroAt (c : Cmd) (off n : Nat) : Check := failIf (decide (c.u off n = 0)) stZero off

/-- Pad or reserved bytes that must be 0 (R82). -/
def padAt (c : Cmd) (off n : Nat) : Check := failIf (!zeros (c.raw off n)) stFormat off

/-- A field within a range (R82). -/
def rangeAt (c : Cmd) (off n lo hi : Nat) : Check :=
  failIf (decide (c.u off n < lo) || decide (hi < c.u off n)) stRange off

/-- Reserved bits of a field from bit k on (R82). -/
def reservedAt (c : Cmd) (off n k : Nat) : Check := failIf (decide (2 ^ k ≤ c.u off n)) stFormat off

/-- An IOVA aligned to a power of two. -/
def alignAt (c : Cmd) (off a : Nat) : Check := failIf (decide (c.u64 off % a ≠ 0)) stFormat off

/-- A handle field by R26; DETAIL is its offset. -/
def handleAt (s : State) (c : Cmd) (types : List Nat) (off : Nat) : Check :=
  (handleFault s c.fn.val false types (c.hdl off)).map fun st => ⟨st, BitVec.ofNat 32 off⟩

/-- A handle field that may be 0 (Table 03-14). -/
def handleOrZeroAt (s : State) (c : Cmd) (types : List Nat) (off : Nat) : Check :=
  if c.hdl off = 0 then none else handleAt s c types off

/-- A failure of order 12 on an object, with its handle in DETAIL. -/
def stateFail (b : Bool) (h : Handle) : Check := if b then some ⟨stState, h⟩ else none

/-- A failure of order 13 with a code in DETAIL. -/
def noResource (b : Bool) (code : Nat) : Check := failIf b stNoResource code

/-! ### Replies -/

/-- What a command answers: STATUS, DETAIL and RES0-RES3; `later` marks a bulk command that answers when it ends (R73). -/
structure Reply where
  status : Status := stOk
  detail : Word := 0
  res : List Word := []
  later : Bool := false
  deriving DecidableEq, Repr

/-- The reply of a failed command. -/
def Reply.ofFail (f : Fail) : Reply := { status := f.status, detail := f.detail }

/-- The eight doublewords of a reply, without PHASE (Table 03-11). -/
def replyDws (op : Nat) (c : Cmd) (r : Reply) : List Word :=
  [c.tag, BitVec.ofNat 32 (c.ring.val * 65536 + r.status.toNat), r.detail, r.res.getD 0 0, r.res.getD 1 0,
   r.res.getD 2 0, r.res.getD 3 0, BitVec.ofNat 32 op]

/-- Two entries of the Nose are the same command. -/
def Fetched.same (f g : Fetched) : Bool := f.cmd.fn == g.cmd.fn && f.cmd.ring == g.cmd.ring && f.cmd.index == g.cmd.index

/-- The commands fetched and not completed, each once. -/
def unanswered (s : State) : List Fetched :=
  let owed := s.obj.slots.live.filterMap fun kv => kv.2.eraseOwed
  (s.nose.fetched ++ s.nose.bulk ++ s.nose.waiting ++ owed).foldl (fun acc f => if acc.any f.same then acc else acc ++ [f]) []

/-- An index of a ring stands before another (R68). -/
def indexBefore (i j : Word) : Bool := decide (2 ^ 31 ≤ (i - j).toNat)

/-- An earlier command of a command ring has not completed, or its reply is not yet written, so the reply to the command at index i waits (R73). -/
def replyWaits (f n : Nat) (i : Word) (s : State) : Bool :=
  (unanswered s).any (fun g => decide (g.cmd.fn.val = f) && decide (g.cmd.ring.val = n) && indexBefore g.cmd.index i) ||
  s.nose.behind.any fun h => decide (h.fn = f) && decide (h.ring = n) && indexBefore h.index i

/-- Commands fetched from a command ring have not completed, or their replies are not yet written. -/
def ringBusy (f n : Nat) (s : State) : Bool :=
  (unanswered s).any (fun g => decide (g.cmd.fn.val = f) && decide (g.cmd.ring.val = n)) ||
  s.nose.behind.any fun h => decide (h.fn = f) && decide (h.ring = n)

/-- A command of a ring is settled: its reply is written, dropped or not wanted. A ring that RING_DESTROY drains becomes FREE with the last of
them, except ring 0, which the admin rings leave together (R66, R75). -/
def settleReply (f n : Nat) (s : State) : State :=
  match ringOf s f n with
  | none => s
  | some r => setRing f n (if r.stop && !ringBusy f n s && decide (n ≠ 0) then { kind := .command } else { r with owed := r.owed - 1 }) s

/-- Write one waiting reply where it may go now: it is the next of its command ring, and its reply ring takes it. A reply ring that has become
FREE loses it; one that cannot be written goes into ERROR and the reply waits on (R70, R72, R73). -/
def writeReply (h : HeldReply) (s : State) : State :=
  let gone := { s with nose := { s.nose with behind := s.nose.behind.filter fun g => !(g == h) } }
  if replyWaits h.fn h.ring h.index s then s
  else match ringOf s h.fn h.rplRing with
    | none => settleReply h.fn h.ring gone
    | some r =>
      if r.state = .free then settleReply h.fn h.ring gone
      else if ¬ ringOpen s h.fn h.rplRing then s
      else if entryReaches s h.fn h.rplRing then settleReply h.fn h.ring (putEntry h.fn h.rplRing h.dws gone)
      else ringError h.fn h.rplRing 0x04 s

/-- Every waiting reply is written that may go now, in completion order (R72, R73). -/
def flushReplies (s : State) : State := s.nose.behind.foldl (fun s h => writeReply h s) s

/-- The waiting replies with one more: at the end, but before the later ones of its command ring (R73). -/
def insertReply (h : HeldReply) : List HeldReply → List HeldReply
  | [] => [h]
  | g :: r => if g.fn = h.fn ∧ g.ring = h.ring ∧ indexBefore h.index g.index then h :: g :: r else g :: insertReply h r

/-- The reply ring that a command ring is bound to: 16 for ring 0 (R66, R72). -/
def replyRing (s : State) (c : Cmd) : Nat :=
  match ringOf s c.fn.val c.ring.val with
  | some r => if c.ring.val = 0 then 16 else r.boundReply
  | none => 16

/-- A command has completed: it leaves the fetched, waiting and bulk commands. -/
def retire (c : Cmd) (s : State) : State :=
  let other := fun (f : Fetched) => !(f.cmd.fn == c.fn && f.cmd.ring == c.ring && f.cmd.index == c.index)
  { s with nose := { s.nose with fetched := s.nose.fetched.filter other, waiting := s.nose.waiting.filter other,
                                 bulk := s.nose.bulk.filter other } }

/-- Answer a command: QUIET with exactly ST_OK writes none (R81); any other reply waits for its turn and its ring, and is written at once where
nothing holds it (R72, R73). -/
def answer (op : Nat) (c : Cmd) (r : Reply) (s : State) : State :=
  let h : HeldReply := ⟨c.fn.val, c.ring.val, c.index, replyRing s c, replyDws op c r⟩
  let s := retire c s
  flushReplies (if c.quiet ∧ r.status = stOk then settleReply c.fn.val c.ring.val s
    else { s with nose := { s.nose with behind := insertReply h s.nose.behind } })

/-! ### The rules of one command -/

/-- The parameter length of an opcode (Table 03-12). -/
inductive Plen where
  /-- Inline parameters of this many bytes. -/
  | fixed (n : Nat)
  /-- An extended block of exactly this many bytes. -/
  | ext (n : Nat)
  /-- An extended block whose length its own contents decide. -/
  | block
  deriving DecidableEq, Repr

/-- What the manual gives one opcode: its marks, its checks in the order of Table 03-13, and its effect. -/
structure CmdRule where
  op : Nat
  /-- T0: only tenant 0 may issue it. -/
  t0 : Bool := false
  /-- L: logged to the standby. -/
  logged : Bool := false
  /-- B: bulk. -/
  bulk : Bool := false
  plen : Plen := .fixed 0
  /-- The block must be signed. -/
  signed : Bool := false
  /-- Types that OBJECT may have; empty for "—". -/
  types : List Nat := []
  /-- OBJECT 0 is accepted. -/
  zeroObject : Bool := false
  /-- Tenant 0 may name objects of any tenant (R27). -/
  anyTenant : Bool := false
  /-- A length that the block's contents decide, made once the block is read. -/
  lengths : Cmd → State → List Check := fun _ _ => []
  /-- Order 9. -/
  zeroFields : Cmd → State → List Check := fun _ _ => []
  /-- Order 10 after OBJECT. -/
  handles : Cmd → State → List Check := fun _ _ => []
  /-- Order 11. -/
  fields : Cmd → State → List Check := fun _ _ => []
  /-- Order 12. -/
  states : Cmd → State → List Check := fun _ _ => []
  /-- Order 13. -/
  resources : Cmd → State → List Check := fun _ _ => []
  /-- The command waits in the Nose (R48, R138, R141). -/
  waits : Cmd → State → Bool := fun _ _ => false
  /-- Its effect at its log position. -/
  effect : Cmd → State → Reply × State

/-! ### Orders 1 to 8 -/

/-- The first byte, from `off` on, that is not 0. -/
def firstNonZero : Nat → List Byte → Option Nat
  | _, [] => none
  | off, b :: r => if b = 0 then firstNonZero (off + 1) r else some off

/-- Order 1: the descriptor's own fields; DETAIL is the byte offset of the first bad one (Table 03-13, R80). -/
def descriptorCheck (c : Cmd) : Check :=
  let f := c.dw0.toNat
  let flags := bits f 3 5 ≠ 0 ∨ (c.isExt ∧ c.quiet)
  let span := if c.isExt then 24 else 16 + (if c.plen.toNat < 48 then c.plen.toNat else 48)
  if flags then some ⟨stFormat, 2⟩
  else if bits f 14 2 ≠ 0 then some ⟨stFormat, 3⟩
  else if (c.isExt ∧ c.plen.toNat ≤ 48) ∨ (¬ c.isExt ∧ 48 < c.plen.toNat) then some ⟨stFormat, 8⟩
  else if c.isExt ∧ c.u64 16 % 8 ≠ 0 then some ⟨stFormat, 16⟩
  else match firstNonZero span (c.params.drop (span - 16)) with
    | some off => some ⟨stFormat, BitVec.ofNat 32 off⟩
    | none => none

/-- Opcodes that FAULT_STOP still answers (R447). -/
def faultStopAllows (op : Nat) : Bool := op == 0x0101 || op == 0x0102 || op == 0x0B04 || op / 256 == 0x0C

/-- Opcodes that Blotter service does not offer (R83). -/
def needsFullService (op : Nat) : Bool :=
  op / 256 == 0x08 || op / 256 == 0x0E || (op / 256 == 0x0B && op != 0x0B04) || op == 0x0701 || op == 0x0702 || op == 0x0D01

/-- Orders 2 to 5: tenant, privilege, service level and role (R83, R447). -/
def admissionCheck (r : CmdRule) (c : Cmd) (s : State) : Check :=
  if c.tenant ≠ c.fn.val then some ⟨stNotOwner, BitVec.ofNat 32 c.tenant⟩
  else if r.t0 ∧ c.fn.val ≠ 0 then some ⟨stNotOwner, BitVec.ofNat 32 r.op⟩
  else if s.twin.state = .faultStop ∧ ¬ faultStopAllows r.op then some ⟨stState, BitVec.ofNat 32 r.op⟩
  else if s.nose.service = .blotter ∧ needsFullService r.op then some ⟨stNotReady, BitVec.ofNat 32 r.op⟩
  else if r.logged ∧ followsLog s then some ⟨stState, BitVec.ofNat 32 r.op⟩
  else none

/-- Order 6: PLEN (Table 03-13); DETAIL is the expected length, or 0. -/
def plenCheck (r : CmdRule) (c : Cmd) : Check :=
  match r.plen with
  | .fixed n => failIf (decide (c.plen.toNat ≠ n)) stLength n
  | .ext n => failIf (!c.isExt || decide (c.plen.toNat ≠ n)) stLength n
  | .block => failIf (!c.isExt || decide (16777216 < c.plen.toNat)) stLength 0

/-- Orders 7 and 8: the block is readable, and signed where it must be. -/
def blockCheck (r : CmdRule) (c : Cmd) : Check :=
  if c.isExt ∧ c.ext = none then some ⟨stDmaFault, 0⟩
  else if r.signed ∧ (¬ c.signed ∨ ¬ Config.signatureOk (c.ext.getD [])) then some ⟨stSignature, 0⟩
  else none

/-- Order 10 for OBJECT: by R26; 0 for an opcode without an object (log entry 14). -/
def objectCheck (r : CmdRule) (c : Cmd) (s : State) : Check :=
  if c.object = 0 ∧ (r.types = [] ∨ r.zeroObject) then none
  else (handleFault s c.fn.val r.anyTenant r.types c.object).map fun st => ⟨st, 12⟩

/-- R88: one bulk command of each opcode at a time. -/
def busyCheck (r : CmdRule) (s : State) : Check :=
  failIf (r.bulk && s.nose.bulk.any fun f => f.opcode == r.op) stBusy 0

/-- Orders 9 to 13 of a command. -/
def bodyCheck (r : CmdRule) (c : Cmd) (s : State) : Check :=
  firstFail (r.lengths c s ++ r.zeroFields c s ++ [objectCheck r c s] ++ r.handles c s ++ r.fields c s ++ [busyCheck r s]
    ++ r.states c s ++ r.resources c s)

/-- Every check of Table 03-13, in order. -/
def fullCheck (r : CmdRule) (c : Cmd) (s : State) : Check :=
  firstFail [descriptorCheck c, admissionCheck r c s, plenCheck r c, blockCheck r c, bodyCheck r c s]

/-- The counters that a failure leaves (R27, R121, R401). -/
def countFailure (r : CmdRule) (c : Cmd) (f : Fail) (s : State) : State :=
  let s := if f.status = stNotOwner then isoViolation c.fn.val s else s
  let s := if f.status = stNotOwner ∧ r.op / 256 = 0x06 ∧ c.tenant = c.fn.val ∧ f.detail = 12
    then count c.fn.val (atrCtr c.fn.val 0x24) 1 s else s
  if f.status = stTimeRefused then count1 (timCtr 0x20) s else s

/-- Commands that need a Video Cluster, an Accord Cluster or HBM, and so end QUIESCE (R464, log entry 15). -/
def needsClusters (op : Nat) : Bool := [3, 4, 5, 7, 8, 0x0E].contains (op / 256) || op == 0x0D01 || op == 0x0C04

/-- The last command of a command ring that took effect (R450). -/
def noteApplied (c : Cmd) (s : State) : State :=
  modFn c.fn.val (fun p => { p with applied := tput p.applied c.ring.val (c.index, c.tag) }) s

/-- A command that passed its checks, at its log position: it is logged, takes effect, ends QUIESCE where it needs a
cluster, and is answered (R31, R81, R88, R464). -/
def perform (r : CmdRule) (c : Cmd) (s : State) : State :=
  let (rep, t) := r.effect c s
  let t := if t.mon.quiesce ∧ needsClusters r.op then leaveQuiesce t else t
  let t := noteApplied c t
  let t := if r.logged then logInput (.command r.op c rep.status) t else t
  if rep.later then { t with nose := { t.nose with bulk := t.nose.bulk ++ [⟨r.op, c⟩] } }
  else answer r.op c rep t

/-- Blotter service, whose limits Table 17-2 adds (R456). -/
def inBlotter (s : State) : Bool := s.nose.service == .blotter

/-- A field whose value Blotter service does not offer; DETAIL is its offset (R456; DEDUCED, log entry 54). -/
def notReadyAt (s : State) (b : Bool) (off : Nat) : Check := failIf (inBlotter s && b) stNotReady off

/-- The Nose has begun service. -/
def noseRuns (s : State) : Bool := !(s.nose.service == .off)

/-- An earlier command of the ring still waits in the Nose, and commands of one ring take effect in ring order (R30). -/
def behindWaiting (c : Cmd) (s : State) : Bool := s.nose.waiting.any fun f => f.cmd.fn == c.fn && f.cmd.ring == c.ring

/-- Issue a host command: every check in order, then the effect or the failure's reply (R82). Before Blotter service no
command is fetched, and the command stays without effect (R454). -/
def issued (r : CmdRule) (c : Cmd) (s : State) : State :=
  if noseRuns s then
    match fullCheck r c s with
    | some f => answer r.op c (.ofFail f) (countFailure r c f s)
    | none =>
      if r.waits c s ∨ behindWaiting c s ∨ (r.logged ∧ logBusy s) then { s with nose := { s.nose with waiting := s.nose.waiting ++ [⟨r.op, c⟩] } }
      else perform r c s
  else s

/-- The outcome of a host command. -/
def issue (r : CmdRule) (c : Cmd) (s : State) : Host.Outcome State Fault Refusal := done s (issued r c s)

/-- Output of a command: written to the buffer before the reply (R81); of a command applied from the log, nothing (R429). -/
def output (addr : Nat) (bs : List Byte) (s : State) : State := if s.twin.applying then s else hostWrite addr bs s

end Machine
end Sys2Proof
end

