-- ==== Sys2Proof/Machine/Orgue.lean ====
section
/-! DEFINITION. The Orgue's tasks: targets, admission, flags, ordered flows and release (R378-R386). -/

namespace Sys2Proof.Machine

/-- Kind and cluster of the target that a completer serves (Table 14-3); clusters do not matter for Attar. -/
def completerTarget (n : Nat) : TargetKind × Nat :=
  if n < 16 then (.decode, n / 2) else if n < 32 then (.encode, (n - 16) / 2) else if n < 48 then (.compose, (n - 32) / 2)
  else if n < 56 then (.stitch, n - 48) else if n < 184 then (.accord, (n - 56) / 16) else if n < 192 then (.assist, n - 184)
  else if n < 200 then (.dma, n - 192) else if n < 216 then (.aes, 0) else (.sha1, 0)

/-- Which of the three groups of Table 14-6 a target belongs to: 0 video, 1 Accord, 2 Attar. -/
def targetGroup : TargetKind → Nat
  | .decode | .encode | .compose | .stitch => 0
  | .accord | .assist | .dma => 1
  | .aes | .sha1 => 2

/-- Cluster number that distinguishes targets of a kind: Attar has one target of each kind. -/
def targetCluster (k : TargetKind) (n : Nat) : Nat := if targetGroup k = 2 then 0 else n

/-- A task is ready when (FLAGS AND MASK) equals MASK (R381). -/
def flagsReady (t : Task) : Bool := t.flags &&& t.mask == t.mask

/-- An ordered flow's record. -/
def flowOf (s : State) (f : Nat) : Flow := tgetD s.orgue.flows f {}

/-- The state with a task replaced. -/
def setTask (slot : Nat) (t : Task) (s : State) : State := { s with orgue := { s.orgue with tasks := tput s.orgue.tasks slot t } }

/-- The slot that the next task receives: the ones never used first, then the one returned longest ago. -/
def nextSlot (o : Orgue) : Nat × Orgue :=
  match o.freed with
  | i :: r => if o.fresh < 262144 then (o.fresh, { o with fresh := o.fresh + 1 }) else (i, { o with freed := r })
  | [] => (o.fresh, { o with fresh := o.fresh + 1 })

/-! ### Admission (R378, R379, R383, R384) -/

/-- No slot that the task may use is free, its flow holds 4,096 tasks, or an earlier admission of its flow stalls (R379, R384). -/
def admitStalls (s : State) (t : TaskReq) : Bool :=
  decide (262144 ≤ s.orgue.used) || (!t.audio && decide (229376 ≤ s.orgue.plain)) ||
  decide (4096 ≤ (flowOf s t.flow.toNat).inFlight) || s.orgue.stalled.any fun x => decide (x.req.flow = t.flow)

/-- Admit a task into a slot of its flow: SEQ in admission order, ready at once when its mask is met (R378, R381, R384). The event of the results
that it waits for is its flag 0. -/
def enterTask (x : Stalled) (s : State) : State :=
  let t := x.req
  let fl := flowOf s t.flow.toNat
  let (slot, o) := nextSlot s.orgue
  let task : Task := { flags := if x.waits.isEmpty ∧ x.job.isSome then t.flags ||| 1 else t.flags, mask := t.mask, prio := t.prio.val, kind := t.kind,
                       cluster := targetCluster t.kind t.cluster.val, flow := t.flow.toNat, ordered := t.ordered,
                       seq := fl.nextSeq, audio := t.audio, empty := t.empty, dependants := t.dependants, writes := t.writes,
                       stage := 0, num := x.num, waits := x.waits, job := x.job }
  let task := { task with stage := if flagsReady task then 1 else 0 }
  let o := { o with tasks := tput o.tasks slot task, used := o.used + 1, plain := o.plain + (if t.audio then 0 else 1),
                    flows := tput o.flows t.flow.toNat
                      { fl with nextSeq := (fl.nextSeq + 1) % 2 ^ 32, inFlight := fl.inFlight + 1 },
                    ready := if flagsReady task then o.ready ++ [slot] else o.ready }
  count1 (orgCtr (4 * targetGroup t.kind)) { s with orgue := o }

/-- A stalled admission is counted; the audio reserve that keeps other work waiting is precedence 3 above 6 (R379, R448; log entry 140). -/
def stall (x : Stalled) (s : State) : State :=
  let s := if x.req.audio ∨ s.orgue.plain < 229376 then s else postConflict 3 6 0 false s
  count1 (orgCtr 0x24) { s with orgue := { s.orgue with stalled := s.orgue.stalled ++ [x] } }

/-- A producer admits a task, or stalls and repeats; the task's number is the answer (R379). -/
def produce (t : TaskReq) (waits : List Nat) (job : Option Job) (s : State) : Nat × State :=
  let n := s.orgue.born + 1
  let x : Stalled := { req := t, num := n, waits := waits, job := job }
  let s := { s with orgue := { s.orgue with born := n } }
  (n, if admitStalls s t then stall x s else enterTask x s)

/-- The stalled admissions repeat, in the order in which they came (R379). -/
def retryStalled (s : State) : State :=
  let all := s.orgue.stalled
  all.foldl (fun s x => if admitStalls s x.req then { s with orgue := { s.orgue with stalled := s.orgue.stalled ++ [x] } } else enterTask x s)
    { s with orgue := { s.orgue with stalled := [] } }

/-! ### Flags and ready lists (R380-R382) -/

/-- Set flags of a slot: an OR; a stale generation has no effect and is counted; a task that becomes ready joins its list
(R380, R381). -/
def setFlags (slot gen : Nat) (bits : Word) (s : State) : State :=
  match tget s.orgue.tasks slot with
  | none => if gen = tgetD s.orgue.gens slot 0 then s else count1 (orgCtr 0x28) s
  | some t =>
    if gen ≠ tgetD s.orgue.gens slot 0 then count1 (orgCtr 0x28) s
    else
      let t' := { t with flags := t.flags ||| bits }
      if t.stage = 0 ∧ flagsReady t' then
        let s := setTask slot { t' with stage := 1 } s
        { s with orgue := { s.orgue with ready := s.orgue.ready ++ [slot] } }
      else setTask slot t' s

/-- The ready tasks that a completer may take, in the order in which they became ready. -/
def readyFor (s : State) (completer : Nat) : List (Nat × Task) :=
  let (k, n) := completerTarget completer
  s.orgue.ready.filterMap fun slot => match tget s.orgue.tasks slot with
    | some t => if t.kind = k ∧ t.cluster = targetCluster k n ∧ t.stage = 1 then some (slot, t) else none
    | none => none

/-- The head of the highest-priority list: the least PRIO, the earliest ready within it (R382). -/
def headTask : List (Nat × Task) → Option (Nat × Task)
  | [] => none
  | x :: r => match headTask r with
    | none => some x
    | some y => if y.2.prio < x.2.prio then some y else some x

/-- A completer takes tasks while it runs none, its hold has room, and it is in service (R382, R389). -/
def completerFree (s : State) (c : Nat) : Bool :=
  (tget s.orgue.running c).isNone && decide ((tgetD s.orgue.holds c []).length < 4) && !s.orgue.quarantined.contains c

/-- The completers of a target (Table 14-3). -/
def completersOf (k : TargetKind) (cluster : Nat) : List Nat :=
  (List.range 224).filter fun n => decide (completerTarget n = (k, cluster)) || (decide (targetGroup k = 2) && decide ((completerTarget n).1 = k))

/-- A completer is out of service; its task goes back to the head of the ready tasks with the same SEQ, counted (R386, Table 14-6). -/
def quarantine (completer : Nat) (s : State) : State :=
  let o := s.orgue
  let o := { o with quarantined := if o.quarantined.contains completer then o.quarantined else o.quarantined ++ [completer] }
  match tget o.running completer with
  | none => { s with orgue := o }
  | some slot =>
    count1 (orgCtr 0x20)
      { s with orgue := { o with running := tdel o.running completer, ready := slot :: o.ready, tasks := tupd o.tasks slot fun t => { t with stage := 1 } } }

/-! ### Release (R384-R386) -/

/-- One SEQ of a flow comes before another; SEQ wraps at 32 bits, and a flow holds at most 4,096 tasks (R378, R384). -/
def seqBefore (a b : Nat) : Bool := decide (a ≠ b) && decide ((b + 2 ^ 32 - a) % 2 ^ 32 < 2 ^ 31)

/-- A collected task may be released: it is unordered, or no task of its flow with a lower SEQ is in flight (R384). -/
def releasable (s : State) (f : Nat) (t : Task) : Bool :=
  decide (t.flow = f) && decide (t.stage = 4) &&
  (!t.ordered || !s.orgue.tasks.any fun kt => decide (kt.2.flow = f) && seqBefore kt.2.seq t.seq)

/-- The releasable task of a flow whose SEQ comes first. -/
def nextRelease (s : State) (f : Nat) : Option (Nat × Task) :=
  (tfilter s.orgue.tasks fun _ t => releasable s f t).foldl (fun best kt => match best with
    | none => some kt
    | some b => if seqBefore kt.2.seq b.2.seq then some kt else some b) none

/-- The result of a task is there: what waits for it alone becomes ready, and its packets may leave (R380, R385). -/
def wake (num : Nat) (s : State) : State :=
  let s := { s with
    media := { s.media with egress := s.media.egress.map fun (p : EgPkt) => if p.wait = some num then { p with wait := none } else p }
    orgue := { s.orgue with
      stalled := s.orgue.stalled.map fun (x : Stalled) => { x with waits := x.waits.filter (· != num) }
      tasks := tmap s.orgue.tasks fun _ (t : Task) => { t with waits := t.waits.filter (· != num) } } }
  (s.orgue.tasks.filter fun kt => kt.2.job.isSome && kt.2.waits.isEmpty && kt.2.stage == 0).foldl (fun s (kt : Nat × Task) =>
    setFlags kt.1 (tgetD s.orgue.gens kt.1 0) 1 s) s

/-- A flow whose object is gone returns with its last task (R383). -/
def endFlow (f : Nat) (s : State) : State :=
  if s.orgue.closing.contains f ∧ (flowOf s f).inFlight = 0 then
    { s with orgue := { s.orgue with closing := s.orgue.closing.filter (· != f), owners := tdel s.orgue.owners f, flows := tdel s.orgue.flows f } }
  else s

/-- Return a task's slot, its generation advanced, and count its release; then what stalled tries again (R378, R385, R386). -/
def returnSlot (slot : Nat) (t : Task) (s : State) : State :=
  let s := if t.empty then count1 (orgCtr 0x1C) s else s
  let fl := flowOf s t.flow
  let o := s.orgue
  let s := count1 (orgCtr (0x10 + 4 * targetGroup t.kind))
    { s with orgue := { o with
      tasks := tdel o.tasks slot, gens := tput o.gens slot ((tgetD o.gens slot 0 + 1) % 256), freed := o.freed ++ [slot],
      ready := o.ready.filter (· != slot), used := o.used - 1, plain := o.plain - (if t.audio then 0 else 1),
      flows := tput o.flows t.flow { fl with nextRel := (t.seq + 1) % 2 ^ 32, inFlight := fl.inFlight - 1 } } }
  retryStalled (endFlow t.flow (wake t.num s))

/-! ### Work that is done in one step (R9, R378-R386) -/

/-- A free completer can take the task's work now, and the task finds a slot. -/
def mayPass (s : State) (t : TaskReq) : Bool := !admitStalls s t && (completersOf t.kind (targetCluster t.kind t.cluster.val)).any (completerFree s)

/-- Work that begins and ends within one step passes through the Orgue: its task is admitted, taken, collected and released (log entry 160). -/
def throughOrgue (t : TaskReq) (s : State) : State :=
  let n := s.orgue.born + 1
  let s := enterTask { req := t, num := n, waits := [], job := none } { s with orgue := { s.orgue with born := n } }
  match tfind s.orgue.tasks fun _ x => decide (x.num = n) with
  | some (slot, x) => returnSlot slot x s
  | none => s

/-- A producer whose task finds no slot stalls, counted, and tries again (R379). -/
def noteStall (t : TaskReq) (s : State) : State := if admitStalls s t then count1 (orgCtr 0x24) s else s

/-! ### The flow of an object (R383) -/

/-- The lowest flow number from n on that is free. -/
def freeFlowFrom (t : Tbl Nat) : Nat → Nat → Nat
  | 0, n => n
  | fuel + 1, n => match tget t n with
    | none => n
    | some _ => freeFlowFrom t fuel (n + 1)

/-- Assign a flow to an object: the lowest free number (DESIGN CHOICE, log entry 16). -/
def giveFlow (owner : Nat) (s : State) : State :=
  let f := freeFlowFrom s.orgue.owners s.orgue.owners.length 0
  { s with orgue := { s.orgue with owners := tput s.orgue.owners f owner } }

/-- The flow of an object. -/
def flowFor (s : State) (owner : Nat) : Option Nat :=
  (tfind s.orgue.owners fun f o => decide (o = owner) && !s.orgue.closing.contains f).map (·.1)

/-- The task of work that is released as it completes, on an object's flow. -/
def passingTask (owner : Nat) (kind : TargetKind) (cluster : Nat) (prio : Fin 64) (audio empty : Bool) (s : State) : TaskReq :=
  { flags := 0, mask := 0, prio := prio, kind := kind, cluster := Fin.ofNat 8 cluster, flow := BitVec.ofNat 16 ((flowFor s owner).getD 65535),
    ordered := false, audio := audio, empty := empty, dependants := [], writes := [] }

/-- A producer admits work of its own on an object's flow, in order (R383, R384). -/
def produceFor (owner : Nat) (kind : TargetKind) (cluster : ClusterNo) (prio : Fin 64) (empty : Bool) (waits : List Nat) (job : Job) (s : State) : Nat × State :=
  produce { flags := 0, mask := 1, prio := prio, kind := kind, cluster := cluster, flow := BitVec.ofNat 16 ((flowFor s owner).getD 65535), ordered := true,
            audio := false, empty := empty, dependants := [], writes := [] } waits (some job) s

/-- The object of a flow is freed: its tasks complete as cancelled, and the flow returns after the last of them (R383, R386). A cancelled task that
no engine runs is released at once. -/
def closeFlow (owner : Nat) (s : State) : State :=
  match flowFor s owner with
  | none => s
  | some f =>
    let mine := s.orgue.tasks.filter fun kt => decide (kt.2.flow = f) && kt.2.job.isSome
    let waiting := s.orgue.stalled.filter fun x => decide (x.req.flow.toNat = f) && x.job.isSome
    let s := { s with orgue := { s.orgue with
      closing := s.orgue.closing ++ [f], stalled := s.orgue.stalled.filter fun x => !(decide (x.req.flow.toNat = f) && x.job.isSome)
      tasks := tmap s.orgue.tasks fun _ t => if t.flow = f ∧ t.job.isSome then { t with empty := true, job := none } else t } }
    let s := waiting.foldl (fun s x => wake x.num s) s
    endFlow f ((mine.filter fun kt => kt.2.stage != 2 && kt.2.stage != 3).foldl (fun s (kt : Nat × Task) =>
      returnSlot kt.1 { kt.2 with empty := true } s) s)

end Sys2Proof.Machine
end

