-- ==== Sys2Proof/Machine/Pools.lean ====
section
/-! DEFINITION. Spill queues, buffer pools and the HBM partition (chapter 12; R19-R22). -/

namespace Sys2Proof.Machine

/-! ### Queues and flows of an object (R341, R383) -/

/-- The capacity Q of each kind of Table 12-3. -/
def queueCap : Nat → Nat
  | 0 => 4194304
  | 1 => 4096
  | 2 => 512
  | 3 => 8192
  | 4 => 4096
  | 5 => 16384
  | 6 => 512
  | 7 => 4096
  | _ => 1024

/-- Pinned kinds of Table 12-3. -/
def queuePinned (k : Nat) : Bool := [0, 1, 2, 5, 6, 7].contains k

/-- Kinds whose producer and consumer share the CORE domain run in packet mode (R342). -/
def queuePacket (k : Nat) : Bool := [0, 3, 4, 8].contains k

/-- Granules of 4 KiB of middle space that a queue of the kind reserves (R341). -/
def queueGranules (k : Nat) : Nat := ceilDiv ((queueCap k - 16) * 32) 4096

/-- The lowest queue number from n on that is free. -/
def freeQueueFrom (t : Tbl SpillQ) : Nat → Nat → Nat
  | 0, n => n
  | fuel + 1, n => match tget t n with
    | none => n
    | some _ => freeQueueFrom t fuel (n + 1)

/-- The number that the next queue receives: the lowest free one (DESIGN CHOICE, log entry 16). -/
def nextQueue (t : Tbl SpillQ) : Nat := freeQueueFrom t t.length 0

/-- Take a free spill queue frame: the ones never used first, then the one returned longest ago. -/
def takeFrame (m : Mem) : Option Nat × Mem :=
  if m.frameFresh < 32768 then (some m.frameFresh, { m with frameFresh := m.frameFresh + 1 })
  else match m.frameFreed with
    | [] => (none, m)
    | f :: r => (some f, { m with frameFreed := r })

/-- Return a frame. -/
def giveFrame (f : Option Nat) (m : Mem) : Mem :=
  match f with
  | none => m
  | some n => { m with frameFreed := m.frameFreed ++ [n] }

/-- Create a queue of a kind for an object (R340, R341). -/
def createQueue (owner k : Nat) (m : Mem) : Mem :=
  let n := nextQueue m.queues
  let (f, m) := if queuePinned k then takeFrame m else (none, m)
  { m with queues := tput m.queues n { kind := k, owner := owner, cap := queueCap k, pinned := queuePinned k,
                                        pkt := queuePacket k, frame := f },
           midFree := m.midFree - queueGranules k }

/-- Whether the middle region or the queue numbers lack room for these kinds (R341). -/
def lacksQueues (s : State) (kinds : List Nat) : Bool :=
  decide (s.mem.midFree < total (kinds.map queueGranules)) || decide (65536 < s.mem.queues.length + kinds.length)

/-- Whether too few ordered flows are free (R383). -/
def lacksFlows (s : State) (n : Nat) : Bool := decide (65536 < s.orgue.owners.length + n)

/-- Reserve an object's queues and flows at its creation (R341, R383). -/
def reserveFor (owner : Nat) (kinds : List Nat) (flows : Nat) (s : State) : State :=
  (List.range flows).foldl (fun s _ => giveFlow owner s) { s with mem := kinds.foldl (fun m k => createQueue owner k m) s.mem }

/-- The reference of an object in a queue's owner field. -/
def objRef (ty i : Nat) : Nat := ty * 65536 + i

/-- The reference of a media ring in a queue's owner field. -/
def ringRef (f n : Nat) : Nat := 16777216 + f * 16384 + n

/-- Order-13 checks of the queues and flows that a command takes (R341, R383). -/
def queueChecks (s : State) (kinds : List Nat) (flows : Nat) : List Check :=
  [noResource (lacksQueues s kinds) 0x0107, noResource (lacksFlows s flows) 0x0109]

/-! ### Buffer pools (R347-R357) -/

/-- Buffer size of a class (Table 12-5). -/
def classSize : Nat → Nat
  | 0 => 256
  | 1 => 1024
  | 2 => 2048
  | 3 => 4096
  | 4 => 10240
  | _ => 65536

/-- Buffer counts of classes 3-5 in a region of so many MiB (R347). -/
def classCounts (mib : Nat) : List Nat :=
  let r := mib * 1048576
  let c4 := r / 4 / 10240
  let c5 := r / 2 / 65536
  let c3 := r / 4 / 4096
  let most := 4194304 - 32768 - 8192 - 24576 - c4 - c5
  [if most < c3 then most else c3, c4, c5]

/-- The smallest class whose buffers hold the size (R351). -/
def fitClass (size : Nat) : Nat :=
  if size ≤ 256 then 0 else if size ≤ 1024 then 1 else if size ≤ 2048 then 2 else if size ≤ 4096 then 3
  else if size ≤ 10240 then 4 else 5

/-- Free buffers of a class; a class being rebuilt counts as empty (R348). -/
def Pool.free (p : Pool) : Nat := if p.rebuild.isSome then 0 else p.count - p.fresh + p.freed.length

/-- The class has no holder left. -/
def Pool.unheld (p : Pool) : Bool := p.holders.isEmpty

/-- The classes that exist: 0-2 in Blotter service, all six in full service (R457). -/
def classTop (s : State) : Nat := if s.nose.service = .full then 6 else 3

/-- The class that serves a request that has reached class c: the first with a free buffer below `top` (R351). -/
def serveClass (pools : List Pool) (top : Nat) : Nat → Nat → Option Nat
  | 0, _ => none
  | fuel + 1, c => if top ≤ c then none else
    match pools[c]? with
    | none => none
    | some p => if 0 < p.free then some c else serveClass pools top fuel (c + 1)

/-- The handle of a buffer (Table 12-6). -/
def bufHandle (c i g : Nat) : Word := BitVec.ofNat 32 (c * 2 ^ 29 + i * 128 + g)

/-- Allocate from a class: the index, and the class with it HELD by an owner (R354). -/
def Pool.take (p : Pool) (owner : Nat) : Nat × Pool :=
  let (i, p) := if p.fresh < p.count then (p.fresh, { p with fresh := p.fresh + 1 })
    else match p.freed with
      | [] => (0, p)
      | i :: r => (i, { p with freed := r })
  let p := { p with holders := tput p.holders i (.held owner) }
  (i, { p with lowest := if p.free < p.lowest then p.free else p.lowest })

/-- Owner ID of a requester port (Tables 12-7, 12-8). -/
def portOwner : Nat → Nat
  | 8 => 0x10
  | 9 => 0x60
  | 10 => 0x31
  | 11 => 0x40
  | 12 => 0x50
  | 13 => 0x70
  | 14 => 0x80
  | n => n

/-- A buffer request (R351-R353): the handle, or none when every class from the fitting one upward is empty. -/
def requestBuffer (port size : Nat) (s : State) : Option Word × State :=
  let c0 := fitClass size
  let got := serveClass s.mem.pools (classTop s) 6 c0
  let last := match got with
    | some c => c
    | none => classTop s - 1
  let s := (List.range 6).foldl (fun s c => if c0 < c ∧ c ≤ last then
      count1 (memCtr (0x8 + c * 0x10)) { s with mem := { s.mem with pools := modAt s.mem.pools c fun p =>
        { p with movedUp := p.movedUp + 1 } } } else s) s
  let s := { s with mem := { s.mem with cycle := s.mem.cycle + 1 } }
  match got with
  | none => (none, count1 (memCtr (0xC + c0 * 0x10)) { s with mem := { s.mem with granted := none } })
  | some c =>
    match s.mem.pools[c]? with
    | none => (none, s)
    | some p =>
      let (i, p') := p.take (portOwner port)
      let h := bufHandle c i (tgetD p.gens i 1)
      (some h, { s with mem := { s.mem with pools := modAt s.mem.pools c (fun _ => p'), granted := some h } })

/-- BUFFER_REQUEST: one request of a requester port (R351-R353). The reserved port 15 and a size outside 1-65,536
name no request. -/
def execBufferRequest (port : Fin 16) (size : Nat) (s : State) : Host.Outcome State Fault Refusal :=
  done s (if port.val = 15 ∨ size = 0 ∨ 65536 < size then s else (requestBuffer port.val size s).2)

/-- Why the pool manager rejects a free or handoff (Table 12-9). -/
inductive BadFree where
  | invalid
  | stale
  | double
  | foreign
  deriving DecidableEq, Repr

def BadFree.code : BadFree → Nat
  | .invalid => 0
  | .stale => 1
  | .double => 2
  | .foreign => 3

/-- Consumer kind bit of an owner (Table 12-8). -/
def consumerBit (owner : Nat) : Option Nat :=
  if owner = 0x30 then some 0 else if owner / 16 = 4 ∧ owner % 16 < 8 then some 1
  else if owner / 16 = 5 ∧ owner % 16 < 8 then some 2 else if owner = 0x60 then some 3 else none

/-- The checks of Table 12-9 in order. -/
def freeCheck (pools : List Pool) (owner : Nat) (h : Word) : Option BadFree :=
  let c := bits h.toNat 29 3
  let i := bits h.toNat 7 22
  let g := bits h.toNat 0 7
  match pools[c]? with
  | none => some .invalid
  | some p =>
    if p.count ≤ i then some .invalid
    else if g ≠ tgetD p.gens i 1 then some .stale
    else match tget p.holders i with
      | none => some .double
      | some (.held o) => if o = owner then none else some .foreign
      | some (.shared m) =>
        match consumerBit owner with
        | none => some .foreign
        | some b => if m.getLsbD b then none else some .double

/-- A buffer returns to its pool and its generation advances, 127 wrapping to 1 (R350). -/
def Pool.give (p : Pool) (i : Nat) : Pool :=
  let g := tgetD p.gens i 1
  { p with holders := tdel p.holders i, gens := tput p.gens i (if g = 127 then 1 else g + 1), freed := p.freed ++ [i] }

/-- A free by an owner, already checked. -/
def Pool.release (p : Pool) (i owner : Nat) : Pool :=
  match tget p.holders i with
  | some (.shared m) =>
    let m' := m &&& ~~~(1#4 <<< ((consumerBit owner).getD 0))
    if m' = 0 then p.give i else { p with holders := tput p.holders i (.shared m') }
  | _ => p.give i

/-- Classes 3-5 are rebuilt to their new counts once every buffer of them is free (R348, R350). -/
def rebuildPools (pools : List Pool) : List Pool :=
  if (pools.drop 3).all (·.unheld) then
    pools.map fun p => match p.rebuild with
      | none => p
      | some n => { count := n, lowest := n, movedUp := p.movedUp }
  else pools

/-- Count and report a rejected free, at most 1,000 events a second (R356). -/
def rejectFree (owner : Nat) (h : Word) (b : BadFree) (s : State) : State :=
  let s := count1 (memCtr (0x100 + 4 * b.code)) s
  let sec := nowSec s
  let n := if s.mem.badSec = sec then s.mem.badCount else 0
  let s := { s with mem := { s.mem with badSec := sec, badCount := n + 1 } }
  if n < 1000 then postEvent 0 evBadFree 0 h.toNat owner b.code s else s

/-- A free (`handoff` none) or a handoff to another owner (R354, R355). -/
def freeBuffer (owner : Nat) (h : Word) (handoff : Option Nat) (s : State) : State :=
  match freeCheck s.mem.pools owner h with
  | some b => rejectFree owner h b s
  | none =>
    let c := bits h.toNat 29 3
    let i := bits h.toNat 7 22
    let f : Pool → Pool := match handoff with
      | none => fun p => p.release i owner
      | some o => fun p => { p with holders := tput p.holders i (.held o) }
    { s with mem := { s.mem with pools := rebuildPools (modAt s.mem.pools c f) } }

/-- BUFFER_FREE: a free or a handoff is checked, then carried out or rejected (R354-R356). -/
def execBufferFree (owner : Nat) (handle : Word) (handoff : Option Nat) (s : State) : Host.Outcome State Fault Refusal :=
  done s (freeBuffer owner handle handoff s)

/-- BUFFER_SHARE: the holder shares a buffer with the mask of its consumers (R354); a buffer that the producer does not hold,
or an empty mask, names no share. -/
def shareBuffer (owner : Nat) (handle : Word) (mask : BitVec 4) (s : State) : State :=
  if freeCheck s.mem.pools owner handle = none ∧ mask ≠ 0 then
    { s with mem := { s.mem with pools := modAt s.mem.pools (bits handle.toNat 29 3) fun p =>
        { p with holders := tput p.holders (bits handle.toNat 7 22) (.shared mask) } } }
  else s

def execBufferShare (owner : Nat) (handle : Word) (mask : BitVec 4) (s : State) : Host.Outcome State Fault Refusal := done s (shareBuffer owner handle mask s)

/-- Buffers that held a spill queue's middle return to their pools (R457); the manual gives their holder no owner ID (DESIGN CHOICE, log
entry 169: the Nose's). -/
def giveMiddle (hs : List Word) (m : Mem) : Mem :=
  hs.foldl (fun m h => if freeCheck m.pools 0x70 h = none then
    { m with pools := rebuildPools (modAt m.pools (bits h.toNat 29 3) fun p => p.release (bits h.toNat 7 22) 0x70) } else m) m

/-- Give an object's queues and flows back when it is freed (R341, R383). -/
def releaseFor (owner flows : Nat) (s : State) : State :=
  let mine := tfilter s.mem.queues fun _ q => decide (q.owner = owner)
  let m := mine.foldl (fun m kq => giveFrame kq.2.frame
    { giveMiddle kq.2.midBufs m with queues := tdel m.queues kq.1, midFree := m.midFree + queueGranules kq.2.kind }) s.mem
  (List.range flows).foldl (fun s _ => closeFlow owner s) { s with mem := m }

/-- Give back one queue of a kind that an object holds. -/
def releaseQueue (owner k flows : Nat) (s : State) : State :=
  let m := match tfind s.mem.queues fun _ q => decide (q.owner = owner) && decide (q.kind = k) with
    | none => s.mem
    | some (n, q) => giveFrame q.frame
        { giveMiddle q.midBufs s.mem with queues := tdel s.mem.queues n, midFree := s.mem.midFree + queueGranules k }
  (List.range flows).foldl (fun s _ => closeFlow owner s) { s with mem := m }

/-! ### Spill queues (R338-R346) -/

/-- Entries in a queue. -/
def SpillQ.size (q : SpillQ) : Nat := q.head.length + q.middle.length + q.tail.length

/-- All entries, oldest first. -/
def SpillQ.entries (q : SpillQ) : List SqEntry := q.head ++ q.middle ++ q.tail

/-- The producer sees the queue full (R345); within one domain the indexes are shared directly. -/
def SpillQ.full (q : SpillQ) : Bool := decide (q.cap ≤ q.wr - (if q.pkt then q.rd else q.rdSync))

/-- Entries that the consumer sees: in packet mode whole packets, else what has crossed (R342, R345). -/
def SpillQ.visible (q : SpillQ) : Nat := if q.pkt then q.wr - q.open_ - q.rd else q.wrSync - q.rd

/-- Put entries at their places: tail entries move to the head while the middle is empty and the head has room, a full tail goes to
the middle, the head is refilled from the middle first (R339). Without a frame everything stands in the middle (R340). -/
def SpillQ.settle (q : SpillQ) : SpillQ :=
  if q.frame.isNone then { q with head := [], middle := q.entries, tail := [] }
  else
    let h := q.head ++ q.middle.take (8 - q.head.length)
    let m := q.middle.drop (8 - q.head.length)
    if m.isEmpty then
      let h' := h ++ q.tail.take (8 - h.length)
      let t := q.tail.drop (8 - h.length)
      if t.length < 8 then { q with head := h', middle := [], tail := t }
      else { q with head := h', middle := t.take 8, tail := t.drop 8 }
    else if q.tail.length < 8 then { q with head := h, middle := m }
    else { q with head := h, middle := m ++ q.tail.take 8, tail := q.tail.drop 8 }

/-- The queue with its oldest n entries alone. -/
def SpillQ.keepFirst (q : SpillQ) (n : Nat) : SpillQ :=
  { q with head := q.head.take n, middle := q.middle.take (n - q.head.length), tail := q.tail.take (n - q.head.length - q.middle.length) }

/-- The queue without its oldest n entries. -/
def SpillQ.dropFirst (q : SpillQ) (n : Nat) : SpillQ :=
  { q with head := q.head.drop n, middle := q.middle.drop (n - q.head.length), tail := q.tail.drop (n - q.head.length - q.middle.length) }

/-- Class 0 buffers that a middle fills, 8 entries to a buffer (R457). -/
def SpillQ.midNeed (q : SpillQ) : Nat := ceilDiv q.middle.length 8

/-- The owner ID that consumes a queue of a kind, for the buffer handles it frees (Tables 12-3, 12-8). -/
def consumerOf (k : Nat) : Nat :=
  match k with
  | 0 => 0x20
  | 1 => 0x40
  | 2 => 0x50
  | 3 => 0x30
  | 4 => 0x60
  | 5 => 0x31
  | 6 => 0x31
  | _ => 0x70

/-- The holder under which a consumer of the kind frees a buffer: itself, or the cluster of its kind that holds it. -/
def holderFor (pools : List Pool) (k : Nat) (h : Word) : Nat :=
  match (pools[bits h.toNat 29 3]?).bind fun p => tget p.holders (bits h.toNat 7 22) with
  | some (.held o) => if o / 16 = consumerOf k / 16 then o else consumerOf k
  | _ => consumerOf k

/-- Free the buffers of discarded entries as the consumer (R346). -/
def freeEntries (k : Nat) (es : List SqEntry) (s : State) : State :=
  es.foldl (fun s e => freeBuffer (holderFor s.mem.pools k e.buf) e.buf none s) s

/-- The state with a queue replaced. -/
def setQueue (n : Nat) (q : SpillQ) (s : State) : State := { s with mem := { s.mem with queues := tput s.mem.queues n q } }

/-- A queue after entries have left it: the buffers that its middle no longer fills return (R457). -/
def placeQueue (n : Nat) (q : SpillQ) (s : State) : State :=
  setQueue n { q with midBufs := q.midBufs.take q.midNeed } { s with mem := giveMiddle (q.midBufs.drop q.midNeed) s.mem }

/-- A queue to which an entry was written. In Blotter service a middle that outgrows its buffers takes one more; with none to be had
the producer stalls, and the queue stays as it was (R352, R457). -/
def growQueue (n : Nat) (old q : SpillQ) (s : State) : State :=
  if inBlotter s ∧ q.midBufs.length < q.midNeed then
    match requestBuffer 13 256 s with
    | (some h, s) => setQueue n { q with midBufs := q.midBufs ++ [h] } s
    | (none, s) => setQueue n old s
  else placeQueue n q s

/-- An unpinned queue takes a free frame when an entry is first written to it (R340). -/
def withFrame (q : SpillQ) (s : State) : SpillQ × State :=
  if q.frame.isSome then (q, s) else
    let (f, m) := takeFrame s.mem
    match f with
    | some n => ({ q with frame := some n }, { s with mem := m })
    | none => (q, count1 (memCtr 0x20C) s)

/-- SQ_WRITE: a producer writes an entry into the tail (R338-R340, R344, R345); a full queue stalls its producer, and a queue that does
not exist takes nothing. While a DISCARD_REST drops the packet's rest, the entry is dropped (R346). -/
def writeQueue (queue : Nat) (e : SqEntry) (s : State) : State :=
  match tget s.mem.queues queue with
  | none => s
  | some q =>
    let q := { q with rdSync := q.rd }
    if q.full then setQueue queue q s
    else if q.disc then
      let s := count1 (memCtr 0x210) (setQueue queue { q with disc := !e.eop, inPkt := !e.eop } s)
      freeEntries q.kind [e] s
    else
      let (q, s) := withFrame q s
      growQueue queue q (SpillQ.settle { q with
        tail := q.tail ++ [e], wr := q.wr + 1, open_ := if q.pkt then (if e.eop then 0 else q.open_ + 1) else 0 }) s

def execSqWrite (queue : Nat) (e : SqEntry) (s : State) : Host.Outcome State Fault Refusal := done s (writeQueue queue e s)

/-- SQ_READ: a consumer reads the oldest entry that it sees (R339, R342, R344, R345). -/
def readQueue (queue : Nat) (s : State) : State :=
  match tget s.mem.queues queue with
  | none => s
  | some q =>
    let q := { q with wrSync := q.wr }
    match q.entries with
    | [] => setQueue queue q s
    | e :: _ =>
      if q.visible = 0 then setQueue queue q s
      else
        let q' := match q.head, q.middle with
          | _ :: h, _ => { q with head := h }
          | [], _ :: m => { q with middle := m }
          | [], [] => { q with tail := q.tail.drop 1 }
        placeQueue queue (SpillQ.settle { q' with
          rd := q.rd + 1, inPkt := !e.eop, last := some e }) s

def execSqRead (queue : Nat) (s : State) : Host.Outcome State Fault Refusal := done s (readQueue queue s)

/-- SQ_RETRACT: the producer of a packet-mode queue removes its unfinished packet; its holds on the buffers return (R342). -/
def retractQueue (queue : Nat) (s : State) : State :=
  match tget s.mem.queues queue with
  | none => s
  | some q =>
    if q.pkt ∧ 0 < q.open_ then
      let all := q.entries
      let gone := all.drop (all.length - q.open_)
      let q' := SpillQ.settle { q.keepFirst (all.length - q.open_) with wr := q.wr - q.open_, open_ := 0 }
      let s := count1 (memCtr 0x218) (placeQueue queue q' s)
      gone.foldl (fun s e =>
        match (s.mem.pools[bits e.buf.toNat 29 3]?).bind fun p => tget p.holders (bits e.buf.toNat 7 22) with
        | some (.held o) => freeBuffer o e.buf none s
        | _ => s) s
    else s

def execSqRetract (queue : Nat) (s : State) : Host.Outcome State Fault Refusal := done s (retractQueue queue s)

/-- The entries up to and including the first EOP, and whether there is one. -/
def throughEop : List SqEntry → List SqEntry × List SqEntry × Bool
  | [] => ([], [], false)
  | e :: r => if e.eop then ([e], r, true) else
    let (a, b, f) := throughEop r
    (e :: a, b, f)

/-- DISCARD_REST: the consumer drops the unread rest of the packet it is reading; with none in progress, or a second time within one, it has no
effect and is counted (R346). -/
def discardRest (queue : Nat) (s : State) : State :=
  match tget s.mem.queues queue with
  | none => s
  | some q =>
    if q.inPkt ∧ ¬ q.disc then
      let (gone, _, found) := throughEop q.entries
      let q' := SpillQ.settle { q.dropFirst gone.length with
        rd := q.rd + gone.length, inPkt := !found, disc := !found, open_ := if found then q.open_ else 0 }
      freeEntries q.kind gone (count 0 (memCtr 0x210) gone.length (placeQueue queue q' s))
    else count1 (memCtr 0x214) s

def execDiscardRest (queue : Nat) (s : State) : Host.Outcome State Fault Refusal := done s (discardRest queue s)

/-- The queue of a kind that an object holds. -/
def queueOf (s : State) (owner kind : Nat) : Option Nat :=
  (tfind s.mem.queues fun _ q => decide (q.owner = owner) && decide (q.kind = kind)).map (·.1)

/-- The entries of a packet: its buffers with the bytes used in each (R338). -/
def packetEntries (bufs : List (Word × Nat)) (err : Bool) (obj : Handle) (time ord flow : Nat) : List SqEntry :=
  (indexed bufs).map fun (j, b) =>
    let eop := decide (j + 1 = bufs.length)
    { buf := b.1, sop := decide (j = 0), eop := eop, err := err && eop, len := BitVec.ofNat 17 b.2, off := 0, obj := obj,
      time := BitVec.ofNat 64 time, ord := BitVec.ofNat 32 ord, flow := BitVec.ofNat 16 flow, tag := 0 }

/-- Write a packet's entries. -/
def putPacket (queue : Nat) (es : List SqEntry) (s : State) : State := es.foldl (fun s e => writeQueue queue e s) s

/-- Read n entries. -/
def takeEntries (queue n : Nat) (s : State) : State := (List.range n).foldl (fun s _ => readQueue queue s) s

/-- SQ_FRAME_RELEASE: an unpinned queue that has been empty for 4,096 CORE cycles returns its frame (R340). -/
def execSqFrameRelease (queue : Nat) (s : State) : Host.Outcome State Fault Refusal :=
  done s <|
    match tget s.mem.queues queue with
    | none => s
    | some q =>
      if ¬ q.pinned ∧ q.size = 0 ∧ q.frame.isSome then
        setQueue queue { q with frame := none } { s with mem := giveFrame q.frame s.mem }
      else s

/-! ### POOL_QUERY (R357) -/

/-- The 16-byte record of a class. -/
def poolRecord (p : Pool) : List Byte :=
  leBytes 4 p.count ++ leBytes 4 p.free ++ leBytes 4 p.lowest ++ leBytes 4 p.movedUp

/-- POOL_QUERY: 96 bytes; the lowest-free and moved-up values restart for tenant 0 only. -/
def rulePoolQuery : CmdRule where
  op := 0x0D03
  plen := .fixed 12
  zeroFields c _ := [zeroAt c 24 4]
  fields c _ := [failIf (decide (c.u32 24 < 96)) stLength 24]
  effect c s :=
    let s1 := output (c.u64 16) (s.mem.pools.flatMap poolRecord) s
    ({}, if c.fn.val = 0 then
      { s1 with mem := { s1.mem with pools := s1.mem.pools.map fun p => { p with lowest := p.free, movedUp := 0 } } } else s1)

def execPoolQuery (c : Cmd) (s : State) : Host.Outcome State Fault Refusal := issue rulePoolQuery c s

/-! ### The HBM partition (R19-R22) -/

/-- The address at which region n of Table 01-9 starts: the regions follow each other in the order of the table (R19). Region 8 is the operator
region. -/
def Mem.regionBase (m : Mem) (n : Nat) : Nat := total (m.partition.take n) * 1048576

/-- The bytes of region n; the operator region takes the remainder of the 64 GiB (R19, R20). -/
def Mem.regionSize (m : Mem) (n : Nat) : Nat :=
  if n < 8 then m.partition.getD n 0 * 1048576 else 2 ^ 36 - m.regionBase 8

/-- The region of Table 01-9 that holds an HBM address. -/
def Mem.regionOf (m : Mem) (addr : Nat) : Nat := ((List.range 8).filter fun n => decide (m.regionBase (n + 1) ≤ addr)).length

/-- Minimum sizes in MiB and which regions are adjustable (Table 01-9). -/
def regionRule : List (Nat × Bool) :=
  [(4096, true), (2048, true), (1024, true), (2048, true), (256, true), (2048, false), (512, false), (512, false)]

/-- The eight sizes that PARTITION_SET carries. -/
def partitionSizes (c : Cmd) : List Nat := (List.range 8).map fun i => c.u32 (16 + 4 * i)

/-- The first size at which the running total exceeds 64 GiB. -/
def overTotal : Nat → Nat → List Nat → Option Nat
  | _, _, [] => none
  | i, sum, x :: r => if 65536 < sum + x then some i else overTotal (i + 1) (sum + x) r

/-- PARTITION_SET (R20): checks in order, then the new sizes; classes 3-5 are rebuilt (R348), middle space follows. A middle region smaller than what
live queues have reserved is accepted and leaves no free space (DESIGN CHOICE, log entry 159). -/
def rulePartitionSet : CmdRule where
  op := 0x0D01
  t0 := true
  logged := true
  bulk := true
  plen := .fixed 32
  zeroFields c _ := (List.range 8).map fun i => zeroAt c (16 + 4 * i) 4
  fields c _ := (indexed regionRule).map fun (i, min, adj) =>
    let x := c.u32 (16 + 4 * i)
    failIf (if adj then decide (x < min) || decide (x % 256 ≠ 0) else decide (x ≠ min)) stRange (16 + 4 * i)
  states _ s := [failIf (decide (0 < s.obj.confs.inUse)) stState 0]
  resources c _ := [match overTotal 0 0 (partitionSizes c) with
    | some i => some ⟨stNoResource, BitVec.ofNat 32 (16 + 4 * i)⟩
    | none => none]
  effect c s :=
    let sizes := partitionSizes c
    let old := s.mem.partition.getD 1 0
    let new := sizes.getD 1 0
    let counts := classCounts new
    let pools := if old = new then s.mem.pools else rebuildPools <| (indexed s.mem.pools).map fun (i, p) =>
      if 3 ≤ i then { p with rebuild := some (counts.getD (i - 3) 0) } else p
    let mid := s.mem.midFree + sizes.getD 3 0 * 256 - s.mem.partition.getD 3 0 * 256
    ({}, { s with mem := { s.mem with partition := sizes, pools := pools, midFree := mid } })

def execPartitionSet (c : Cmd) (s : State) : Host.Outcome State Fault Refusal := issue rulePartitionSet c s

/-- Bytes of a query output whose layout the manual does not give (log entry 10). -/
def openBytes (op : Nat) (obj : Handle) : List Byte :=
  (List.range (Config.querySize op).toNat).map fun i => Config.queryByte op obj.toNat i

/-- The rule of a query whose output block the manual does not lay out: a size below the block fails (log entry 10). -/
def queryRule (op : Nat) (types : List Nat) (anyTenant : Bool) : CmdRule where
  op := op
  types := types
  anyTenant := anyTenant
  plen := .fixed 12
  zeroFields c _ := [zeroAt c 24 4]
  fields c _ := [failIf (decide (c.u32 24 < (Config.querySize op).toNat)) stLength 24]
  effect c s := ({}, output (c.u64 16) (openBytes op c.object) s)

/-- PARTITION_QUERY: the output block's layout is not given (R85, log entry 10). -/
def rulePartitionQuery : CmdRule := queryRule 0x0D02 [] false

def execPartitionQuery (c : Cmd) (s : State) : Host.Outcome State Fault Refusal := issue rulePartitionQuery c s

end Sys2Proof.Machine
end

