-- ==== Sys2Proof/Machine/Resets.lean ====
section
/-! DEFINITION. What each reset keeps and what it returns to its reset value (R458-R460, Table 17-4), and the power-up timeline's first steps. -/

namespace Sys2Proof.Machine

/-! ### What survives (Table 17-4) -/

/-- Vectors after a SOFT reset: the MSI-X table stays, MOD_COUNT and MOD_TIME return to their reset values. -/
def softVectors (vs : Tbl Vector) : Tbl Vector :=
  tmap vs fun _ v => { v with modCount := 1, modTime := 0, unsignalled := 0, firstAt := 0 }

/-- A function after a SOFT reset: PCIe configuration space, so its power state and MSI-X table, stays. -/
def softFn (p : HstFn) : HstFn := { d3hot := p.d3hot, cfg := p.cfg, vectors := softVectors p.vectors }

/-- A stack after a SOFT reset: its training and lane repair stay. -/
def softStack (k : Stack) : Stack :=
  { trained := k.trained, trainFail := k.trainFail, trainStep := k.trainStep, repairCa := k.repairCa, repairDq := k.repairDq }

/-- The Memory Complex with a partition: pools of its sizes, no queues, the middle region free. -/
def memFor (partition : List Nat) : Mem :=
  let big := classCounts (partition.getD 1 0)
  let pools := [32768, 8192, 24576] ++ big
  { partition := partition, pools := pools.map fun n => { count := n, lowest := n }, midFree := partition.getD 3 0 * 256 }

/-- The twin after a reset that re-initialises the Twin Complex: the TWIN_ROLE strap decides its state (R417); its TWIN_LIVE_OUT is low and
TWIN_LIVE_IN a pin (R437). -/
def twinAtReset (s : State) : Twin := { state := if s.mon.twinRole then .solo else .withdrawn, liveIn := s.twin.liveIn }

/-- The Monitor Unit after a reset of `wide` kind (COLD or WARM) or SOFT: fuses, flash with the slot marked active (R473), sensors and pins stay, the
watchdog, MON_PWR_CTL and counters go, the operator lock and MON_TEMP_WARN only when wide. -/
def monAtReset (wide : Bool) (m : Mon) : Mon :=
  { m with
    bootStage := 0, slotB := false, fallback := false, staged := false
    quiesceEn := false, quiesce := false, softPending := none
    opLock := if wide then false else m.opLock, tempWarn := if wide then 95 else m.tempWarn
    sinceNs := if wide then 0 else m.sinceNs }

/-- The device after a reset, with what the kinds have in common: everything returns to its reset value but the AON domain, host memory, the
HBM partition given and what `hst`, `phys`, `stacks` keep. -/
def freshState (hst : Hst) (phys : Tbl Phys) (partition : List Nat) (stackTbl : Tbl Stack) (mon : Mon) (s : State) : State :=
  { pending := s.pending, free := s.free, hst := hst, nose := { siliconRev := s.nose.siliconRev },
    obj := { tenants := tenantZero, slots := tenantZeroSlots }, phys := phys, mem := memFor partition, hbm := { stackTbl := stackTbl },
    tim := { refclkLost := s.tim.refclkLost }, twin := twinAtReset s, mon := mon }

/-! ### COLD, WARM and SOFT (R458, R459) -/

/-- Every reset input allows the device to run: RESET_N, PWR_GOOD and PERST_N high, no THERM_TRIP_N held, REFCLK_SYS present (R466, R484). -/
def mayRun (m : Mon) : Bool := m.resetN && m.pwrGood && m.perstN && !m.thermTrip && m.refclkSys

/-- A COLD reset with its cause bit of Table 17-9: the whole device but the AON domain, the partition included. -/
def coldReset (cause : Nat) (s : State) : State :=
  let m := monAtReset true s.mon
  let m := { m with resetCause := m.resetCause ||| BitVec.ofNat 10 (2 ^ cause) }
  freshState { mem := s.hst.mem, badIova := s.hst.badIova } [] ({} : Mem).partition [] { m with inReset := !mayRun m } s

/-- A WARM reset: the whole device but AON and fuses; the HBM partition stays. -/
def warmReset (cause : Nat) (s : State) : State :=
  let m := monAtReset true s.mon
  let m := { m with resetCause := m.resetCause ||| BitVec.ofNat 10 (2 ^ cause) }
  freshState { mem := s.hst.mem, badIova := s.hst.badIova } [] s.mem.partition [] { m with inReset := !mayRun m } s

/-- A SOFT reset: everything but PCIe configuration space, the link, HBM training and AON (Table 17-3, Table 17-4). -/
def softReset (cause : Nat) (s : State) : State :=
  let m := monAtReset false s.mon
  let m := { m with resetCause := m.resetCause ||| BitVec.ofNat 10 (2 ^ cause), sinceNs := m.sinceNs + s.tim.c }
  let hst : Hst := { fns := tmap s.hst.fns fun _ p => softFn p, mem := s.hst.mem, badIova := s.hst.badIova, linkL1 := s.hst.linkL1, vfEnable := s.hst.vfEnable }
  freshState hst (tmap s.phys fun _ x => { laneMap := x.laneMap, mapErr := x.mapErr }) s.mem.partition
    (tmap s.hbm.stackTbl fun _ k => softStack k) m s

/-- An FLR of the PF: a SOFT reset that also resets configuration space, which disables every VF (R460). -/
def pfFlrReset (s : State) : State :=
  let s := softReset 9 s
  { s with hst := { s.hst with fns := [], vfEnable := false } }

/-! ### The SOFT reset of DEV_RESET (R459) -/

/-- A reply of one status for each of them. -/
def answerAll (st : Status) (s : State) : State :=
  let fs := unanswered s
  let s := { s with nose := { s.nose with bulk := [], waiting := [] } }
  let s := setSlots (fun t => { t with live := tmap t.live fun _ k => { k with eraseOwed := none } }) s
  fs.foldl (fun s f => answer f.opcode f.cmd { status := st } s) s

/-- The reset of an answered DEV_RESET starts once its reply has been written, and, after a planned switchover, once the other device has taken
over (R459). -/
def softDue (s : State) : State :=
  match s.mon.softPending with
  | none => s
  | some rpl =>
    let taken := !s.twin.switchReq && (!(s.twin.state == .standby) || decide (s.twin.peerState = 1))
    let written := !s.nose.behind.any fun h => decide (h.fn = 0) && decide (h.rplRing = rpl)
    if taken && written then softReset 8 (answerAll stCancelled s) else s

/-! ### The reset inputs as events -/

/-- The reset input that a COLD reset came by, and its bit of Table 17-9. -/
def coldBy (c : ColdCause) (s : State) : State :=
  match c with
  | .resetN => coldReset 1 { s with mon := { s.mon with resetN := false, thermTrip := false } }
  | .refclkLoss => coldReset 2 { s with mon := { s.mon with refclkSys := false } }
  | .vmonTrip => coldReset 3 s
  | .thermTrip => coldReset 4 { s with mon := { s.mon with thermTrip := true } }

/-- COLD_RESET. -/
def execColdReset (cause : ColdCause) (s : State) : Host.Outcome State Fault Refusal := doneAon s (coldBy cause s)

/-- REFCLK_SYS_LOSS: detected against the AON oscillator (R17). -/
def execRefclkSysLoss (s : State) : Host.Outcome State Fault Refusal := doneAon s (coldBy .refclkLoss s)

/-- THERM_TRIP: THERM_TRIP_N goes low and every clock but AON stops (R466). -/
def execThermTrip (_sensor : Fin 24) (s : State) : Host.Outcome State Fault Refusal := doneAon s (coldBy .thermTrip s)

/-- VMON_TRIP (R471). -/
def execVmonTrip (_monitor : Fin 16) (s : State) : Host.Outcome State Fault Refusal := doneAon s (coldBy .vmonTrip s)

/-- WARM_RESET: PERST_N low holds it; a hot reset or link down restarts the timeline at once (log entry 64). -/
def warmBy (c : WarmCause) (s : State) : State :=
  match c with
  | .perst => if s.mon.pwrGood then warmReset 5 { s with mon := { s.mon with perstN := false } } else s
  | .hotReset => warmReset 6 s
  | .linkDown => warmReset 7 s

def execWarmReset (cause : WarmCause) (s : State) : Host.Outcome State Fault Refusal := doneAon s (warmBy cause s)

/-- The device leaves reset when its last reset input is released: straps are sampled, counting starts (R452, R482). -/
def leaveReset (s : State) : State :=
  if s.mon.inReset ∧ mayRun s.mon then { s with mon := { s.mon with inReset := false, sinceNs := 0 }, twin := twinAtReset s } else s

/-- RESET_N_RELEASE: with TEST_MODE high no rule applies (R480). PWR_GOOD and the reference clocks are stable (R452), and the COLD reset that
RESET_N held is recorded (Table 17-9). -/
def execResetNRelease (s : State) : Host.Outcome State Fault Refusal :=
  if s.mon.testMode then .fault .testMode
  else doneAon s <|
    if s.mon.inReset ∧ ¬ s.mon.resetN then
      leaveReset { s with mon := { s.mon with resetN := true, pwrGood := true, refclkSys := true,
                                              resetCause := s.mon.resetCause ||| 2 } }
    else s

/-- PERST_N_RELEASE (R458). -/
def execPerstNRelease (s : State) : Host.Outcome State Fault Refusal :=
  doneAon s (leaveReset { s with mon := { s.mon with perstN := true } })

/-- AON_POWER_UP: loss and return of the AON supply. Fuses and flash stay; the SMBus address is sampled; the device stands in reset until RESET_N
rises (R472, R482, Table 17-9). -/
def execAonPowerUp (straps : BitVec 2) (s : State) : Host.Outcome State Fault Refusal :=
  let m : Mon := { flashA := s.mon.flashA, flashB := s.mon.flashB, activeB := s.mon.activeB,
                   rollback := s.mon.rollback, debugLock := s.mon.debugLock, fusedId := s.mon.fusedId, macBase := s.mon.macBase,
                   perstN := s.mon.perstN, testMode := s.mon.testMode, twinRole := s.mon.twinRole, trefSel := s.mon.trefSel,
                   smbStraps := straps, smbAddr := 0x4C + straps.zeroExtend 7 }
  doneAon s (freshState { mem := s.hst.mem, badIova := s.hst.badIova } [] ({} : Mem).partition [] m s)

/-- PF_FLR (R460). -/
def execPfFlr (s : State) : Host.Outcome State Fault Refusal := done s (pfFlrReset s)

end Sys2Proof.Machine
end

