-- ==== Sys2Proof/Machine/HostRings.lean ====
section
/-! DEFINITION. Rings, doorbells, admin rings, vectors and the command fetch (chapter 3). -/

namespace Sys2Proof.Machine

/-! ### Ring numbers (Table 03-7) -/

/-- The kind that a ring number fixes; none for a reserved number. -/
def kindOf (n : Nat) : Option RingKind :=
  if n < 16 then some .command else if n < 32 then some .reply else if n < 36 then some .event
  else if 64 ≤ n ∧ n < 16384 then some .media else none

/-- The admin rings (R66). -/
def isAdmin (n : Nat) : Bool := n == 0 || n == 16 || n == 32

/-- The host produces the ring: command and injection rings (Table 03-7). -/
def Ring.hostProduces (r : Ring) : Bool := r.kind == .command || (r.kind == .media && r.injection)

/-- The tenant of a function. -/
def tenantOf (s : State) (f : Nat) : Option Tenant := s.obj.tenants.at? f

/-- HST_FN_STATUS.LIVE (R62). -/
def live (s : State) (f : Nat) : Bool := (tenantOf s f).isSome

/-- Rings of a kind that a function holds. -/
def ringsHeld (s : State) (f : Nat) (k : RingKind) : Nat :=
  tcount (fnOf s f).rings fun _ r => r.kind == k && !(r.state == .free)

/-- A tenant's reservation for a kind (Table 02-4). -/
def Tenant.ringLimit (t : Tenant) : RingKind → Nat
  | .command => t.ringCmd
  | .reply => t.ringReply
  | .event => t.ringEvent
  | .media => t.ringMedia

/-- A RUNNING extraction media ring of a function (R41, R45, R499). -/
def isExtraction (s : State) (f n : Nat) : Bool :=
  match ringOf s f n with
  | some r => r.state == .running && r.kind == .media && !r.injection
  | none => false

/-! ### Held events -/

/-- Write the held events of an event ring while it has room, then EV_EVENT_LOST with the dropped count (R74). -/
def flushEvents (f n : Nat) : Nat → State → State
  | 0, s => s
  | fuel + 1, s =>
    match ringOf s f n with
    | none => s
    | some r =>
      if r.state == .running && !r.full && !(fnOf s f).d3hot && !(fnOf s f).flr then
        if ¬ entryReaches s f n ∧ (r.held ≠ [] ∨ r.dropped ≠ 0) then ringError f n 0x04 s
        else match r.held with
        | d :: rest => flushEvents f n fuel (putEvent f n d (setRing f n { r with held := rest } s))
        | [] =>
          if r.dropped = 0 then s
          else putEvent f n (eventDws f evEventLost 0 r.dropped 0 0 s) (setRing f n { r with dropped := 0 } s)
      else s

/-- EVENT_FLUSH: once the ring has room, its held events are written, then one EV_EVENT_LOST (R74). -/
def execEventFlush (fn : Fn) (ring : Nat) (s : State) : Host.Outcome State Fault Refusal :=
  done s (if kindOf ring = some .event then flushEvents fn.val ring 66 s else s)

/-! ### Doorbells (R69) -/

/-- The result of a doorbell on a ring: nothing, a new index, or ERROR with its cause. -/
inductive Ding where
  | same
  | moved (r : Ring)
  | error (cause : Byte)
  deriving DecidableEq, Repr

/-- Free the data area space of the entries that the host has consumed (R76). -/
def Ring.consume (r : Ring) (idx : Word) : Ring := { r with cons := idx, spaces := r.spaces.drop (idx - r.cons).toNat }

/-- The doorbell of a new index: the current value has no effect; the backward test comes before the capacity test (R69). -/
def ding (r : Ring) (v : Word) : Ding :=
  let old := if r.hostProduces then r.prod else r.cons
  if v = old then .same
  else if 2 ^ 31 ≤ (v - old).toNat then .error 0x02
  else if r.hostProduces then
    if r.entries < (v - r.cons).toNat then .error 0x01 else .moved { r with prod := v }
  else if r.entries < (r.prod - v).toNat then .error 0x01 else .moved (r.consume v)

/-- DOORBELL: a 4-byte write of a new index; another size, or a FREE or reserved ring, is discarded and counted (R69). A ring in ERROR
takes no index until it is reset (DESIGN CHOICE, log entry 17). -/
def execDoorbell (fn : Fn) (ring size : Nat) (value : Word) (s : State) : Host.Outcome State Fault Refusal :=
  done s <|
    match kindOf ring, ringOf s fn.val ring with
    | some _, some r =>
      if size ≠ 4 ∨ r.state = .free then badAccess fn.val s
      else if r.state = .error then s
      else match ding r value with
        | .same => s
        | .error c => ringError fn.val ring c s
        | .moved r' =>
          let s := setRing fn.val ring r' s
          if r.kind = .reply then softDue (flushReplies s) else s
    | _, _ => badAccess fn.val s

/-! ### Admin rings (R66, R454) -/

/-- What HST_ADM_CTL and the base registers hold now. -/
def HstFn.start (p : HstFn) : AdmStart :=
  { cmdBase := p.cmdBase, cmdWb := p.cmdWb, rplBase := p.rplBase, evtBase := p.evtBase, cmdLog2 := p.cmdLog2.toNat,
    rplLog2 := p.rplLog2.toNat, evtLog2 := p.evtLog2.toNat }

/-- ERR_RES: the tenant is not LIVE, or what its rings leave of its reservation, against which the admin rings count, lacks a command, reply or
event ring (Table 03-5, R66). -/
def startLacks (s : State) (f : Nat) : Bool :=
  match tenantOf s f with
  | none => true
  | some t => [RingKind.command, .reply, .event].any fun k => decide (t.ringLimit k ≤ ringsHeld s f k)

/-- ERR_CFG: a size code is out of range or a base is misaligned (Table 03-5). -/
def AdmStart.bad (a : AdmStart) : Bool :=
  decide (6 < a.cmdLog2) || decide (10 < a.rplLog2) || decide (10 < a.evtLog2) || decide (a.cmdBase.toNat % 4096 ≠ 0) ||
  decide (a.cmdWb.toNat % 8 ≠ 0) || decide (a.rplBase.toNat % 4096 ≠ 0) || decide (a.evtBase.toNat % 4096 ≠ 0)

/-- Start the admin rings with the bases and sizes of the write, or refuse (Table 03-5, R66). Event ring 32 then receives what was held
for it. -/
def startAdmin (f : Nat) (a : AdmStart) (s : State) : State :=
  let lacks := startLacks s f
  if lacks ∨ a.bad then
    modFn f (fun p => { p with errRes := p.errRes || lacks, errCfg := p.errCfg || a.bad, enable := false, heldStart := none }) s
  else
    let old := (ringOf s f 32).getD {}
    let s := setRing f 0 { state := .running, kind := .command, sizeLog2 := a.cmdLog2, base := a.cmdBase, wb := a.cmdWb,
                           boundReply := 16 } s
    let s := setRing f 16 { state := .running, kind := .reply, sizeLog2 := a.rplLog2, base := a.rplBase } s
    let s := setRing f 32 { state := .running, kind := .event, sizeLog2 := a.evtLog2, base := a.evtBase, held := old.held,
                            dropped := old.dropped } s
    flushEvents f 32 66 (modFn f (fun p => { p with ready := true, enable := true, heldStart := none }) s)

/-- The fields of a write of HST_ADM_CTL: the sizes, and the W1C bits (Table 03-5). -/
def writeAdmCtl (f : Nat) (v : Word) (s : State) : State :=
  modFn f (fun p => { p with
    evtLog2 := v.extractLsb' 20 4, rplLog2 := v.extractLsb' 16 4, cmdLog2 := v.extractLsb' 12 4,
    errRes := p.errRes && !v.getLsbD 2, errCfg := p.errCfg && !v.getLsbD 1 }) s

/-- ENABLE written 1: a start while the rings are FREE, no effect while they run, held while they drain or before Blotter service
(Table 03-5, R66, R454). ENABLE reads 0 while the start is held (DESIGN CHOICE, log entry 17). -/
def admEnable (f : Nat) (v : Word) (s : State) : State :=
  let s := writeAdmCtl f v s
  let p := fnOf s f
  let r0 := (ringOf s f 0).getD {}
  if r0.stop ∨ s.nose.service = .off then setFn f { p with heldStart := some p.start } s
  else if p.ready then s
  else startAdmin f p.start s

/-- ENABLE written 0: the admin rings stop; a held start is dropped (R66). Until they are FREE, HST_RING_STAT shows rings 0 and 32 as DRAINING and
ring 16 in the state it has (DESIGN CHOICE for rings 16 and 32, log entry 17). -/
def admDisable (f : Nat) (v : Word) (s : State) : State :=
  let s := writeAdmCtl f v s
  let s := modFn f (fun p => { p with enable := false, heldStart := none }) s
  if (fnOf s f).ready then
    match ringOf s f 0, ringOf s f 32 with
    | some r0, some r32 => setRing f 32 { r32 with state := .draining, stop := true } (setRing f 0 { r0 with state := .draining, stop := true } s)
    | _, _ => s
  else s

/-- HST_ADM_ENABLE: a write of HST_ADM_CTL with ENABLE 1; with ENABLE 0 in the value it is the stop (R66). -/
def execHstAdmEnable (fn : Fn) (value : Word) (s : State) : Host.Outcome State Fault Refusal :=
  done s (if value.getLsbD 31 then admEnable fn.val value s else admDisable fn.val value s)

/-- HST_ADM_DISABLE: a write of HST_ADM_CTL with ENABLE 0; with ENABLE 1 in the value it is the start (R66). -/
def execHstAdmDisable (fn : Fn) (value : Word) (s : State) : Host.Outcome State Fault Refusal :=
  done s (if value.getLsbD 31 then admEnable fn.val value s else admDisable fn.val value s)

/-- ADM_ERR_RES_CLEAR: writing 1 to ERR_RES clears it (R4, Table 03-5). -/
def execAdmErrResClear (fn : Fn) (s : State) : Host.Outcome State Fault Refusal :=
  done s (modFn fn.val (fun p => { p with errRes := false }) s)

/-- ADM_ERR_CFG_CLEAR: writing 1 to ERR_CFG clears it (R4, Table 03-5). -/
def execAdmErrCfgClear (fn : Fn) (s : State) : Host.Outcome State Fault Refusal :=
  done s (modFn fn.val (fun p => { p with errCfg := false }) s)

/-- Command ring 0 has drained: its fetched commands have completed and their replies are written, or ring 16 is not usable (R66, R75). -/
def adminDrained (s : State) (f : Nat) : Bool :=
  !(unanswered s).any (fun g => decide (g.cmd.fn.val = f) && decide (g.cmd.ring.val = 0)) &&
  (!(s.nose.behind.any fun h => decide (h.fn = f) && decide (h.ring = 0)) || !(((ringOf s f 16).map (·.state)).getD .free == .running))

/-- The replies that wait for a function's ring 16 are dropped (R66, R72). -/
def dropOwed (f : Nat) (s : State) : State :=
  let mine := s.nose.behind.filter fun h => decide (h.fn = f) && decide (h.rplRing = 16)
  let s := { s with nose := { s.nose with behind := s.nose.behind.filter fun h => !(decide (h.fn = f) && decide (h.rplRing = 16)) } }
  mine.foldl (fun s h => settleReply f h.ring s) s

/-- ADMIN_RINGS_FREE: once command ring 0 has drained, rings 0, 16 and 32 become FREE together, READY falls, the replies still owed on
ring 16 are dropped, and a held start takes effect (R66, R72). -/
def execAdminRingsFree (fn : Fn) (s : State) : Host.Outcome State Fault Refusal :=
  done s <|
    let f := fn.val
    match ringOf s f 0 with
    | none => s
    | some r0 =>
      if r0.stop ∧ adminDrained s f then
        let s := dropOwed f s
        let r32 := (ringOf s f 32).getD {}
        let s := setRing f 0 { kind := .command } s
        let s := setRing f 16 { kind := .reply } s
        let s := setRing f 32 { kind := .event, held := r32.held, dropped := r32.dropped } s
        let held := (fnOf s f).heldStart
        let s := modFn f (fun p => { p with ready := false, enable := false, heldStart := none }) s
        match held with
        | some a => startAdmin f a s
        | none => s
      else s

/-! ### RING_CREATE, RING_DESTROY, RING_RESET, VECTOR_CONFIG -/

/-- The ring that RING_CREATE names is an injection ring: a media ring whose data area fields are both 0 (R500). -/
def createsInjection (c : Cmd) : Bool :=
  decide (kindOf (c.u16 16) = some .media) && decide (c.u64 40 = 0) && decide (c.u32 48 = 0)

/-- RING_CREATE (R500, Table 03-17). -/
def ruleRingCreate : CmdRule where
  op := 0x0103
  plen := .fixed 36
  fields c _ :=
    let n := c.u16 16
    let k := kindOf n
    let cmd := decide (k = some .command)
    let inj := createsInjection c
    let ext := decide (k = some .media) && !inj
    let hostp := cmd || inj
    [failIf (k.isNone || isAdmin n) stRange 16,
     failIf (if cmd then decide (c.u16 18 < 16) || decide (31 < c.u16 18) else decide (c.u16 18 ≠ 0)) stRange 18,
     failIf (decide ((if cmd then 6 else 10) < c.u8 20)) stRange 20,
     failIf (if hostp then decide (c.u8 21 ≠ 0) else decide (31 < c.u8 21)) stRange 21,
     failIf (decide (k ≠ some .event) && decide (c.u16 22 ≠ 0)) stRange 22,
     alignAt c 24 4096,
     if hostp then alignAt c 32 8 else failIf (decide (c.u64 32 ≠ 0)) stRange 32,
     if ext then alignAt c 40 4096 else failIf (decide (c.u64 40 ≠ 0)) stRange 40,
     if ext then failIf (decide (c.u64 40 = 0) || decide (c.u32 48 < 16384) || decide (1073741824 < c.u32 48) ||
        decide (c.u32 48 % 64 ≠ 0)) stRange 48
     else failIf (decide (c.u32 48 ≠ 0)) stRange 48]
  states c s :=
    let f := c.fn.val
    [failIf (match ringOf s f (c.u16 16) with
        | some r => !(r.state == .free)
        | none => false) stState 16,
     failIf (decide (kindOf (c.u16 16) = some .command) && !(match ringOf s f (c.u16 18) with
        | some r => r.state == .running
        | none => false)) stState 18]
  resources c s :=
    let f := c.fn.val
    let k := (kindOf (c.u16 16)).getD .media
    noResource (match tenantOf s f with
      | some t => decide (t.ringLimit k ≤ ringsHeld s f k)
      | none => true) 0x0100 :: (if k = .media then queueChecks s [4] 1 else [])
  effect c s :=
    let f := c.fn.val
    let n := c.u16 16
    let k := (kindOf n).getD .media
    let r : Ring := { state := .running, kind := k, injection := createsInjection c, vector := c.u8 21, sizeLog2 := c.u8 20,
                      base := BitVec.ofNat 64 (c.u64 24), wb := BitVec.ofNat 64 (c.u64 32),
                      dataArea := BitVec.ofNat 64 (c.u64 40), dataSize := c.u32 48,
                      groupMask := BitVec.ofNat 16 (c.u16 22), boundReply := c.u16 18 }
    ({}, setRing f n r (if k = .media then reserveFor (ringRef f n) [4] 1 s else s))

def execRingCreate (c : Cmd) (s : State) : Host.Outcome State Fault Refusal := issue ruleRingCreate c s

/-- A media ring that a stream route, a transport record or TENANT_ROUTE still names (R75). -/
def ringNamed (s : State) (f n : Nat) : Bool :=
  s.obj.ins.live.any (fun kv => decide (kv.2.tenant = f) && (match kv.2.route with
    | some (r, _) => decide (r = n)
    | none => false)) ||
  s.obj.outs.live.any (fun kv => decide (kv.2.tenant = f) && (match kv.2.route with
    | some (r, _) => decide (r = n)
    | none => false)) ||
  s.obj.legs.live.any (fun kv => decide (kv.2.tenant = f) && decide (kv.2.transport.ctrl = n)) ||
  (match tenantOf s f with
    | some t => decide (t.excRing = n)
    | none => false)

/-- A reply ring that a command ring is bound to (R75). -/
def replyBound (s : State) (f n : Nat) : Bool :=
  (fnOf s f).rings.any fun kv => kv.2.kind == .command && !(kv.2.state == .free) && decide (kv.2.boundReply = n)

/-- RING_DESTROY (R75): a command ring drains; any other ring becomes FREE at once. -/
def ruleRingDestroy : CmdRule where
  op := 0x0104
  plen := .fixed 2
  fields c _ := [failIf (kindOf (c.u16 16)).isNone stRange 16]
  states c s :=
    let f := c.fn.val
    let n := c.u16 16
    [failIf (match ringOf s f n with
      | none => true
      | some r => r.state == .free || r.stop || isAdmin n || (r.kind == .reply && replyBound s f n) ||
          (r.kind == .media && ringNamed s f n)) stState 0]
  effect c s :=
    let f := c.fn.val
    let n := c.u16 16
    match ringOf s f n with
    | none => ({}, s)
    | some r =>
      if r.kind = .command then
        ({}, setRing f n (if ¬ ringBusy f n s ∧ c.ring.val ≠ n then { kind := .command } else { r with state := .draining, stop := true }) s)
      else ({}, setRing f n { kind := r.kind } (if r.kind = .media then releaseFor (ringRef f n) 1 s else s))

def execRingDestroy (c : Cmd) (s : State) : Host.Outcome State Fault Refusal := issue ruleRingDestroy c s

/-- RING_RESET (R70, R72, R74): RUNNING with both indexes at 0; waiting replies and held events are then written. The event sequence and the
extraction ordinal go on (DESIGN CHOICE, log entry 17). -/
def ruleRingReset : CmdRule where
  op := 0x0105
  plen := .fixed 2
  fields c _ := [failIf (kindOf (c.u16 16)).isNone stRange 16]
  states c s :=
    [failIf (match ringOf s c.fn.val (c.u16 16) with
      | none => true
      | some r => r.state == .free || r.stop || isAdmin (c.u16 16)) stState 0]
  effect c s :=
    let f := c.fn.val
    let n := c.u16 16
    match ringOf s f n with
    | none => ({}, s)
    | some r =>
      let s := setRing f n { r with state := .running, cause := 0, prod := 0, cons := 0, sinceWb := 0, dataTail := 0, spaces := [] } s
      ({}, match r.kind with
        | .reply => flushReplies s
        | .event => flushEvents f n 66 s
        | _ => s)

def execRingReset (c : Cmd) (s : State) : Host.Outcome State Fault Refusal := issue ruleRingReset c s

/-- VECTOR_CONFIG (R78): the new values apply at once to the entries not yet signalled. -/
def ruleVectorConfig : CmdRule where
  op := 0x0106
  plen := .fixed 6
  zeroFields c _ := [zeroAt c 18 2]
  fields c _ := [rangeAt c 16 2 0 31, rangeAt c 18 2 1 256, rangeAt c 20 2 0 1023]
  effect c s :=
    let f := c.fn.val
    let v := { vectorOf s f (c.u16 16) with modCount := c.u16 18, modTime := c.u16 20 }
    ({}, setVector f (c.u16 16) (if v.due (nowNs s) then v.fire (fnOf s f).mute else v) s)

def execVectorConfig (c : Cmd) (s : State) : Host.Outcome State Fault Refusal := issue ruleVectorConfig c s

/-- VECTOR_MOD_TIME_EXPIRY: MOD_TIME has passed since the first unsignalled entry, so the vector fires (R78). -/
def execVectorModTimeExpiry (fn : Fn) (vector : Fin 32) (s : State) : Host.Outcome State Fault Refusal :=
  done s <|
    let v := vectorOf s fn.val vector.val
    if 0 < v.unsignalled then setVector fn.val vector.val (v.fire (fnOf s fn.val).mute) s else s

/-! ### Extraction rings (R76) -/

/-- Where the next packet of n bytes stands in a data area, and the bytes it takes: at the next 64-byte aligned offset, from the start of the
area when it would cross its end, the rest of which then counts as taken unless the area is empty; none while the host has not freed the room
(DESIGN CHOICE for the wrap, log entry 18). -/
def dataPlace (r : Ring) (n : Nat) : Option (Nat × Nat) :=
  let len := (n + 63) / 64 * 64
  let free := r.dataSize - total r.spaces
  let t := r.dataTail
  if t + len ≤ r.dataSize then (if len ≤ free then some (t, len) else none)
  else if r.spaces.isEmpty then (if len ≤ r.dataSize then some (0, len) else none)
  else if r.dataSize - t + len ≤ free then some (0, r.dataSize - t + len) else none

/-- Write a packet to an extraction ring: data first, then the entry of Table 03-9, then the signal (R71, R76). A packet for a ring that is
not RUNNING, is full or has no room is lost and counted for the ring, as is one whose bytes or entry cannot be written: the ring then goes into
ERROR with cause 4 (Table 03-8). -/
def extract (f n kind : Nat) (err : Bool) (obj : Word) (time : Nat) (pkt : List Byte) (s : State) : State :=
  match ringOf s f n with
  | none => s
  | some r =>
    let bytes := pkt.take 16384
    match dataPlace r bytes.length with
    | none => setRing f n { r with skipped := r.skipped + 1 } s
    | some (off, taken) =>
      if r.state == .running && !r.full && !r.injection && r.kind == .media && !(fnOf s f).d3hot && !(fnOf s f).flr then
        let addr := (r.dataArea.toNat + off) % 2 ^ 64
        if ¬ hostReach addr bytes.length s ∨ ¬ entryReaches s f n then ringError f n 0x04 (setRing f n { r with skipped := r.skipped + 1 } s)
        else
        let s := hostWrite addr bytes s
        let s := setRing f n { r with spaces := r.spaces ++ [taken], dataTail := off + (bytes.length + 63) / 64 * 64, seq := r.seq + 1 } s
        putEntry f n [BitVec.ofNat 32 addr, BitVec.ofNat 32 (addr / 2 ^ 32),
          BitVec.ofNat 32 (b2n err * 2 ^ 24 + kind % 16 * 65536 + bytes.length), obj, BitVec.ofNat 32 time,
          BitVec.ofNat 32 (time / 2 ^ 32), r.seq, 0] s
      else setRing f n { r with skipped := r.skipped + 1 } s

/-! ### COMMAND_FETCH (R72, R80, R82, R89) -/

/-- Replies still owed on a reply ring: for commands fetched from every command ring bound to it, until they are written (R72). -/
def owedOn (s : State) (f rpl : Nat) : Nat :=
  total ((tfilter (fnOf s f).rings fun n r => r.kind == .command && decide ((if n = 0 then 16 else r.boundReply) = rpl)).map
    (·.2.owed))

/-- A command ring from which the device may fetch: RUNNING, not empty, and its reply ring RUNNING with a free entry for every reply owed and
this one (R72). -/
def fetchable (s : State) (f n : Nat) : Bool :=
  match ringOf s f n with
  | none => false
  | some r =>
    let rpl := if n = 0 then 16 else r.boundReply
    r.state == .running && r.kind == .command && decide (r.prod ≠ r.cons) && !(fnOf s f).d3hot && !(fnOf s f).flr &&
    (match ringOf s f rpl with
      | none => false
      | some q => q.state == .running && decide (owedOn s f rpl + 1 ≤ q.entries - q.used))

/-- The first number after `from_`, in rotation modulo m, that meets a condition (R89). -/
def rotate (m from_ : Nat) (p : Nat → Bool) : Option Nat :=
  ((List.range m).map fun i => (from_ + 1 + i) % m).find? p

/-- The function and ring served next: round robin among functions, then among the rings of the function (R89). -/
def fetchTurn (s : State) : Option (Nat × Nat) :=
  match rotate 64 s.hst.fnTurn fun f => (List.range 16).any (fetchable s f) with
  | none => none
  | some f => (rotate 16 (fnOf s f).cmdTurn (fetchable s f)).map fun n => (f, n)

/-- The opcodes of Table 03-12. -/
def opcodes : List Nat :=
  [0x0101, 0x0102, 0x0103, 0x0104, 0x0105, 0x0106, 0x0107, 0x0108, 0x0109, 0x010A, 0x0201, 0x0202, 0x0203, 0x0204, 0x0205] ++
  [0x0301, 0x0302, 0x0303, 0x0304, 0x0401, 0x0402, 0x0403, 0x0404, 0x0405, 0x0406, 0x0407, 0x0408, 0x0501, 0x0502, 0x0503] ++
  [0x0504, 0x0505, 0x0506, 0x0601, 0x0602, 0x0603, 0x0604, 0x0701, 0x0702, 0x0703, 0x0704, 0x0705, 0x0706, 0x0707, 0x0708] ++
  [0x0709, 0x0801, 0x0802, 0x0803, 0x0804, 0x0805, 0x0806, 0x0807, 0x0808, 0x0901, 0x0902, 0x0903, 0x0904, 0x0905, 0x0906] ++
  [0x0A01, 0x0A02, 0x0A03, 0x0A04, 0x0A05, 0x0A06, 0x0B01, 0x0B02, 0x0B03, 0x0B04, 0x0C01, 0x0C02, 0x0C03, 0x0C04, 0x0D01] ++
  [0x0D02, 0x0D03, 0x0E01, 0x0E02, 0x0E03, 0x0E04]

/-- Bytes of the content of an image layer: planes Y, Cb, Cr and A (R229). -/
def Layer.contentSize (a : Layer) : Nat :=
  if a.kind = 2 then (2 * a.imgW * a.imgH + 2 * (a.imgW / 2 * (a.imgH / 2))) * (a.fmt + 1) else 0

/-- The layer of a layout that a flip names. -/
def flipLayer (s : State) (layout : Handle) (n : Nat) : Option Layer :=
  ((liveIndex s tyLayout layout).bind s.obj.layouts.at?).bind fun l => l.layers[n]?

/-- Other data that a command reads at admission: gate list, coefficients, flip content (R172, R221, R229): where it stands and how long it is. -/
def admissionData (s : State) (op : Nat) (d : List Byte) : Option (Nat × Nat) :=
  if op = 0x0905 then some (leAt d 40 8, leAt d 36 2 * 8)
  else if op = 0x0808 then some (leAt d 24 8, 1536)
  else if op = 0x0804 then (flipLayer s (BitVec.ofNat 32 (leAt d 12 4)) (leAt d 16 2)).map fun a => (leAt d 24 8, a.contentSize)
  else none

/-- A descriptor as a command (Table 03-10), with its extended block and other data read once (R80). -/
def readCmd (s : State) (f n : Nat) (idx : Word) (d : List Byte) (readable : Bool) : Nat × Cmd :=
  let dw0 := leAt d 0 4
  let plen := leAt d 8 4
  let isExt := bit dw0 16
  (dw0 % 65536,
   { fn := Fin.ofNat 64 f, ring := Fin.ofNat 16 n, index := idx, dw0 := BitVec.ofNat 16 (dw0 / 65536), tag := BitVec.ofNat 32 (leAt d 4 4),
     plen := BitVec.ofNat 32 plen, object := BitVec.ofNat 32 (leAt d 12 4), params := slice d 16 48,
     ext := if isExt && readable && hostReach (leAt d 16 8) plen s then some (hostRead (leAt d 16 8) (if plen ≤ 16777216 then plen else 0) s) else none,
     data := match admissionData s (dw0 % 65536) d with
       | some (a, len) => if readable && hostReach a len s then some (hostRead a len s) else none
       | none => none })

/-- The consumer index moves, and is written back once per 16 entries and when the ring becomes empty (R71); a writeback that fails puts the ring
into ERROR (Table 03-8). -/
def advanceRing (f n : Nat) (r : Ring) (s : State) : State :=
  let r := { r with cons := r.cons + 1, sinceWb := r.sinceWb + 1 }
  if r.sinceWb = 16 ∨ r.cons = r.prod then
    if hostReach r.wb.toNat 4 s then setRing f n { r with sinceWb := 0 } (hostWrite r.wb.toNat (leBytes 4 r.cons.toNat) s)
    else ringError f n 0x04 (setRing f n r s)
  else setRing f n r s

/-- COMMAND_FETCH: one command in the rotation of R89. A descriptor that fails order 1 or names no opcode is answered at once; any other waits
for its own row (R72, R82). A failed DMA read puts the ring into ERROR with cause 3, a failed writeback with cause 4 (Table 03-8). -/
def execCommandFetch (dma : Dma) (s : State) : Host.Outcome State Fault Refusal :=
  done s <|
    if ¬ noseRuns s then s else
    match fetchTurn s with
    | none => s
    | some (f, n) =>
      match ringOf s f n with
      | none => s
      | some r =>
        let s := { s with hst := { s.hst with fnTurn := f } }
        let s := modFn f (fun p => { p with cmdTurn := n }) s
        if dma = .readFails ∨ ¬ hostReach (r.entryAddr r.cons) 64 s then ringError f n 0x03 s
        else
          let (op, c) := readCmd s f n r.cons (hostRead (r.entryAddr r.cons) 64 s) true
          let s := advanceRing f n { r with owed := r.owed + 1 } s
          let s := if dma = .writeFails then ringError f n 0x04 s else s
          match descriptorCheck c with
          | some e => answer op c (.ofFail e) s
          | none =>
            if opcodes.contains op then { s with nose := { s.nose with fetched := s.nose.fetched ++ [⟨op, c⟩] } }
            else answer op c (.ofFail ⟨stOpcode, BitVec.ofNat 32 op⟩) s

end Sys2Proof.Machine
end

