-- ==== Sys2Proof/Machine/Admission.lean ====
section
/-! DEFINITION. Reservations: protected rate (R23, R152), decode contexts (R187-R190), encode contexts (R241), compose rate
(R212), stitchers (R246), audio encodes and Accord cycles (R293, R297), and the path of a composite (R246, R257-R265). -/

namespace Sys2Proof.Machine

/-- A reservation: the state with it made, or the code of the first resource that lacks (R53). -/
abbrev Adm := Except Nat State

/-- A resource that must be there. -/
def need (ok : Bool) (code : Nat) : Except Nat Unit := if ok then .ok () else .error code

/-- The check of an admission at order 13. -/
def Adm.check {α : Type} (a : Except Nat α) : Check :=
  match a with
  | .ok _ => none
  | .error c => some ⟨stNoResource, BitVec.ofNat 32 c⟩

/-! ### Protected peak rate (R23, R152) -/

/-- PIR of a meter in kb/s; for srTCM it equals CIR (Table 06-1). -/
def Meter.peak (m : Meter) : Nat := m.pir

/-- The contribution of a tenant in Mb/s, protected or not (R152). -/
def peakOf (s : State) (t : Nat) : Nat :=
  let legs := total ((tfilter s.obj.legs.live fun _ l => decide (l.tenant = t)).map (·.2.meter.peak))
  let kb := match (s.obj.tenants.at? t).bind (·.meter) with
    | some m => if m.peak < legs then m.peak else legs
    | none => legs
  ceilDiv kb 1000

/-- The contributions of all protected tenants, Mb/s. -/
def peakTotal (s : State) : Nat :=
  total (s.obj.tenants.live.map fun (i, t) => if t.prot then peakOf s i else 0)

/-- A changed state keeps the tenant and the device within the limits of R23 and Table 02-4. -/
def peakFits (s t : State) (i : Nat) : Bool :=
  match t.obj.tenants.at? i with
  | none => true
  | some x => !x.prot || decide (peakOf t i ≤ peakOf s i) || (decide (peakOf t i ≤ x.peak) && decide (peakTotal t ≤ 320000))

/-! ### Sizes (R189) -/

/-- x rounded up to a multiple of 64. -/
def r64 (x : Nat) : Nat := (x + 63) / 64 * 64

/-- W64 × H64. -/
def area64 (w h : Nat) : Nat := r64 w * r64 h

/-- 64 KiB granules of a frame buffer (R189). -/
def granulesOf (w h : Nat) (ten : Bool) : Nat :=
  let a := area64 w h
  ceilDiv ((if ten then a * 2 else a * 3 / 2) + a / 16) 65536

/-- Granules that decode and encode contexts hold in the reference picture pools. -/
def refUsed (s : State) : Nat :=
  total (s.obj.ins.live.map fun (_, x) => (x.dec.map (·.granules)).getD 0) + total (s.obj.encs.live.map (·.2.granules))

/-- The region holds n further granules. -/
def refRoom (s : State) (n : Nat) : Bool := decide (refUsed s + n ≤ s.mem.partition.getD 0 0 * 16)

/-! ### Home clusters -/

/-- The cluster with the largest unreserved rate, ties to the lower number, when it has room for d (R190, R212, R241). -/
def bestFrom (used : Nat → Nat) : Nat → Nat → Nat
  | 0, best => best
  | n + 1, best => let i := 7 - n; bestFrom used n (if used i < used best then i else best)

def homeFor (used : Nat → Nat) (cap d : Nat) : Option ClusterNo :=
  let i := bestFrom used 8 0
  if used i + d ≤ cap then some (Fin.ofNat 8 i) else none

/-- Reserved decode rate of a cluster. -/
def decUsed (s : State) (n : Nat) : Nat :=
  total (s.obj.ins.live.map fun (_, x) => match x.dec with
    | some d => if d.home.val = n then d.rate else 0
    | none => 0)

/-- Reserved encode rate of a cluster. -/
def encUsed (s : State) (n : Nat) : Nat := total (s.obj.encs.live.map fun (_, e) => if e.home.val = n then e.rate else 0)

/-- Compose rate of one bridge. -/
def TileSet.bridgeRate (t : TileSet) : Nat := t.bridgeW * t.bridgeH * t.rate

/-- Reserved compose rate of a cluster: layouts, SELF composites, tile sets and their bridges (R212, R246, R252). -/
def cmpUsed (s : State) (n : Nat) : Nat :=
  total (s.obj.layouts.live.map fun (_, l) => if l.home.val = n then l.reserved else 0) +
  total (s.obj.outs.live.map fun (_, o) => match o.comp.bind (·.selfRate) with
    | some (h, d) => if h = n then d else 0
    | none => 0) +
  total (s.obj.tilesets.live.map fun (_, t) =>
    (if t.home.val = n then t.reserved else 0) + total (t.bridges.map fun b => if b.home.val = n then t.bridgeRate else 0))

/-! ### Fields of a stream record (Tables 02-21, 07-3, 09-2, 10-3) -/

/-- A field of the type block. -/
def StreamRec.blk (d : StreamRec) (off n : Nat) : Nat := leAt d.block off n

/-- Notes present, lowest first (R51). -/
def StreamRec.present (d : StreamRec) : List Nat :=
  match d.form with
  | 0 => [0]
  | 1 => [0, 1, 2].filter fun i => decide (d.ssrcs.getD i 0 ≠ 0)
  | _ => [0, 1, 2].filter fun i => decide (d.layers.getD i 0xFF ≠ 0xFF)

/-- Declared size of a note. -/
def StreamRec.sizeOf (d : StreamRec) (i : Nat) : Nat × Nat := (d.sizes.getD (2 * i) 0, d.sizes.getD (2 * i + 1) 0)

/-- A spatial SVC source whose decode note lies above the base note (R190); automatic choice may reach the highest note
present (DEDUCED, log entry 20). -/
def StreamRec.aboveBase (d : StreamRec) : Bool :=
  decide (d.form = 2) && (decide (2 ≤ d.blk 1 1) || (decide (d.blk 1 1 = 0) && decide (1 < d.present.length)))

/-- max(A_max, 8,000) + 2,000 (R190). -/
def StreamRec.charge (d : StreamRec) : Nat :=
  let a := area64 (d.blk 4 2) (d.blk 6 2)
  let a := if d.aboveBase then (a * 3 + 1) / 2 else a
  (if a < 8000 then 8000 else a) + 2000

/-- D of R190. -/
def StreamRec.decRate (d : StreamRec) : Nat := d.charge * d.blk 8 2

/-- Granules of the N buffers of R189. -/
def StreamRec.decGranules (d : StreamRec) : Nat := d.blk 2 1 * granulesOf (d.blk 4 2) (d.blk 6 2) (bit (d.blk 3 1) 2)

/-- The layout a composite names. -/
def StreamRec.layout (d : StreamRec) : Handle := BitVec.ofNat 32 (d.blk 4 4)

/-- SELF of the encode block. -/
def StreamRec.self (d : StreamRec) : Bool := bit (d.blk 3 1) 0

/-! ### Decode contexts (R187-R193) -/

/-- Decode contexts in use by a tenant, or by all (`none`). -/
def decCount (s : State) (t : Option Nat) : Nat :=
  tcount s.obj.ins.live fun _ x => x.dec.isSome && (match t with
    | some i => decide (x.tenant = i)
    | none => true)

/-- The next decode context index, first in first out. -/
def takeDec (o : Objects) : Nat × Objects :=
  if o.decFresh < 4096 then (o.decFresh, { o with decFresh := o.decFresh + 1 })
  else (o.decFreed.headD 0, { o with decFreed := o.decFreed.drop 1 })

/-- The buffer that starts a context. -/
def freshBuf : FrameBuf :=
  { st := .unused, clean := false, concealed := false, reduced := false, order := 0, eligible := 0, shown := false, note := 0, token := 0,
    pic := { w := 0, h := 0, y := [], cb := [], cr := [] } }

/-- Reserve a decode context for a video source (R187, R189, R190): code 0x0009. -/
def reserveDec (i : Nat) (s : State) : Adm := do
  match s.obj.ins.at? i with
  | none => .ok s
  | some x =>
    if x.dec.isSome ∨ x.decl.kind ≠ 1 then .ok s else
    let d := x.decl
    need (decide (decCount s none < 4096)) 0x0009
    need (match s.obj.tenants.at? x.tenant with
      | some t => decide (decCount s (some x.tenant) < t.decode)
      | none => true) 0x0009
    need (refRoom s d.decGranules) 0x0009
    match homeFor (decUsed s) 2000000000 d.decRate with
    | none => .error 0x0009
    | some home =>
      let (k, o) := takeDec s.obj
      let ctx : DecCtx := { index := k, home := home, rate := d.decRate, charge := d.charge, granules := d.decGranules,
                            bufs := List.replicate (d.blk 2 1) freshBuf, state := .idle, note := d.blk 1 1 - 1,
                            bucket := 4 * d.charge * 1000000000, last := logNs s }
      .ok (reserveFor (objRef 4 i) [1] 1 (updIn i (fun x => { x with dec := some ctx }) { s with obj := o }))

/-- Give a decode context back. -/
def releaseDec (i : Nat) (s : State) : State :=
  match (s.obj.ins.at? i).bind (·.dec) with
  | none => s
  | some d =>
    let s := updIn i (fun x => { x with dec := none }) s
    releaseQueue (objRef 4 i) 1 1 { s with obj := { s.obj with decFreed := s.obj.decFreed ++ [d.index] } }

/-- The buffers of a context whose block asks for n of them: those that hold something stay, the rest start anew. -/
def resizeBufs (n : Nat) (bufs : List FrameBuf) : List FrameBuf :=
  let kept := (bufs.filter fun b => b.st != .unused).take n
  kept ++ List.replicate (n - kept.length) freshBuf

/-- A replaced decode block applies to the context that the source has: home, index and state stay, and more buffers or pixel rate than before are
admitted as R187 admits them (R187, R190). -/
def resizeDec (i : Nat) (d : StreamRec) (s : State) : Adm := do
  match (s.obj.ins.at? i).bind (·.dec) with
  | none => .ok s
  | some k =>
    need (decide (d.decGranules ≤ k.granules) || refRoom s (d.decGranules - k.granules)) 0x0009
    need (decide (d.decRate ≤ k.rate) || decide (decUsed s k.home.val + d.decRate ≤ 2000000000 + k.rate)) 0x0009
    let top := 4 * d.charge * 1000000000
    .ok (updIn i (fun x => { x with dec := some { k with
      rate := d.decRate, charge := d.charge, granules := d.decGranules, bufs := resizeBufs (d.blk 2 1) k.bufs
      bucket := if top < k.bucket then top else k.bucket } }) s)

/-! ### Encode contexts (R241) -/

/-- Type number of an encode context in a queue's owner field. -/
def tyEnc : Nat := 0xE

def encRate (w h f : Nat) : Nat := (area64 w h + 2000) * f

/-- Create an encode context (R241): code 0x000A. -/
def addEnc (kind : EncKind) (tenant w h : Nat) (ten : Bool) (f layers codec cap : Nat) (s : State) : Except Nat (Nat × State) := do
  need (decide (s.obj.encs.inUse < 2048)) 0x000A
  need (match s.obj.tenants.at? tenant with
    | some t => decide (tcount s.obj.encs.live (fun _ e => decide (e.tenant = tenant)) < t.encode)
    | none => true) 0x000A
  need (refRoom s (4 * granulesOf w h ten)) 0x000A
  match s.obj.encs.next 2048, homeFor (encUsed s) 1000000000 (encRate w h f) with
  | some i, some home =>
    let e : EncCtx := { kind := kind, tenant := tenant, home := home, rate := encRate w h f, granules := 4 * granulesOf w h ten,
                        w := w, h := h, f := f, tenBit := ten, layers := layers, codec := codec, capMult := cap, debt := 0, lastKey := none,
                        lastPic := none }
    .ok (i, reserveFor (objRef tyEnc i) [5] 1 (setEncs (·.alloc 2048 e) s))
  | _, _ => .error 0x000A

/-- Free an encode context. -/
def freeEnc (i : Nat) (s : State) : State := releaseFor (objRef tyEnc i) 1 (setEncs (·.free i) s)

/-! ### Audio encodes and Accord cycles (R287, R293, R297) -/

/-- Talker limit of a leg's mix: of its mix object, or of the default mix (R287). -/
def mixLimit (s : State) (l : Leg) : Nat :=
  match l.mix.bind s.obj.mixes.at? with
  | some m => m.limit
  | none => let t := ((s.obj.confs.at? l.conf).map (·.talkerLimit)).getD 16; if t < 16 then t else 16

/-- The mix may share its encode: no NOSHARE, pan or binaural (R291). -/
def mixShares (s : State) (l : Leg) : Bool :=
  match l.mix.bind s.obj.mixes.at? with
  | some m => !(m.noShare || m.pan || m.binaural)
  | none => true

/-- Codec, channels, frame, flags, bitrate and L of a mix: its profile (R293). -/
def mixProfile (s : State) (l : Leg) (d : StreamRec) : List Nat :=
  [d.blk 0 1, d.blk 1 1, d.blk 2 1, d.blk 3 1, d.blk 4 4, mixLimit s l]

/-- The outbound audio streams of a conference's legs, with their legs. -/
def audioOuts (s : State) (conf : Nat) : List (Nat × OutStream × Leg) :=
  s.obj.outs.live.filterMap fun (i, o) =>
    if o.decl.kind = 0 then
      match s.obj.legs.at? o.leg with
      | some l => if l.conf = conf then some (i, o, l) else none
      | none => none
    else none

/-- Encodes of groups of equal profile: min(n, L + 1) for each (R293). -/
def groupEncodes : Nat → List (List Nat) → Nat
  | 0, _ => 0
  | _, [] => 0
  | fuel + 1, p :: r =>
    let n := (r.filter (· == p)).length + 1
    let l := p.getD 5 0 + 1
    (if n < l then n else l) + groupEncodes fuel (r.filter fun q => !(q == p))

/-- Audio encodes that a conference reserves (R293). -/
def confEncodes (s : State) (conf : Nat) : Nat :=
  let outs := audioOuts s conf
  let share := outs.filter fun (_, _, l) => mixShares s l
  let lone := (outs.filter fun (_, _, l) => !mixShares s l).length
  let toned := (share.filter fun (_, _, l) => l.tone.isSome).length
  lone + toned + groupEncodes share.length (share.map fun (_, o, l) => mixProfile s l o.decl)

/-- Audio encodes of the device, of 4,096. -/
def audioEncodes (s : State) : Nat := total (s.obj.confs.live.map fun (i, _) => confEncodes s i)

/-- Inbound audio streams of the legs of a conference. -/
def audioIns (s : State) (conf : Nat) : Nat :=
  tcount s.obj.ins.live fun _ x => decide (x.decl.kind = 0) && !x.onTrunk && (match s.obj.legs.at? x.owner with
    | some l => decide (l.conf = conf)
    | none => false)

/-- Cycles per block that one image needs in a conference (R297). -/
def imageNeed (s : State) (conf : Nat) (h : Handle) : Nat :=
  match (liveIndex s tyImage h).bind s.obj.images.at? with
  | some m => m.confCycles + audioIns s conf * m.inCycles + (audioOuts s conf).length * m.lisCycles
  | none => 0

/-- Cycles that all conferences reserve, a swap's old image included; the device offers 8 × 24,000,000 (R297). The split among
clusters is not modelled (DESIGN CHOICE, log entry 21). -/
def cyclesNeeded (s : State) : Nat :=
  total (s.obj.confs.live.map fun (i, c) => imageNeed s i c.image + imageNeed s i c.oldImage)

/-- Give a conference one audio-output queue for each audio encode it holds (R341). -/
def syncAudioQueues (conf : Nat) (s : State) : State :=
  let held := tcount s.mem.queues fun _ q => decide (q.owner = objRef 2 conf) && decide (q.kind = 6)
  let want := confEncodes s conf
  if held ≤ want then reserveFor (objRef 2 conf) (List.replicate (want - held) 6) 0 s
  else (List.range (held - want)).foldl (fun s _ => releaseQueue (objRef 2 conf) 6 0 s) s

/-- Every resource that is counted over the whole device holds: encodes, cycles, middle space, queue numbers, flows
(R293, R297, R341, R383). -/
def settled (confs : List Nat) (s : State) : Adm := do
  need (decide (audioEncodes s ≤ 4096)) 0x0106
  need (decide (cyclesNeeded s ≤ 192000000)) 0x0106
  let s := confs.foldl (fun s c => syncAudioQueues c s) s
  need (decide (total (s.mem.queues.map fun (_, q) => queueGranules q.kind) ≤ s.mem.partition.getD 3 0 * 256)) 0x0107
  need (decide (s.mem.queues.length ≤ 65536)) 0x0107
  need (decide (s.orgue.owners.length ≤ 65536)) 0x0109
  .ok s

/-! ### Talker ranks for video (R216, R253) -/

/-- GCONF of a conference with a cascade ID. -/
def Conf.gconf (c : Conf) : Nat := ((c.globalId.map (·.toNat)).getD 0)

/-- The holder of a talker rank for video as one number: the index of a local leg, or 8,192 and the global ID of a remote one (R304). -/
def Ranked.holder (r : Ranked) : Nat := r.leg.getD (8192 + r.gleg)

/-- The first video source, in source order, of the holder of a rank: of a leg, or of a remote leg whose sources trunks declare (R216, R304). -/
def firstVideo (s : State) (conf holder : Nat) : Option Nat :=
  let shows := fun (i : Nat) => ((s.obj.ins.at? i).map fun x => decide (x.decl.kind = 1)).getD false
  if holder < 8192 then (s.obj.legs.at? holder).bind fun l => l.ins.find? shows
  else (s.obj.confs.at? conf).bind fun c => (tfind s.obj.ins.live fun i x =>
    x.onTrunk && shows i && decide (x.gleg = holder - 8192) && decide (x.gconf = c.gconf)).map (·.1)

/-- The home device of a cascade conference (Table 02-12). -/
def Conf.home (c : Conf) : Option Nat := c.globalId.map fun g => g.toNat / 4096

/-- The device is a member of a conference whose home is another device (R302). -/
def isMember (s : State) (c : Conf) : Bool :=
  match c.home with
  | some d => decide (d ≠ s.media.deviceId.toNat)
  | none => false

/-- The bubble pass from the last position up: a member whose level is more than twice its upper neighbour's swaps with it (R286). -/
def bubble : Nat → List Ranked → List Ranked
  | 0, rk => rk
  | r + 1, rk =>
    match rk[r]?, rk[r + 1]? with
    | some a, some b => bubble r (if 2 * a.level < b.level then (rk.take r) ++ [b, a] ++ rk.drop (r + 2) else rk)
    | _, _ => bubble r rk

/-- Step 3 of R286 at tick n, once. -/
def Conf.resort (n : Nat) (c : Conf) : Conf :=
  if n % 100 = 0 ∧ c.resorted ≠ some n then { c with ranking := bubble (c.ranking.length - 1) c.ranking, resorted := some n } else c

/-- The ranking that the present tick decided, whether the row of its re-sort has come or not (R286; log entry 36). -/
def rankingNow (s : State) (c : Conf) : List Ranked := (c.resort s.media.tick).ranking

/-- The ranking for video: on a member the last home ranking received (R304). -/
def videoRanking (s : State) (c : Conf) : List Ranked := if isMember s c then c.remote else rankingNow s c

/-- The holders of the ranking that have a video source on this device, best first, without one leg; a local leg in DRAINING holds no rank (R216,
R304; log entry 22). -/
def videoRanks (s : State) (conf : Nat) (skip : Option Nat) : List Nat :=
  match s.obj.confs.at? conf with
  | none => []
  | some c => (videoRanking s c).filterMap fun r =>
      let here : Bool := match r.leg with
        | none => true
        | some l => ((s.obj.legs.at? l).map fun x => decide (x.conf = conf) && !(x.state == .draining)).getD false
      if skip = some r.holder ∨ ¬ here ∨ firstVideo s conf r.holder = none then none else some r.holder

/-! ### Stitching (R254, R257-R259) -/

/-- The tile sets of a codec in a conference, by ascending index. -/
def tilesetsOf (s : State) (conf codec : Nat) : List (Nat × TileSet) :=
  tfilter s.obj.tilesets.live fun _ t => decide (t.conf = conf) && decide (t.codec = codec)

/-- Layers in tile scan order: by rows, then columns. -/
def scanBefore (a b : Layer) : Bool := decide (a.y < b.y) || (decide (a.y = b.y) && decide (a.x ≤ b.x))

def insertLayer (a : Layer) : List Layer → List Layer
  | [] => [a]
  | b :: r => if scanBefore a b then a :: b :: r else b :: insertLayer a r

def scanOrder (ls : List Layer) : List Layer := ls.foldr insertLayer []

/-- Distinct numbers in rising order. -/
def insertNat (a : Nat) : List Nat → List Nat
  | [] => [a]
  | b :: r => if a < b then a :: b :: r else if a = b then b :: r else b :: insertNat a r

def distinct (l : List Nat) : List Nat := l.foldr insertNat []

/-- The element after x in a rising list. -/
def after (x : Nat) : List Nat → Option Nat
  | [] => none
  | a :: r => if x < a then some a else after x r

/-- The layers are the cells of a grid that covers the canvas (Table 09-6: coverage, grid). -/
def isGrid (l : Layout) : Bool :=
  let xs := distinct (l.layers.map (·.x) ++ [l.w])
  let ys := distinct (l.layers.map (·.y) ++ [l.h])
  decide (xs.head? = some 0) && decide (ys.head? = some 0) &&
  decide (l.layers.length = (xs.length - 1) * (ys.length - 1)) &&
  (l.layers.all fun a => decide (after a.x xs = some (a.x + a.w)) && decide (after a.y ys = some (a.y + a.h))) &&
  !(hasDup (l.layers.map fun a => a.x * 65536 + a.y))

/-- Alignment of Table 09-6. -/
def isAligned (l : Layout) : Bool :=
  l.layers.all fun a =>
    decide (a.x % 64 = 0) && decide (a.y % 64 = 0) &&
    (if a.x + a.w = l.w then decide (a.w % 8 = 0) else decide (a.w % 64 = 0)) &&
    (if a.y + a.h = l.h then decide (a.h % 8 = 0) else decide (a.h % 64 = 0))

/-- A tile set serves a layer: size, fit mode and bank (Table 09-6). -/
def TileSet.fits (t : TileSet) (l : Layout) (a : Layer) : Bool :=
  decide (t.w = a.w) && decide (t.h = a.h) && decide (t.fit = a.fit) && decide (t.bank = a.bank) && (t.tenBit == l.tenBit)

/-- The member of a tile set that holds a rank, or a source. -/
def TileSet.member (t : TileSet) (rank : Option Nat) (source : Handle) : Option Nat :=
  (indexed t.members).findSome? fun (i, m) => match rank with
    | some r => if m.isRank ∧ m.rank = r then some i else none
    | none => if ¬ m.isRank ∧ m.source = source ∧ m.ctx.isSome then some i else none

/-- The tile stream of a rank or source for a layer: tile set and member. -/
def tileFor (ts : List (Nat × TileSet)) (l : Layout) (a : Layer) (rank : Option Nat) (source : Handle) : Option (Nat × Nat) :=
  ts.findSome? fun (i, t) => if t.fits l a then (t.member rank source).map fun m => (i, m) else none

/-- The leg that a composite's talker-rank layers leave out (R257). -/
def excludedLeg (leg : Nat) (d : StreamRec) (l : Layout) : Option Nat :=
  if d.self then some leg else if l.excl then some (hIndex l.exclLeg) else none

/-- The inbound stream that a handle names, while its leg is in the conference that shows it: it has not been detached nor moved away (R49, R50,
R216). -/
def sourceLive (s : State) (conf : Nat) (h : Handle) : Option Nat :=
  (liveIndex s tyIn h).bind fun i => match s.obj.ins.at? i with
    | some x => if x.onTrunk then some i else match s.obj.legs.at? x.owner with
      | some l => if l.state = .draining ∨ l.conf ≠ conf then none else some i
      | none => none
    | none => none

/-- The streams that a layer needs (Table 09-6, Tiles); a source that has been removed needs none (R259). -/
def layerServed (s : State) (ts : List (Nat × TileSet)) (l : Layout) (excl : Bool) (a : Layer) : Bool :=
  match a.kind with
  | 0 => (tileFor ts l a none a.source).isSome || (sourceLive s l.conf a.source).isNone
  | 1 => (tileFor ts l a (some a.rank) 0).isSome && (!excl || (tileFor ts l a (some (a.rank + 1)) 0).isSome)
  | _ => true

/-- Every condition of Table 09-6 holds, and the block selects the automatic path (R257). -/
def stitchable (s : State) (conf leg : Nat) (d : StreamRec) (l : Layout) : Bool :=
  let ts := tilesetsOf s conf (d.blk 0 1)
  let excl := (excludedLeg leg d l).isSome
  decide (l.conf = conf) && decide (d.blk 1 1 = 0) && (d.blk 0 1 == 3 || d.blk 0 1 == 5) &&
  (match ts with
    | [] => false
    | (_, t) :: _ => decide (t.rate = l.rate) && decide (t.layers = d.blk 2 1) && (t.tenBit == l.tenBit)) &&
  (l.layers.all fun a => decide (a.kind ≠ 2) && decide (a.alpha = 255)) && isGrid l && isAligned l &&
  l.layers.all (layerServed s ts l excl) &&
  ts.any fun (_, t) => !t.bridges.isEmpty && decide (l.w ≤ t.bridgeW) && decide (l.h ≤ t.bridgeH)

/-- The tile stream that each position takes now (R259); none for a fill tile. -/
def tileAssign (s : State) (conf leg : Nat) (d : StreamRec) (l : Layout) : List (Option (Nat × Nat)) :=
  let ts := tilesetsOf s conf (d.blk 0 1)
  let ranks := videoRanks s conf none
  let pos := match excludedLeg leg d l with
    | some x => (indexed ranks).findSome? fun (i, r) => if r = x then some i else none
    | none => none
  (scanOrder l.layers).map fun a => match a.kind with
    | 0 => tileFor ts l a none a.source
    | 1 => tileFor ts l a (some (match pos with
        | some p => if p ≤ a.rank then a.rank + 1 else a.rank
        | none => a.rank)) 0
    | _ => none

/-- The canvas, and for each position in tile scan order its rectangle and the colour it shows without a stream (R258, R259). -/
def geomOf (l : Layout) : List Nat :=
  [l.w, l.h] ++ (scanOrder l.layers).flatMap fun a =>
    let (y, cb, cr) := if a.kind = 3 then a.fill else l.emptyFill
    [a.x, a.y, a.w, a.h, y, cb, cr]

/-- A change of assignment is a cut: some position takes a different tile stream, or the grid changes (R263). A change to a fill tile is
none. -/
def isCut (old new : List (Option (Nat × Nat))) : Bool :=
  decide (old.length ≠ new.length) || ((old.zip new).any fun (a, b) => match a, b with
    | some x, some y => decide (x ≠ y)
    | none, some _ => true
    | _, none => false)

/-- Canvas and rectangles of a geometry. -/
def gridOf : List Nat → List Nat
  | w :: h :: r => w :: h :: ((indexed r).filter fun x => decide (x.1 % 7 < 4)).map (·.2)
  | r => r

/-! ### The path of a composite (R246, R261-R265) -/

/-- Pictures per second reserved at a stitcher. -/
def stitchUsed (s : State) (n : Nat) : Nat :=
  total (s.obj.outs.live.map fun (_, o) => match o.comp with
    | some c => if c.stitcher = some n then
        (match (liveIndex s tyLayout o.decl.layout).bind s.obj.layouts.at? with
          | some l => l.rate
          | none => 0) else 0
    | none => 0)

/-- The stitcher of a cluster is out of service (Table 16-11). -/
def stitcherQuar (s : State) (n : Nat) : Bool := (tgetD s.video.clusters n {}).stitch.quar

/-- What a stitcher has reserved, all of it when it is out of service. -/
def stitchLoad (s : State) (n : Nat) : Nat := if stitcherQuar s n then 40000 else stitchUsed s n

/-- A composite changed. -/
def updComp (i : Nat) (f : Comp → Comp) : State → State := updOut i fun o => { o with comp := o.comp.map f }

/-- The handle of an outbound stream. -/
def outHandle (s : State) (i : Nat) : Handle := handleOf s tyOut i

/-- Ask the bridge pool for a bridge; a leg that holds one, or asks already, adds no request (R261). -/
def askBridge (i : Nat) (s : State) : State :=
  match s.obj.outs.at? i with
  | none => s
  | some o =>
    match o.comp, s.obj.legs.at? o.leg with
    | some c, some l =>
      let waits := ((s.obj.confs.at? l.conf).map fun k => k.bridgeWait.any fun r => decide (r.stream = i)).getD false
      if c.bridge.isSome ∨ (c.path = .bridged ∧ c.priv.isSome) ∨ waits then s
      else countObj 0x0502 (outHandle s i) 10 1 (updConf l.conf (fun k => { k with
        bridgeWait := k.bridgeWait ++ [{ codec := o.decl.blk 0 1, stream := i }] }) s)
    | _, _ => s

/-- Give a bridge back to its pool. -/
def freeBridge (i : Nat) (s : State) : State :=
  match ((s.obj.outs.at? i).bind (·.comp)).bind (·.bridge) with
  | none => s
  | some (t, n) =>
    updComp i (fun c => { c with bridge := none })
      (updTileset t (fun x => { x with bridges := modAt x.bridges n fun b => { b with holder := none } }) s)

/-- Leave the stitched path: bridge and request go (R246, R265). -/
def leaveStitch (i : Nat) (s : State) : State :=
  let s := freeBridge i s
  let s := setConfs (fun t => { t with live := tmap t.live fun _ k =>
    { k with bridgeWait := k.bridgeWait.filter fun r => decide (r.stream ≠ i) } }) s
  updComp i (fun c => { c with stitcher := none, tiles := [], path := .compose }) s

/-- Give a private encode back. -/
def dropPriv (i : Nat) (s : State) : State :=
  match ((s.obj.outs.at? i).bind (·.comp)).bind (·.priv) with
  | none => s
  | some e => freeEnc e (updComp i (fun c => { c with priv := none, selfRate := none }) s)

/-- The compose rate of a layout picture (R212). -/
def Layout.baseRun (l : Layout) : List Layer :=
  let lows := (l.layers.filter fun a => !a.isStatic).map (·.z)
  l.layers.filter fun a => a.isStatic && lows.all fun z => decide (a.z < z)

def Layout.cost (l : Layout) : Nat :=
  l.w * l.h + total ((l.layers.filter fun a => !(l.baseRun.any fun b => decide (b.z = a.z))).map fun a => a.w * a.h)

/-- Reserve a private encode, with compose rate under SELF (R246). -/
def addPriv (i : Nat) (o : OutStream) (l : Layout) (s : State) : Adm := do
  let d := o.decl
  let (e, s) ← addEnc (.priv i) o.tenant l.w l.h l.tenBit l.rate (d.blk 2 1) (d.blk 0 1) (d.blk 23 1) s
  if d.self then
    match homeFor (cmpUsed s) 4000000000 (l.cost * l.rate) with
    | none => .error 0x0105
    | some h => .ok (updComp i (fun c => { c with priv := some e, selfRate := some (h.val, l.cost * l.rate) }) s)
  else .ok (updComp i (fun c => { c with priv := some e }) s)

/-- A private encode still suits the layout's canvas, rate and the block's L, codec and K; a changed one is reserved anew
(DEDUCED, log entry 23). -/
def privSuits (s : State) (c : Comp) (d : StreamRec) (l : Layout) : Bool :=
  match c.priv.bind s.obj.encs.at? with
  | some e => decide (e.w = l.w) && decide (e.h = l.h) && decide (e.f = l.rate) && decide (e.layers = d.blk 2 1) &&
      decide (e.codec = d.blk 0 1) && (e.tenBit == l.tenBit) && decide (e.capMult = d.blk 23 1) &&
      (decide (c.selfRate.isSome = d.self)) && (match c.selfRate with
        | some (_, r) => decide (r = l.cost * l.rate)
        | none => true)
  | none => false

/-- A private encode that changes its part starts with a key picture, regardless of KEY_MIN_INTERVAL (R265). -/
def freshPriv (c : Comp) (s : State) : State :=
  match c.priv with
  | some e => updEnc e (fun e => { e with lastKey := none, lastPic := none }) s
  | none => s

/-- Evaluate a composite's path again (R246); `joining` marks its declaration. -/
def evalComp (joining : Bool) (i : Nat) (s : State) : Adm := do
  match s.obj.outs.at? i with
  | none => .ok s
  | some o =>
    match o.comp, s.obj.legs.at? o.leg, (liveIndex s tyLayout o.decl.layout).bind s.obj.layouts.at? with
    | some c, some leg, some l =>
      let can := stitchable s leg.conf o.leg o.decl l
      let now := tileAssign s leg.conf o.leg o.decl l
      if c.stitcher.isSome then
        if can then
          if c.bridge.isSome ∨ c.path = .bridged then do
            let s ← if c.priv.isNone ∨ privSuits s c o.decl l then (.ok s : Adm) else addPriv i o l (dropPriv i s)
            .ok (updComp i (fun c => { c with tiles := now, geom := geomOf l }) s)
          else if isCut c.tiles now ∨ gridOf c.geom ≠ gridOf (geomOf l) then .ok (askBridge i s)
          else .ok (updComp i (fun c => { c with tiles := now, geom := geomOf l }) s)
        else
          let s ← if privSuits s c o.decl l then (.ok (freshPriv c s) : Adm) else addPriv i o l (dropPriv i s)
          .ok (leaveStitch i s)
      else
        match (if can then homeFor (stitchLoad s) 40000 l.rate else none) with
        | some n =>
          let alone := joining || c.priv.isNone
          let s := freshPriv c (updComp i (fun c => { c with stitcher := some n.val, tiles := now, geom := geomOf l, paramsOwed := true,
                                                             path := if alone then .waiting else .bridged }) s)
          .ok (if alone then askBridge i s else s)
        | none =>
          let s := if can then countObj 0x0502 (outHandle s i) 13 1 s else s
          if privSuits s c o.decl l then .ok s
          else addPriv i o l (dropPriv i s)
    | _, _, _ => .ok s

/-- Evaluate every composite of a conference, in stream order (R246). -/
def evalConf (conf : Nat) (s : State) : Adm :=
  (s.obj.outs.live.filter fun (_, o) => o.comp.isSome && (match s.obj.legs.at? o.leg with
    | some l => decide (l.conf = conf) && !(l.state == .draining)
    | none => false)).foldlM (fun s (i, _) => evalComp false i s) s

/-! ### Decode notes (R192, R193, R218) -/

/-- The conference that a GCONF names on this device. -/
def confOfGconf (s : State) (g : Nat) : Option Nat :=
  (tfind s.obj.confs.live fun _ c => match c.globalId with
    | some x => decide (x.toNat = g)
    | none => false).map (·.1)

/-- The conference of a source's leg; none for a remote source. -/
def confOfIn (s : State) (x : InStream) : Option Nat :=
  if x.onTrunk then none else (s.obj.legs.at? x.owner).map (·.conf)

/-- The conferences that may show a source: its leg's; for a remote source the cascade conferences of its tenant (DESIGN CHOICE, log entry 47). -/
def confsOfIn (s : State) (x : InStream) : List Nat :=
  if x.onTrunk then (tfilter s.obj.confs.live fun _ c => decide (c.tenant = x.tenant) && c.globalId.isSome).map (·.1) else (confOfIn s x).toList

/-- The conference composes: its sources have decode contexts (R187). -/
def composes (s : State) (conf : Nat) : Bool := ((s.obj.confs.at? conf).map fun c => decide (c.mode = 2)).getD false

/-- Layouts and tile sets place a source: the largest width and height; none when nothing places it. A talker-rank layer or member counts for every
source. -/
def placement (s : State) (confs : List Nat) (i : Nat) : Option (Nat × Nat) :=
  let ls := ((tfilter s.obj.layouts.live fun _ l => confs.contains l.conf).map (·.2.layers)).flatten
  let ps := (ls.filter fun a => decide (a.kind = 1) || (decide (a.kind = 0) && decide (liveIndex s tyIn a.source = some i))).map
    fun a => (a.w, a.h)
  let ts := ((tfilter s.obj.tilesets.live fun _ t => confs.contains t.conf).filter fun (_, t) =>
    t.members.any fun m => m.isRank || decide (liveIndex s tyIn m.source = some i)).map fun (_, t) => (t.w, t.h)
  match ps ++ ts with
  | [] => none
  | p :: r => some (r.foldl (fun a b => (if a.1 < b.1 then b.1 else a.1, if a.2 < b.2 then b.2 else a.2)) p)

/-- The decode note that R192 chooses for a placement. -/
def chooseNote (d : StreamRec) (w h : Nat) : Nat :=
  if d.blk 1 1 ≠ 0 then d.blk 1 1 - 1 else
  let fit := d.present.filter fun n => decide ((d.sizeOf n).1 ≤ d.blk 4 2) && decide ((d.sizeOf n).2 ≤ d.blk 6 2)
  match fit.find? fun n => decide (w ≤ (d.sizeOf n).1) && decide (h ≤ (d.sizeOf n).2) with
  | some n => n
  | none => fit.getLast?.getD 0

/-- The key that names an encoding of a source in key requests: its position in `encs`. -/
def encOfNote (x : InStream) (note : Nat) : Nat :=
  if x.decl.form = 1 then ((indexed x.encs).findSome? fun (i, e) => if e.note = note then some i else none).getD 0 else 0

/-- A move of the decode note that only a key picture permits (Table 06-4): any move of a simulcast source, and a move upward. -/
def noteNeedsKey (x : InStream) (now want : Nat) : Bool := decide (now < want) || (decide (x.decl.form = 1) && decide (now ≠ want))

/-- A key request for an encoding is owed, in an episode of its own (R205). -/
def oweKey (k : Nat) (encs : List Encoding) : List Encoding := modAt encs k fun e => { e with owed := true, episode := none }

/-- A context leaves IDLE when its source is placed, with every buffer free, and enters it when nothing places it (R193); a change of the chosen note
that needs a key picture owes a request (R192, R205), but for a context in OVER_LIMIT (R191). -/
def placeSource (i : Nat) (s : State) : State :=
  match s.obj.ins.at? i with
  | none => s
  | some x =>
    match x.dec with
    | none => s
    | some d =>
      match placement s (confsOfIn s x) i with
      | none => updIn i (fun x => { x with dec := some { d with state := .idle, target := none } }) s
      | some (w, h) =>
        let n := chooseNote x.decl w h
        if d.state = .idle then
          updIn i (fun x => { x with
            dec := some { d with state := .waitKey, note := n, target := some n, bufs := d.bufs.map fun _ => freshBuf, handed := none
                                 slots := List.replicate 8 none, missing := [], gap := false, recovery := none, frameNum := none }
            encs := oweKey (encOfNote x n) x.encs }) s
        else
          let owe := decide (d.target ≠ some n) && noteNeedsKey x d.note n && !(d.state == .overLimit)
          updIn i (fun x => { x with
            dec := some { d with target := some n }, encs := if owe then oweKey (encOfNote x n) x.encs else x.encs }) s

/-- Re-evaluate the placement of every source that a conference may show. -/
def placeAll (conf : Nat) (s : State) : State :=
  (s.obj.ins.live.filter fun (_, x) => (confsOfIn s x).contains conf).foldl (fun s (i, _) => placeSource i s) s

/-- A source has a decode context while a conference that may show it composes (R187): the context is reserved or returned, and the source placed. -/
def fitDec (i : Nat) (s : State) : Adm := do
  match s.obj.ins.at? i with
  | none => .ok s
  | some x =>
    if (confsOfIn s x).any (composes s) then
      let s ← reserveDec i s
      .ok (placeSource i s)
    else .ok (releaseDec i s)

/-- The remote sources of a tenant, when a cascade conference changed. -/
def fitRemotes (tenant : Option Nat) (s : State) : Adm :=
  (s.obj.ins.live.filter fun (_, x) => x.onTrunk && decide (some x.tenant = tenant)).foldlM (fun s (i, _) => fitDec i s) s

end Sys2Proof.Machine
end

