-- ==== Sys2Proof/Machine/Egress.lean ====
section
/-! DEFINITION. Packets on their way out: headers, lengths, admission to Sillage (R100, R106, R137, R168, R431, R434) and the
RTCP messages that Virorku originates. -/

namespace Sys2Proof.Machine

/-! ### Headers on the wire -/

/-- One's complement sum of 16-bit words in network order. -/
def sum16 (bs : List Byte) : Nat :=
  let words := (List.range (ceilDiv bs.length 2)).map fun i => beAt bs (2 * i) 2
  let x := total words
  let y := x % 65536 + x / 65536
  let z := y % 65536 + y / 65536
  z % 65536 + z / 65536

/-- The Internet checksum. -/
def csum (bs : List Byte) : Nat := 65535 - sum16 bs

/-- Bytes of Ethernet and IP and UDP headers in front of a UDP payload. -/
def Transport.headLen (t : Transport) : Nat := 14 + (if t.vid = 0 then 0 else 4) + (if t.v6 then 40 else 20) + 8

/-- Priority of a transport's packets: its PCP, 0 for an untagged one (R110, R173). -/
def Transport.prio (t : Transport) : Nat := if t.vid = 0 then 0 else t.pcp

/-- Frame length (R100) of a UDP payload of n bytes, padded (R106). -/
def Transport.frameLen (t : Transport) (n : Nat) : Nat := let l := t.headLen + n + 4; if l < 64 then 64 else l

/-- The headers of a datagram; standard fields are PRESUMED from IEEE 802.3, RFC 791, RFC 8200 and RFC 768 (log entry 24). -/
def Transport.head (t : Transport) (src : BitVec 48) (ecn : Nat) (payload : List Byte) : List Byte :=
  let f := fun i => (Config.ipField i).toNat
  let la := t.laddr.take (if t.v6 then 16 else 4)
  let ra := t.raddr.take (if t.v6 then 16 else 4)
  let ulen := 8 + payload.length
  let udp0 := beBytes 2 t.lport ++ beBytes 2 t.rport ++ beBytes 2 ulen
  let pseudo := la ++ ra ++ (if t.v6 then beBytes 4 ulen ++ [0, 0, 0, 17] else [0, 17] ++ beBytes 2 ulen)
  let ck := csum (pseudo ++ udp0 ++ [0, 0] ++ payload)
  let udp := udp0 ++ beBytes 2 (if ck = 0 then 65535 else ck)
  let tos := f 0 % 64 * 4 + ecn
  let ip :=
    if t.v6 then beBytes 4 (6 * 2 ^ 28 + tos * 2 ^ 20 + f 4 % 2 ^ 20) ++ beBytes 2 ulen ++ [17, BitVec.ofNat 8 (f 3)] ++ la ++ ra
    else
      let h := [0x45, BitVec.ofNat 8 tos] ++ beBytes 2 (20 + ulen) ++ beBytes 2 (f 1) ++ beBytes 2 (f 2) ++ [BitVec.ofNat 8 (f 3), 17]
      h ++ beBytes 2 (csum (h ++ [0, 0] ++ la ++ ra)) ++ la ++ ra
  let tag := if t.vid = 0 then [] else [0x81, 0x00] ++ beBytes 2 (t.pcp * 8192 + t.vid)
  beBytes 6 (Config.nextHop ra).toNat ++ beBytes 6 src.toNat ++ tag ++ (if t.v6 then [0x86, 0xDD] else [0x08, 0x00]) ++ ip ++ udp

/-! ### RTP (RFC 3550) -/

/-- Length of an RTP header with its CSRCs and extension. -/
def rtpHeadLen (p : List Byte) : Nat :=
  let n := 12 + 4 * (beAt p 0 1 % 16)
  if bit (beAt p 0 1) 4 then n + 4 + 4 * beAt p (n + 2) 2 else n

/-- Length of the header extension with its own header (R136). -/
def rtpExtLen (p : List Byte) : Nat :=
  if bit (beAt p 0 1) 4 then 4 + 4 * beAt p (12 + 4 * (beAt p 0 1 % 16) + 2) 2 else 0

/-- The payload of an RTP packet, without padding (RFC 3550, PRESUMED, log entry 137). -/
def rtpData (p : List Byte) : List Byte :=
  let d := p.drop (rtpHeadLen p)
  if bit (beAt p 0 1) 5 then d.take (d.length - beAt d (d.length - 1) 1) else d

/-- An RTP packet: payload type, marker, sequence number, timestamp, SSRC and payload. -/
def rtpPacket (pt : Nat) (marker : Bool) (seq ts ssrc : Nat) (payload : List Byte) : List Byte :=
  [0x80, BitVec.ofNat 8 (b2n marker * 128 + pt % 128)] ++ beBytes 2 (seq % 65536) ++ beBytes 4 (ts % 2 ^ 32) ++ beBytes 4 ssrc ++ payload

/-! ### Objects of a packet -/

/-- The transport of a packet's leg or trunk. -/
def transportOf (s : State) (trunk : Bool) (owner : Nat) : Option Transport :=
  if trunk then (s.obj.trunks.at? owner).map (·.transport) else (s.obj.legs.at? owner).map (·.transport)

/-- Bytes that a slot's profile adds to a packet (Table 05-1). -/
def tagBytes (profile : Nat) (rtcp : Bool) : Nat :=
  if profile = 1 then (if rtcp then 14 else 10) else if profile = 2 then (if rtcp then 14 else 4) else if rtcp then 20 else 16

/-- Length of a packet's UDP payload as it will leave. -/
def EgPkt.payloadLen (s : State) (p : EgPkt) : Nat :=
  match p.cipher with
  | some c => c.length
  | none =>
    if p.raw then p.plain.length
    else match (s.obj.slots.at? (hIndex p.slot)).bind (·.key) with
      | some k => p.plain.length + tagBytes k.profile.toNat p.rtcp
      | none => p.plain.length

/-- Frame length of a packet (R100, R106). -/
def EgPkt.frameLen (s : State) (p : EgPkt) : Nat :=
  match transportOf s p.onTrunk p.owner with
  | some t => t.frameLen (p.payloadLen s)
  | none => 64

/-- Egress stream ID of a packet (R431). -/
def EgPkt.streamId (p : EgPkt) : Nat :=
  if p.raw then 65536 + (if p.onTrunk then 8192 + p.owner else p.owner) else hIndex p.slot

/-- Class number, in the priority order of Table 06-5. -/
def EgClass.num : EgClass → Nat
  | .audio => 0
  | .control => 1
  | .rtx => 2
  | .base => 3
  | .heart => 4
  | .top => 5

/-- Class number for the rates of R158; 6 for the composite video stream. -/
def EgPkt.rateClass (p : EgPkt) : Nat := if p.cls = .heart ∧ p.stream.isSome then 6 else p.cls.num

/-- Where the two bytes of a transport-wide sequence element stand in extension data; `wide` is the two-byte form (RFC 8285). -/
def twsnPlace (wide : Bool) (id : Nat) : Nat → Nat → List Byte → Option Nat
  | 0, _, _ => none
  | fuel + 1, off, data =>
    if data.length ≤ off then none
    else
      let b := beAt data off 1
      if b = 0 then twsnPlace wide id fuel (off + 1) data
      else
        let head := if wide then 2 else 1
        let n := if wide then beAt data (off + 1) 1 else b % 16 + 1
        if (if wide then b else b / 16) = id ∧ n = 2 then some (off + head) else twsnPlace wide id fuel (off + head + n) data

/-- An RTP packet with the two-byte transport-wide sequence element in its header extension (RFC 8285, PRESUMED, log entry 41): the element that the
extension has, or one more, or a new one-byte form extension. An extension of another profile stays as it is. -/
def addTwsn (p : List Byte) (n : Nat) : List Byte :=
  let at_ := 12 + 4 * (beAt p 0 1 % 16)
  let id := Config.twccId.toNat
  let pad := fun (bs : List Byte) => slice bs 0 (ceilDiv bs.length 4 * 4)
  if bit (beAt p 0 1) 4 then
    let words := beAt p (at_ + 2) 2
    let data := slice p (at_ + 4) (4 * words)
    let prof := beAt p at_ 2
    let wide := decide (prof / 16 = 0x100)
    if wide ∨ prof = 0xBEDE then
      match twsnPlace wide id (data.length + 1) 0 data with
      | some o => patch p (at_ + 4 + o) (beBytes 2 n)
      | none =>
        let data := pad (data ++ (if wide then [BitVec.ofNat 8 id, 2] else [BitVec.ofNat 8 (id * 16 + 1)]) ++ beBytes 2 n)
        p.take (at_ + 2) ++ beBytes 2 (data.length / 4) ++ data ++ p.drop (at_ + 4 + 4 * words)
    else p
  else [BitVec.ofNat 8 (beAt p 0 1 + 16)] ++ (p.take at_).drop 1 ++ [0xBE, 0xDE, 0, 1] ++ pad (BitVec.ofNat 8 (id * 16 + 1) :: beBytes 2 n) ++
    p.drop at_

/-- The transport-wide sequence number of an outbound RTP packet of a leg with TWCC set, in admission order (R154). -/
def withTwsn (p : EgPkt) (s : State) : List Byte × State :=
  if p.onTrunk ∨ p.rtcp ∨ p.raw then (p.plain, s)
  else match s.obj.legs.at? p.owner with
    | none => (p.plain, s)
    | some l =>
      if l.est.flags.getLsbD 0 then (addTwsn p.plain l.twsn.toNat, updLeg p.owner (fun l => { l with twsn := l.twsn + 1 }) s)
      else (p.plain, s)

/-- CRC-64 of R434, one byte, without reflection. -/
def crc64Step : Nat → Nat → Nat
  | 0, c => c
  | n + 1, c => crc64Step n (if 2 ^ 63 ≤ c then (c * 2 % 2 ^ 64) ^^^ 0x42F0E1EBA9EA3693 else c * 2)

def crc64 (c : Nat) (bs : List Byte) : Nat := bs.foldl (fun c b => crc64Step 8 (c ^^^ b.toNat * 2 ^ 56)) c

/-- The digest record being formed for an object, with one more packet (R434). -/
def formDigest (obj tick : Nat) (bs : List Byte) : List DigestRec → List DigestRec
  | [] => [{ tick := tick, object := obj, count := 1, crc := BitVec.ofNat 64 (crc64 (2 ^ 64 - 1) bs) }]
  | d :: r =>
    if d.object = obj ∧ d.tick = tick then
      { d with count := d.count + 1, crc := BitVec.ofNat 64 (crc64 d.crc.toNat bs) } :: r
    else d :: formDigest obj tick bs r

/-- Twin protection covers the tenant, its objects being synced (R445). -/
def tenantProtected (s : State) (t : Nat) : Bool := ((s.obj.tenants.at? t).map (·.prot)).getD false && !s.twin.unsynced.contains t

/-- Admit a packet to Sillage (R137, R166, R431, R434): it takes the next number of its egress stream, counts for the rates of R158, and for a
protected object enters the digest of the current interval. A packet whose leg or trunk is gone is not admitted. -/
def enterTx (p : EgPkt) (s : State) : State :=
  match transportOf s p.onTrunk p.owner with
  | none => s
  | some t =>
    let id := p.streamId
    let n := tgetD s.media.numbers id 0 + 1
    let (plain, s) := withTwsn p s
    let p := { p with number := n, port := t.port, born := if p.born = 0 then logNs s else p.born, plain := plain }
    let len := p.frameLen s
    let now := logNs s
    let s := { s with media := { s.media with numbers := tput s.media.numbers id n, egress := s.media.egress ++ [p] } }
    let s := if p.onTrunk then s else updLeg p.owner (fun l => { l with
      sent := (l.sent.filter fun x => decide (now < x.1 + 500000000)) ++ [(now, p.rateClass, len)] }) s
    if s.twin.prot ∧ tenantProtected s p.tenant then
      let obj := (handleOf s (if p.onTrunk then tyTrunk else tyLeg) p.owner).toNat
      let line := leBytes 4 id ++ leBytes 2 p.plain.length ++ p.plain
      { s with twin := { s.twin with forming := formDigest obj s.media.tick line s.twin.forming } }
    else s

/-- A packet of a leg with the fields that its producer fixes. -/
def legPkt (leg : Nat) (l : Leg) (cls : EgClass) (ssrc : Word) (slot : Handle) (rtcp : Bool) (plain : List Byte) : EgPkt :=
  { owner := leg, onTrunk := false, tenant := l.tenant, port := l.transport.port, cls := cls, ssrc := ssrc, slot := slot, rtcp := rtcp,
    plain := plain, born := 0, cipher := none, raw := false, stream := none, notBefore := 0, number := 0 }

/-- The leg sends media now (Table 02-9). -/
def Leg.sends (l : Leg) : Bool := l.state == .active

/-- The leg sends RTCP now. -/
def Leg.sendsRtcp (l : Leg) : Bool := l.state == .active || l.state == .held

/-! ### RTCP that Virorku originates (RFC 3550, RFC 4585, RFC 5104) -/

/-- An RTCP feedback message: packet type, format, sender, media SSRC and body of whole words. It is sent alone (PRESUMED, RFC 5506, log
entry 25). -/
def rtcpFb (pt fmt : Nat) (sender media : Word) (fci : List Byte) : List Byte :=
  [BitVec.ofNat 8 (128 + fmt), BitVec.ofNat 8 pt] ++ beBytes 2 (2 + fci.length / 4) ++ beBytes 4 sender.toNat ++ beBytes 4 media.toNat ++ fci

/-- An RTCP BYE of one SSRC. -/
def rtcpBye (ssrc : Word) : List Byte := [0x81, 203, 0, 1] ++ beBytes 4 ssrc.toNat

/-- The generic NACK items that name missing sequence numbers: a number and the bit mask of the 16 after it (RFC 4585, 6.2.1). -/
def nackItems : Nat → List Nat → List Byte
  | 0, _ => []
  | _, [] => []
  | fuel + 1, x :: r =>
    let near := r.filter fun y => decide (x < y) && decide (y ≤ x + 16)
    let far := r.filter fun y => !(decide (x < y) && decide (y ≤ x + 16))
    let mask := total (near.map fun y => 2 ^ (y - x - 1))
    beBytes 2 (x % 65536) ++ beBytes 2 mask ++ nackItems fuel far

/-- Admit an RTCP packet of a leg to its control class, under the outbound SRTCP slot; a leg that does not send RTCP sends none. -/
def sendRtcp (leg : Nat) (plain : List Byte) (s : State) : State :=
  match s.obj.legs.at? leg with
  | some l => if l.sendsRtcp then enterTx (legPkt leg l .control l.rtcpSsrc l.rtcpOut true plain) s else s
  | none => s

/-! ### Trunk datagrams (R58, R178) -/

/-- The 24-byte header of Table 02-13; TSEQ is left to Attar. -/
def trunkHead (ty flags hops dev plen gconf gleg note tl tick : Nat) : List Byte :=
  beBytes 4 (2 ^ 28 + ty * 2 ^ 24 + flags * 2 ^ 16 + 6 * 256 + hops) ++ beBytes 4 (dev * 2 ^ 20 + plen) ++ beBytes 4 (gconf * 256) ++
  beBytes 4 0 ++ beBytes 4 (gleg * 128 + note * 32 + tl * 8) ++ beBytes 4 (tick % 2 ^ 32)

/-- The rank of a trunk packet type in admission at one log position: 1, 2, 3, 4, 0 (R178). -/
def trunkRank (ty : Nat) : Nat := if ty = 0 then 5 else ty

/-- Put a packet behind those of its rank or a lower one. -/
def insertRank (r : Nat) (p : EgPkt) : List (Nat × EgPkt) → List (Nat × EgPkt)
  | [] => [(r, p)]
  | x :: l => if x.1 ≤ r then x :: insertRank r p l else (r, p) :: x :: l

/-- The trunk packets of a log position are admitted, in the order of R178. -/
def flushTrunks (s : State) : State :=
  s.media.trunkQ.foldl (fun s (x : Nat × EgPkt) => enterTx x.2 s) { s with media := { s.media with trunkQ := [] } }

/-- What an input does at its log position: its trunk packets are admitted together at the end, in the order of R178. -/
def inInput (f : State → State) (s : State) : State :=
  if s.media.inInput then f s
  else
    let t := f { s with media := { s.media with inInput := true } }
    flushTrunks { t with media := { t.media with inInput := false } }

/-- The log reaches the position of an input with this logged time. -/
def atPosition (time : Nat) (f : State → State) (s : State) : State :=
  inInput f { s with media := { s.media with logNow := time } }

/-- What the header of a trunk datagram says beyond the trunk's own fields (Table 02-13). A relayed datagram keeps `dev`, its originating device. -/
structure TrunkHdr where
  ty : Nat
  flags : Nat := 0
  hops : Nat := 8
  dev : Option Nat := none
  gconf : Nat
  gleg : Nat := 0
  note : Nat := 0
  tl : Nat := 0
  tick : Nat
  deriving DecidableEq, Repr

/-- Admit a trunk datagram in the trunk's FIFO (R178): the sending slot is that of the current phase. It waits for the other packets of its log
position. -/
def sendTrunk (i : Nat) (h : TrunkHdr) (payload : List Byte) (s : State) : State :=
  match s.obj.trunks.at? i with
  | none => s
  | some t =>
    let slot := t.tx.getD (b2n t.phase) 0
    let flags := (h.flags % 128) + b2n t.phase * 128
    let dev := h.dev.getD s.media.deviceId.toNat
    let plain := trunkHead h.ty flags h.hops dev payload.length h.gconf h.gleg h.note h.tl h.tick ++ payload
    let p : EgPkt := { owner := i, onTrunk := true, tenant := t.tenant, port := t.transport.port, cls := .base, ssrc := 0, slot := slot, rtcp := false,
                       plain := plain, born := logNs s, cipher := none, raw := false, stream := none, notBefore := 0, number := 0 }
    let s := updTrunk i (fun t => { t with lastSent := logNs s }) s
    if s.media.inInput then { s with media := { s.media with trunkQ := insertRank (trunkRank h.ty) p s.media.trunkQ } } else enterTx p s

/-- Global leg ID (R56). -/
def globalLeg (s : State) (leg : Nat) : Nat := s.media.deviceId.toNat * 8192 + leg

/-! ### Feedback toward a source (R161, R197, R205) -/

/-- Send feedback toward the sender of an inbound source: by RTCP of its leg, or as trunk TYPE 3 for a remote source (R197, R205). The layout
of a TYPE 3 payload is the RTCP packet itself (DEDUCED, log entry 26). -/
def feedback (i : Nat) (mk : Word → List Byte) (s : State) : State :=
  match s.obj.ins.at? i with
  | none => s
  | some x =>
    if x.onTrunk then sendTrunk x.owner { ty := 3, gconf := x.gconf, gleg := x.gleg, tick := s.media.tick } (mk 0) s
    else match s.obj.legs.at? x.owner with
      | some l => sendRtcp x.owner (mk l.rtcpSsrc) s
      | none => s

/-- Ask an encoding for a key picture: FIR when its sender negotiated it, else PLI; at most one per 200 ms per encoding, one more owed (R205).
`fresh` opens a new FIR episode. -/
def requestKey (i k : Nat) (fresh : Bool) (s : State) : State :=
  match s.obj.ins.at? i with
  | none => s
  | some x =>
    match x.encs[k]? with
    | none => s
    | some e =>
      let now := logNs s
      let early := match e.askedAt with
        | some t => decide (now < t + 200000000)
        | none => false
      if early then updIn i (fun x => { x with encs := modAt x.encs k fun e => { e with owed := true } }) s
      else
        let fir := bit (x.decl.blk 3 1) 1
        let n := if fresh ∨ e.episode = none then e.firSeq + 1 else e.firSeq
        let s := updIn i (fun x => { x with encs := modAt x.encs k fun e =>
          { e with askedAt := some now, owed := false, firSeq := n, episode := some (if fresh then now else e.episode.getD now) } }) s
        let s := countObj 0x0501 (handleOf s tyIn i) 12 1 s
        feedback i (fun me => if fir then rtcpFb 206 4 me 0 (beBytes 4 e.ssrc.toNat ++ [BitVec.ofNat 8 n.toNat, 0, 0, 0])
          else rtcpFb 206 1 me e.ssrc []) s

end Sys2Proof.Machine
end

