-- ==== Sys2Proof/Machine/Attar.lean ====
section
/-! DEFINITION. Attar: protection and checks of one packet, key slots and the key commands (chapter 5). -/

namespace Sys2Proof.Machine

/-! ### Slots -/

/-- The value of Table 05-3 that a slot reads. -/
def KeySlot.code (k : KeySlot) : Nat :=
  match k.state with
  | .empty => 0
  | .exhausted => 5
  | .erasing => 6
  | .loaded =>
    let held := k.retiring.isSome || k.fallback.isSome
    if k.half then (if held then 4 else 3) else if held then 2 else 1

/-- The slot at an index. -/
def slotAt (s : State) (i : Nat) : Option KeySlot := s.obj.slots.at? i

def isTrunkProfile (p : Nat) : Bool := p == 0x80
def isDouble (p : Nat) : Bool := p == 0x09 || p == 0x0A
def isGcm (p : Nat) : Bool := 7 ≤ p

/-- Session key bytes of a profile (Table 05-1). -/
def keyBytes (p : Nat) : Nat := if p = 0x08 ∨ p = 0x0A ∨ p = 0x80 then 32 else 16

/-- Half threshold and last index (Table 05-6). -/
def halfIndex (rtcp : Bool) : Nat := if rtcp then 2 ^ 30 else 2 ^ 47
def lastIndex (rtcp : Bool) : Nat := if rtcp then 2 ^ 31 - 1 else 2 ^ 48 - 1

/-- The block E of R128. -/
def blockE (k : SessKey) (ssrc : Word) : List Byte := aes k.key (List.replicate 12 0xFF ++ beBytes 4 ssrc.toNat)

/-- The first outbound index of a slot (R128): ROC 0 and the initial sequence number, or 0 for SRTCP and trunks. -/
def startIndex (k : SessKey) (rtcp : Bool) (ssrc : Option Word) : Nat :=
  match ssrc with
  | some x => if rtcp ∨ isTrunkProfile k.profile.toNat then 0 else beAt (blockE k x) 0 2 % 32768
  | none => 0

/-- Bind an outbound SSRC to a slot; another SSRC restarts its outbound index (R125, R128). -/
def bindSsrc (i : Nat) (ssrc : Word) : State → State := updSlot i fun k =>
  if k.ssrc = some ssrc then k
  else { k with ssrc := some ssrc, next := match k.key with
    | some x => startIndex x k.rtcp (some ssrc)
    | none => k.next }

/-! ### Uses of a slot (R125, R126) -/

/-- A use that an object makes of a slot. -/
structure SlotUse where
  slot : Handle
  outbound : Bool
  rtcp : Bool
  trunk : Bool
  /-- Double-encryption profiles are refused here (R126). -/
  noDouble : Bool
  /-- The object is a leg in ACTIVE or HELD. -/
  up : Bool
  deriving DecidableEq, Repr

/-- The slots that a leg names, in the order of R47, with their uses. -/
def legUses (s : State) (l : Leg) : List SlotUse :=
  let up := l.state == .active || l.state == .held
  let comp := ((s.obj.confs.at? l.conf).map fun c => decide (c.mode = 2)).getD false
  (l.ins.filterMap fun i => (s.obj.ins.at? i).map fun x =>
    { slot := x.decl.slot, outbound := false, rtcp := false, trunk := false, up := up,
      noDouble := decide (x.decl.kind = 0) || (decide (x.decl.kind = 1) && comp) }) ++
  (l.outs.flatMap fun i => match s.obj.outs.at? i with
    | some x => ([x.decl.slot, x.decl.rtxSlot, x.decl.fecSlot].filter fun h => decide (h ≠ 0)).map fun h =>
        { slot := h, outbound := true, rtcp := false, trunk := false, up := up,
          noDouble := decide (x.decl.kind = 0) || decide (x.decl.kind = 3) }
    | none => []) ++
  (l.slots.flatMap fun f => ([f.slot, f.rtxSlot].filter fun h => decide (h ≠ 0)).map fun h =>
    { slot := h, outbound := true, rtcp := false, trunk := false, up := up, noDouble := false }) ++
  [{ slot := l.rtcpIn, outbound := false, rtcp := true, trunk := false, up := up, noDouble := false },
   { slot := l.rtcpOut, outbound := true, rtcp := true, trunk := false, up := up, noDouble := false }]

/-- The slots that a trunk names, with their uses (R145). -/
def trunkUses (t : Trunk) : List SlotUse :=
  (t.tx.map fun h => { slot := h, outbound := true, rtcp := false, trunk := true, up := true, noDouble := false }) ++
  (t.rx.map fun h => { slot := h, outbound := false, rtcp := false, trunk := true, up := true, noDouble := false })

/-- Every use of a slot on the device. -/
def usesOf (s : State) (i : Nat) : List SlotUse :=
  ((s.obj.legs.live.flatMap fun kv => legUses s kv.2) ++ (s.obj.trunks.live.flatMap fun kv => trunkUses kv.2)).filter
    fun u => decide (hIndex u.slot = i)

/-- A key of this direction, kind and profile does not suit a use (R125, R126). -/
def misuse (u : SlotUse) (outbound rtcp : Bool) (profile : Nat) : Bool :=
  (u.outbound != outbound) || (u.rtcp != rtcp) || (u.trunk != isTrunkProfile profile) || (u.noDouble && isDouble profile)

/-- Outbound SSRCs that live objects bind to a slot (R125). -/
def boundSsrcs (s : State) (i : Nat) : List Word :=
  let hit := fun (h : Handle) (x : Word) => if h ≠ 0 ∧ hIndex h = i then [x] else []
  (s.obj.outs.live.flatMap fun (_, o) => hit o.decl.slot (o.decl.ssrcs.getD 0 0) ++ hit o.decl.rtxSlot (o.decl.rtx.getD 0 0) ++
    hit o.decl.fecSlot o.decl.fec) ++
  (s.obj.legs.live.flatMap fun (_, l) => l.slots.flatMap fun f => hit f.slot f.ssrc ++ hit f.rtxSlot f.rtxSsrc)

/-! ### One packet under one key (RFC 3711, RFC 7714, RFC 8723; R116, R117, R129, R145) -/

/-- IV of AES-CM: (salt × 2^16) ⊕ (SSRC × 2^64) ⊕ (index × 2^16). -/
def cmIv (k : SessKey) (ssrc idx : Nat) : List Byte :=
  xorBytes (slice k.salt 0 14 ++ [0, 0]) (beBytes 16 (ssrc * 2 ^ 64 + idx * 2 ^ 16))

/-- IV of GCM for SRTP: 00 00, SSRC, ROC and SEQ; for SRTCP: 00 00, SSRC, 00 00, index. -/
def gcmIv (k : SessKey) (ssrc idx : Nat) : List Byte :=
  xorBytes (slice k.salt 0 12) (beBytes 12 (ssrc * 2 ^ 48 + idx))

/-- IV of a trunk datagram (R145): 2 zero bytes, SRCDEV in the high 12 bits of 4 bytes, wrap count, TSEQ. -/
def trunkIv (k : SessKey) (dev idx : Nat) : List Byte :=
  xorBytes (slice k.salt 0 12) (beBytes 12 (dev * 2 ^ 20 * 2 ^ 48 + idx))

/-- Append or update the original header block of RFC 8723 where payload type, sequence number or SSRC changed (R129): earlier values stay. -/
def addOhb (payload : List Byte) (pt seq : Nat) (ssrc : Word) (orig : Nat × Nat × Word) : List Byte :=
  let cfg := beAt payload (payload.length - 1) 1
  let hasP := bit cfg 1
  let hasQ := bit cfg 0
  let n := 1 + (if hasP then 1 else 0) + (if hasQ then 2 else 0)
  let body := payload.take (payload.length - n)
  let old := payload.drop (payload.length - n)
  let p := if hasP then old.take 1 else if pt ≠ orig.1 then [BitVec.ofNat 8 orig.1] else []
  let q := if hasQ then (old.drop (if hasP then 1 else 0)).take 2 else if seq ≠ orig.2.1 then beBytes 2 orig.2.1 else []
  let x := if ssrc ≠ orig.2.2 then Config.ohbSsrc orig.2.2 else []
  body ++ x ++ p ++ q ++ [BitVec.ofNat 8 (cfg / 4 * 4 + (if p.isEmpty then 0 else 2) + (if q.isEmpty then 0 else 1))]

/-- The RTP packet that is protected at an index: its sequence number, and under a double profile the original header block (R127, R129). -/
def outerRtp (prof : Nat) (plain : List Byte) (idx : Nat) (orig : Option (Nat × Nat × Word)) : List Byte :=
  let p := patch plain 2 (beBytes 2 (idx % 65536))
  let n := rtpHeadLen p
  match orig with
  | some o => if isDouble prof then p.take n ++ addOhb (p.drop n) (beAt p 1 1 % 128) (idx % 65536) (BitVec.ofNat 32 (beAt p 8 4)) o else p
  | none => p

/-- Protect an RTP packet at an index (ROC and SEQ). -/
def sealRtp (k : SessKey) (plain : List Byte) (idx : Nat) (orig : Option (Nat × Nat × Word)) : List Byte :=
  let prof := k.profile.toNat
  let p := outerRtp prof plain idx orig
  let n := rtpHeadLen p
  let ssrc := beAt p 8 4
  if isGcm prof then p.take n ++ gcmSeal k.key (gcmIv k ssrc idx) (p.take n) (p.drop n)
  else
    let c := p.take n ++ aesCtr k.key 16 (cmIv k ssrc idx) (p.drop n)
    c ++ (hmac k.auth (c ++ beBytes 4 (idx / 65536))).take (if prof = 2 then 4 else 10)

/-- Protect an RTCP packet at an index; E is set (R117). -/
def sealRtcp (k : SessKey) (plain : List Byte) (idx : Nat) : List Byte :=
  let ssrc := beAt plain 4 4
  let word := beBytes 4 (2 ^ 31 + idx)
  if isGcm k.profile.toNat then
    plain.take 8 ++ gcmSeal k.key (gcmIv k ssrc idx) (plain.take 8 ++ word) (plain.drop 8) ++ word
  else
    let c := plain.take 8 ++ aesCtr k.key 16 (cmIv k ssrc idx) (plain.drop 8) ++ word
    c ++ (hmac k.auth c).take 10

/-- Protect a trunk datagram; TSEQ is written into word 3 (R59, R145). -/
def sealTrunk (k : SessKey) (plain : List Byte) (idx : Nat) : List Byte :=
  let p := patch plain 12 (beBytes 4 (idx % 2 ^ 32))
  let n := 4 * beAt p 2 1
  p.take n ++ gcmSeal k.key (trunkIv k (beAt p 4 2 / 16) idx) (p.take n) (p.drop n)

/-- Authenticate and decrypt an SRTP packet at an index estimate. -/
def openRtp (k : SessKey) (p : List Byte) (idx : Nat) : Option (List Byte) :=
  let n := rtpHeadLen p
  let ssrc := beAt p 8 4
  let prof := k.profile.toNat
  if isGcm prof then (gcmOpen k.key (gcmIv k ssrc idx) (p.take n) (p.drop n)).map fun x => p.take n ++ x
  else
    let t := if prof = 2 then 4 else 10
    let c := p.take (p.length - t)
    if n + t ≤ p.length ∧ (hmac k.auth (c ++ beBytes 4 (idx / 65536))).take t = p.drop (p.length - t)
    then some (c.take n ++ aesCtr k.key 16 (cmIv k ssrc idx) (c.drop n)) else none

/-- Authenticate and decrypt an SRTCP packet; one with E clear is accepted if it authenticates (R117). -/
def openRtcp (k : SessKey) (p : List Byte) : Option (List Byte) :=
  let ssrc := beAt p 4 4
  if isGcm k.profile.toNat then
    let w := beAt p (p.length - 4) 4
    let idx := w % 2 ^ 31
    let word := p.drop (p.length - 4)
    let body := p.take (p.length - 4)
    if w < 2 ^ 31 then
      let plain := body.take (body.length - 16)
      (gcmOpen k.key (gcmIv k ssrc idx) (plain ++ word) (body.drop (body.length - 16))).map fun _ => plain
    else (gcmOpen k.key (gcmIv k ssrc idx) (body.take 8 ++ word) (body.drop 8)).map fun x => body.take 8 ++ x
  else
    let c := p.take (p.length - 10)
    let w := beAt c (c.length - 4) 4
    let body := c.take (c.length - 4)
    if 22 ≤ p.length ∧ (hmac k.auth c).take 10 = p.drop (p.length - 10) then
      some (if w < 2 ^ 31 then body else body.take 8 ++ aesCtr k.key 16 (cmIv k ssrc (w % 2 ^ 31)) (body.drop 8))
    else none

/-- Authenticate and decrypt a trunk datagram. -/
def openTrunk (k : SessKey) (p : List Byte) (idx : Nat) : Option (List Byte) :=
  let n := 4 * beAt p 2 1
  (gcmOpen k.key (trunkIv k (beAt p 4 2 / 16) idx) (p.take n) (p.drop n)).map fun x => p.take n ++ x

/-! ### Counters (R120, R144) -/

/-- The outbound stream of a leg whose own slots hold a slot (R144). -/
def streamOfSlot (s : State) (leg slot : Nat) : Option Handle :=
  let own := fun (d : StreamRec) => [d.slot, d.rtxSlot, d.fecSlot].any fun h => decide (h ≠ 0) && decide (hIndex h = slot)
  (s.obj.legs.at? leg).bind fun l =>
    (l.outs.find? fun i => ((s.obj.outs.at? i).map fun o => own o.decl).getD false).map fun i => handleOf s tyOut i

/-- Handles that an Attar operation counts for: the stream whose own slot it uses and the leg, or the trunk (R144). -/
def attarObjects (s : State) (trunk : Bool) (owner : Nat) (stream : Option Handle) : List Handle :=
  if trunk then [handleOf s tyTrunk owner] else stream.toList ++ [handleOf s tyLeg owner]

def countAttar (hs : List Handle) (idx : Nat) (s : State) : State := hs.foldl (fun s h => countObj 0x0601 h idx 1 s) s

/-- A refusal in the tenant page and in the object counters (R120, R144). -/
def refuse (tenant off idx : Nat) (hs : List Handle) (s : State) : State := countAttar hs idx (count tenant (atrCtr tenant off) 1 s)

/-! ### Length limits (R136) -/

/-- The limits of Table 05-8 are broken: payload, AAD under GCM, header extension. `clear` marks an SRTCP packet whose E flag is clear: all of it is
AAD, with the 4 bytes of its index (RFC 7714). -/
def tooLong (profile : Nat) (trunk rtcp clear : Bool) (p : List Byte) (cipherLen : Nat) : Bool :=
  if trunk then decide (16320 < cipherLen) || decide (512 < 4 * beAt p 2 1)
  else if rtcp then (if clear && isGcm profile then decide (512 < cipherLen + 12) else decide (16320 < cipherLen))
  else decide (16320 < cipherLen) || decide (1024 < rtpExtLen p) || (isGcm profile && decide (512 < rtpHeadLen p))

/-! ### Index events (R130, R131) -/

/-- The audio stream that a slot serves. -/
def audioOfSlot (s : State) (i : Nat) : Option Handle :=
  match tfind s.obj.ins.live fun _ x => decide (x.decl.kind = 0) && decide (hIndex x.decl.slot = i) with
  | some (n, _) => some (handleOf s tyIn n)
  | none => (tfind s.obj.outs.live fun _ x => decide (x.decl.kind = 0) && decide (hIndex x.decl.slot = i)).map fun (n, _) => handleOf s tyOut n

/-- EV_KEY_HALF once per key, when an index at or above the half threshold is used (R130). -/
def noteHalf (i idx : Nat) (s : State) : State :=
  match slotAt s i with
  | some k =>
    if ¬ k.half ∧ halfIndex k.rtcp ≤ idx then
      postEvent k.tenant evKeyHalf (handleOf s tySlot i) (idx / 2 ^ 32) (idx % 2 ^ 32) 0 (updSlot i (fun k => { k with half := true }) s)
    else s
  | none => s

/-- The index limit is reached under a key: EXHAUSTED, EV_KEY_EXHAUSTED once, and EV_PRECEDENCE once for an audio stream (R130, R131). A slot that is
being erased stays ERASING (DESIGN CHOICE, log entry 153). -/
def exhaust (i : Nat) (key : SessKey) (s : State) : State :=
  match slotAt s i with
  | some k =>
    if k.state ≠ .loaded then s else
    let s := updSlot i (fun k => { k with state := .exhausted, spent := some key, key := none, precedence := true }) s
    let s := postEvent k.tenant evKeyExhausted (handleOf s tySlot i) 0 0 0 s
    match audioOfSlot s i with
    | some h => if k.precedence then s else postPrecedence 1 3 h.toNat false s
    | none => s
  | none => s

/-! ### Egress (R127, R136) -/

/-- The outbound stream whose own slot protects an egress packet (R144). -/
def EgPkt.handle (p : EgPkt) (s : State) : Option Handle := if p.onTrunk then none else streamOfSlot s p.owner (hIndex p.slot)

/-- An injected packet that Attar refused for its length is reported (R136). -/
def reportInject (p : EgPkt) (s : State) : State :=
  match p.inject with
  | some (ring, idx) => postEvent p.tenant evInjectError 0 ring idx stLength.toNat s
  | none => s

/-- Encrypt one packet under a key that the slot holds: its index, its ciphertext, and the counters (R127, R144). -/
def sealUnder (k : SessKey) (i : Nat) (p : EgPkt) (s : State) : Option (List Byte) × State :=
  match slotAt s i with
  | none => (none, s)
  | some sl =>
    let hs := attarObjects s p.onTrunk p.owner (p.handle s)
    let body := if p.onTrunk then p.plain.length - 4 * beAt p.plain 2 1 else p.plain.length - (if p.rtcp then 8 else rtpHeadLen p.plain)
    if tooLong k.profile.toNat p.onTrunk p.rtcp false p.plain body then (none, reportInject p (refuse p.tenant 0x18 4 hs s))
    else if sl.next = lastIndex sl.rtcp then (none, refuse p.tenant 0x20 6 hs (exhaust i k s))
    else
      let idx := sl.next
      let out := if p.onTrunk then sealTrunk k p.plain idx else if p.rtcp then sealRtcp k p.plain idx else sealRtp k p.plain idx p.orig
      let s := noteHalf i idx (updSlot i (fun k => { k with next := idx + 1 }) s)
      (some out, countAttar hs (if p.rtcp then 1 else 0) s)

/-- The stream record by which a leg declares payload types for a source's codec: its own video source of that codec, else its composite of that
codec (R162; no field of a slot record declares them: DEDUCED, log entry 149). -/
def typesFor (s : State) (l : Leg) (x : InStream) : Option StreamRec :=
  let codec := x.decl.blk 0 1
  ((l.ins.filterMap s.obj.ins.at?).map (·.decl) |>.find? fun d => decide (d.kind = 1) && decide (d.blk 0 1 = codec)).orElse fun _ =>
    (l.outs.filterMap s.obj.outs.at?).map (·.decl) |>.find? fun d => decide (d.kind = 3) && decide (d.blk 0 1 = codec)

/-- The RTX SSRC, payload type and slot of the stream or slot that sent an SSRC. -/
def rtxOf (s : State) (leg : Nat) (ssrc : Word) : Option (Word × Nat × Handle) :=
  match s.obj.legs.at? leg with
  | none => none
  | some l =>
    match l.slots.find? fun f => f.ssrc == ssrc with
    | some f =>
      let pt := (((liveIndex s tyIn f.source).bind s.obj.ins.at?).map fun x => ((typesFor s l x).map (·.rtxPt)).getD x.decl.rtxPt).getD 0xFF
      if f.rtxSsrc ≠ 0 then some (f.rtxSsrc, pt, f.rtxSlot) else none
    | none => l.outs.findSome? fun i => match s.obj.outs.at? i with
      | some o => if o.decl.kind = 3 ∧ o.decl.ssrcs.getD 0 0 = ssrc ∧ o.decl.rtx.getD 0 0 ≠ 0
          then some (o.decl.rtx.getD 0 0, o.decl.rtxPt, o.decl.rtxSlot) else none
      | none => none

/-- Drop the oldest entries of the retransmission cache until it fits its region; one dropped before 500 ms is counted (R163). -/
def trimCache (room now : Nat) : Nat → List RtxEntry → List RtxEntry × Nat
  | 0, l => (l, 0)
  | _, [] => ([], 0)
  | fuel + 1, e :: r =>
    if total ((e :: r).map (·.plain.length)) ≤ room then (e :: r, 0)
    else let (l, n) := trimCache room now fuel r; (l, n + if now < e.at_ + 500000000 then 1 else 0)

/-- Cache an outbound video packet as it was protected, under its SSRC and the sequence number that Attar returned (R129, R163). -/
def cachePkt (p : EgPkt) (prof seq : Nat) (s : State) : State :=
  if p.onTrunk ∨ p.rtcp ∨ p.raw ∨ p.cls = .audio ∨ p.cls = .rtx then s
  else match rtxOf s p.owner p.ssrc with
    | none => s
    | some (x, pt, h) =>
      let e : RtxEntry := { ssrc := p.ssrc, seq := BitVec.ofNat 16 seq, at_ := p.born, owner := p.owner, rtxSsrc := x, rtxPt := pt, rtxSlot := h,
                            plain := outerRtp prof p.plain seq p.orig, times := 0, lastAt := 0 }
      let l := s.media.cache ++ [e]
      let (l, n) := trimCache (s.mem.partition.getD 2 0 * 1048576) (logNs s) l.length l
      count 0 (slgCtr 0 0x2C) n { s with media := { s.media with cache := l } }

/-- Copy an outbound stream's packet to its route in plaintext, with the sequence number assigned (R499). -/
def copyOut (p : EgPkt) (idx : Nat) (s : State) : State :=
  match p.stream.bind fun i => (s.obj.outs.at? i).bind fun o => o.route.map fun r => (i, o, r) with
  | some (i, o, (ring, _)) =>
    if isActive s then
      extract o.tenant ring (if p.rtcp then 1 else 0) false (handleOf s tyOut i) p.born
        (if p.rtcp then p.plain else patch p.plain 2 (beBytes 2 (idx % 65536))) s
    else s
  | none => s

/-- The key for an operation (R131, R137): the slot's current one. What was admitted before a key command has been sealed at that command (R138). -/
def keyFor (k : KeySlot) : Option SessKey := if k.state = .loaded then k.key else none

/-- An egress packet at Attar under its key (Table 05-3, R127): the payload to send, or nothing when it is refused. -/
def sealNow (p : EgPkt) (s : State) : Option (List Byte) × State :=
  if p.raw then (some p.plain, s) else
  match p.cipher with
  | some c => (some c, s)
  | none =>
    let i := hIndex p.slot
    let hs := attarObjects s p.onTrunk p.owner (p.handle s)
    match slotAt s i with
    | none => (none, refuse p.tenant 0x1C 5 hs s)
    | some k =>
      match keyFor k with
      | some key =>
        let idx := k.next
        let (out, s) := sealUnder key i p s
        (out, if out.isSome then copyOut p idx (cachePkt p key.profile.toNat idx s) else s)
      | none => (none, if k.state = .exhausted then refuse p.tenant 0x20 6 hs s else refuse p.tenant 0x1C 5 hs s)

/-- Encrypt the packets of a slot that wait in a queue, in order; a refused packet leaves it (R138). -/
def sealQueue (i : Nat) : List EgPkt → State → List EgPkt × State
  | [], s => ([], s)
  | p :: r, s =>
    if hIndex p.slot = i ∧ p.cipher = none ∧ ¬ p.raw then
      let (out, s) := sealNow p s
      let (l, s) := sealQueue i r s
      (match out with
        | some c => { p with cipher := some c } :: l
        | none => l, s)
    else let (l, s) := sealQueue i r s; (p :: l, s)

/-- Encrypt every waiting egress packet of a slot under its current key, ahead of other work (R138, R140, R48). -/
def sealWaiting (i : Nat) (s : State) : State :=
  let (q1, s) := sealQueue i s.media.outQ s
  let (q2, s) := sealQueue i s.media.egress s
  { s with media := { s.media with outQ := q1, egress := q2 } }

/-- Operations of the slot's current key are in flight (R138): its waiting egress packets. A key command takes its log position only when Attar has
processed the ingress packets admitted before it (log entry 145). -/
def busySlot (s : State) (i : Nat) : Bool :=
  (s.media.egress ++ s.media.outQ).any fun p => decide (hIndex p.slot = i) && !p.raw && !p.cipher.isSome

/-! ### Ingress (R133-R136) -/

/-- Index estimate from the low w bits and the highest index seen, of 48 bits: the count of the upper bits is guessed as RFC 3711, 3.3.1, does,
modulo its width (R133; log entry 19). -/
def estimate (w : Nat) (highest : Option Nat) (seq : Nat) : Nat :=
  match highest with
  | none => seq
  | some h =>
    let m := 2 ^ w
    let top := 2 ^ (48 - w)
    let half := 2 ^ (w - 1)
    let roc := h / m
    let sl := h % m
    let v := if sl < half then (if half < seq - sl then (roc + top - 1) % top else roc)
      else if seq + half < sl then (roc + 1) % top else roc
    v * m + seq

/-- The replay pre-check of R135. -/
def isReplay (w : RxWindow) (size i : Nat) : Bool :=
  match w.highest with
  | none => false
  | some h => decide (i + size ≤ h) || (decide (i ≤ h) && bit w.bits (h - i))

/-- The window after an index was accepted (R135). -/
def RxWindow.accept (w : RxWindow) (size i : Nat) : RxWindow :=
  match w.highest with
  | none => { w with highest := some i, bits := 1 }
  | some h => if h < i then { w with highest := some i, bits := (w.bits * 2 ^ (i - h) + 1) % 2 ^ size }
    else { w with bits := w.bits ||| 2 ^ (h - i) }

def windowOf (k : KeySlot) (ssrc : Word) : RxWindow := (k.windows.find? fun w => w.ssrc == ssrc).getD { ssrc := ssrc, highest := none, bits := 0 }

def setWindow (w : RxWindow) : List RxWindow → List RxWindow
  | [] => [w]
  | x :: r => if x.ssrc = w.ssrc then w :: r else x :: setWindow w r

/-- The window entry of a packet: its SSRC's, or the shared one (SSRC 0) of unknown RTCP senders and of a trunk (R125, R145). -/
def InPkt.windowKey (p : InPkt) : Word := match p.kind with
  | .srtp => p.ssrc
  | .srtcp => if p.stream.isSome then p.ssrc else 0
  | .trunk => 0

/-- The index of an ingress packet under a key of this profile: estimated from the window, or explicit for SRTCP, before its tag under HMAC. -/
def InPkt.index (p : InPkt) (prof : Nat) (w : RxWindow) : Nat :=
  match p.kind with
  | .srtp => estimate 16 w.highest (beAt p.payload 2 2)
  | .srtcp => beAt p.payload (p.payload.length - (if isGcm prof then 4 else 14)) 4 % 2 ^ 31
  | .trunk => estimate 32 w.highest (beAt p.payload 12 4)

/-- An SRTCP packet whose E flag is clear (R117). -/
def InPkt.clear (p : InPkt) (prof : Nat) : Bool :=
  p.kind == .srtcp && decide (beAt p.payload (p.payload.length - (if isGcm prof then 4 else 14)) 4 < 2 ^ 31)

/-- The packet breaks the length limits under a key of this profile. -/
def InPkt.long (p : InPkt) (prof : Nat) : Bool :=
  let rtcp := p.kind == .srtcp
  let head := if p.kind = .trunk then 4 * beAt p.payload 2 1 else if rtcp then 8 else rtpHeadLen p.payload
  tooLong prof (p.kind == .trunk) rtcp (p.clear prof) p.payload (p.payload.length - head - tagBytes prof rtcp)

/-- What one key makes of a packet at checks 3 to 5 of Table 05-7. -/
inductive Tried where
  | spent
  | replay
  | refused
  | passed (idx : Nat) (plain : List Byte)
  deriving DecidableEq, Repr

/-- Checks 3 to 5 under one key. -/
def InPkt.try_ (p : InPkt) (key : SessKey) (w : RxWindow) (size : Nat) : Tried :=
  let idx := p.index key.profile.toNat w
  if idx = lastIndex (p.kind == .srtcp) then .spent
  else if isReplay w size idx then .replay
  else match (match p.kind with
      | .srtp => openRtp key p.payload idx
      | .srtcp => openRtcp key p.payload
      | .trunk => openTrunk key p.payload idx) with
    | some plain => .passed idx plain
    | none => .refused

/-- The fallback key that a packet may be tried under (R139): for one that failed authentication, or whose explicit index stands elsewhere under that
key's profile (DEDUCED, log entry 154). -/
def fallbackFor (k : KeySlot) (key : SessKey) (p : InPkt) (t : Tried) : Option SessKey :=
  (k.fallback.filter fun f => decide (p.arrival < f.2) &&
    (t == .refused || (p.kind == .srtcp && isGcm key.profile.toNat != isGcm f.1.profile.toNat))).map (·.1)

/-- Check, authenticate and decrypt one ingress packet in the order of Table 05-7. The window that the unknown senders of a leg share counts toward
the slot's highest index as an SSRC entry does (DESIGN CHOICE, log entry 155). -/
def openPkt (p : InPkt) (s : State) : Option (List Byte) × State :=
  let tenant := ((if p.kind = .trunk then (s.obj.trunks.at? p.owner).map (·.tenant) else (s.obj.legs.at? p.owner).map (·.tenant))).getD 0
  let hs := attarObjects s (p.kind == .trunk) p.owner (if p.kind = .srtp then p.stream.map fun i => handleOf s tyIn i else none)
  match slotAt s p.slot with
  | none => (none, refuse tenant 0x1C 5 hs s)
  | some k =>
    match keyFor k with
    | none =>
      if p.long 0 then (none, refuse tenant 0x18 4 hs s)
      else (none, if k.state = .exhausted then refuse tenant 0x20 6 hs s else refuse tenant 0x1C 5 hs s)
    | some key =>
      if p.long key.profile.toNat then (none, refuse tenant 0x18 4 hs s)
      else
        let w := windowOf k p.windowKey
        let size := if p.kind = .trunk then 1024 else k.window
        let pass := fun (idx : Nat) (plain : List Byte) (s : State) =>
          let s := updSlot p.slot (fun k => { k with windows := setWindow (w.accept size idx) k.windows,
                                                     highest := if k.highest < idx then idx else k.highest }) s
          (some plain, countAttar hs (if p.kind = .srtcp then 1 else 0) (noteHalf p.slot idx s))
        let fail := fun (used : SessKey) (t : Tried) => match t with
          | .spent => (none, refuse tenant 0x20 6 hs (exhaust p.slot used s))
          | .replay => (none, refuse tenant 0x14 3 hs s)
          | .refused => (none, refuse tenant 0x10 2 hs s)
          | .passed idx plain => pass idx plain s
        match p.try_ key w size with
        | .passed idx plain => pass idx plain s
        | t =>
          match fallbackFor k key p t with
          | none => fail key t
          | some old => match p.try_ old w size with
            | .passed idx plain => pass idx plain (countAttar hs 7 s)
            | u => if t = .refused then fail old u else fail key t

/-! ### Key commands (R123-R141) -/

/-- The slot that a key command names. -/
def keySlot (c : Cmd) : Nat := hIndex c.object

/-- A key command waits while the slot is ERASING or drains a retiring key (R138, R141). -/
def keyWaits (c : Cmd) (s : State) : Bool :=
  match slotAt s (keySlot c) with
  | some k => k.state == .erasing || k.retiring.isSome
  | none => false

/-- Put a new key into a slot (R128, R132, R138, R139): ST_OK_STAGED when operations of the old key are in flight. -/
def loadKey (i : Nat) (key : SessKey) (outbound rtcp fallback : Bool) (window : Nat) (s : State) : Reply × State :=
  match slotAt s i with
  | none => ({}, s)
  | some k =>
    if k.state = .loaded then
      let busy := busySlot s i
      let s := sealWaiting i s
      let s := updSlot i (fun k => { k with
        key := some key, outbound := outbound, rtcp := rtcp, fallbackFlag := fallback, window := window, half := false, precedence := false,
        retiring := if busy then k.key else none,
        fallback := if fallback then k.key.map fun x => (x, logNs s + 2000000000) else none }) s
      ({ status := if busy then stStaged else stOk }, s)
    else
      ({}, updSlot i (fun k => { k with
        state := .loaded, key := some key, outbound := outbound, rtcp := rtcp, fallbackFlag := fallback, window := window, half := false,
        precedence := false, retiring := none, fallback := none, spent := none, highest := 0, windows := [],
        next := startIndex key rtcp k.ssrc }) s)

/-- Refusals of R125, R126 and R132 when a key is put into a slot. -/
def loadFails (c : Cmd) (key : SessKey) (outbound rtcp : Bool) (s : State) : List Check :=
  let i := keySlot c
  [stateFail ((usesOf s i).any fun u => u.up && misuse u outbound rtcp key.profile.toNat) c.object,
   match slotAt s i with
   | some k => match k.state, k.spent with
     | .exhausted, some x => if x.profile = key.profile ∧ x.key = key.key ∧ x.salt = key.salt then some ⟨stKeyExhausted, c.object⟩ else none
     | _, _ => none
   | none => none]

/-- The key of KEY_LOAD (Table 05-4). -/
def loadedKey (c : Cmd) : SessKey :=
  { profile := BitVec.ofNat 8 (c.u8 16), key := c.raw 32 (keyBytes (c.u8 16)), salt := c.raw 20 12, auth := [] }

/-- KEY_LOAD (R123). -/
def ruleKeyLoad : CmdRule where
  op := 0x0601
  logged := true
  plen := .fixed 48
  types := [tySlot]
  zeroFields c _ := [zeroAt c 18 2]
  fields c _ :=
    let p := c.u8 16
    [failIf (!([7, 8, 9, 10, 0x80].contains p)) stRange 16, reservedAt c 17 1 3,
     failIf ((bit (c.u8 17) 1 && isTrunkProfile p) || (bit (c.u8 17) 2 && bit (c.u8 17) 0)) stRange 17, rangeAt c 18 2 64 1024,
     padAt c (32 + keyBytes p) (32 - keyBytes p)]
  states c s := loadFails c (loadedKey c) (bit (c.u8 17) 0) (bit (c.u8 17) 1) s
  waits := keyWaits
  effect c s := loadKey (keySlot c) (loadedKey c) (bit (c.u8 17) 0) (bit (c.u8 17) 1) (bit (c.u8 17) 2) (c.u16 18) s

def execKeyLoad (c : Cmd) (s : State) : Host.Outcome State Fault Refusal := issue ruleKeyLoad c s

/-- The keys that KEY_DERIVE derives (R124, Table 05-5). -/
def derivedKey (c : Cmd) : SessKey :=
  let p := c.u8 16
  let cm := p == 1 || p == 2
  let master := c.raw 32 (keyBytes p)
  let salt := c.raw 18 14
  let base : Byte := if bit (c.u8 17) 0 then 3 else 0
  { profile := BitVec.ofNat 8 p, key := kdf master salt base (keyBytes p), auth := if cm then kdf master salt (base + 1) 20 else [],
    salt := kdf master salt (base + 2) (if cm then 14 else 12) }

/-- KEY_DERIVE (R124). -/
def ruleKeyDerive : CmdRule where
  op := 0x0603
  logged := true
  plen := .fixed 48
  types := [tySlot]
  fields c _ :=
    let p := c.u8 16
    let l := c.u8 17
    [failIf (!([1, 2, 7, 8, 9, 10].contains p)) stRange 16, reservedAt c 17 1 6,
     failIf (decide (4 < bits l 2 3) || (bit l 5 && bit l 1)) stRange 17,
     if p = 1 ∨ p = 2 then none else padAt c 30 2, padAt c (32 + keyBytes p) (32 - keyBytes p)]
  states c s := loadFails c (derivedKey c) (bit (c.u8 17) 1) (bit (c.u8 17) 0) s
  waits := keyWaits
  effect c s :=
    loadKey (keySlot c) (derivedKey c) (bit (c.u8 17) 1) (bit (c.u8 17) 0) (bit (c.u8 17) 5)
      ([128, 64, 256, 512, 1024].getD (bits (c.u8 17) 2 3) 128) s

def execKeyDerive (c : Cmd) (s : State) : Host.Outcome State Fault Refusal := issue ruleKeyDerive c s

/-- KEY_ERASE (R140): the slot enters ERASING, its waiting egress is encrypted, and the reply waits for the drain. -/
def ruleKeyErase : CmdRule where
  op := 0x0602
  logged := true
  types := [tySlot]
  waits := keyWaits
  effect c s :=
    let i := keySlot c
    match slotAt s i with
    | some k =>
      if k.state = .empty then ({ status := stNoop }, s)
      else
        let s := sealWaiting i s
        ({ later := true }, updSlot i (fun k => { k with
          state := .erasing, retiring := k.key, key := none, eraseOwed := some ⟨0x0602, c⟩ }) s)
    | none => ({}, s)

def execKeyErase (c : Cmd) (s : State) : Host.Outcome State Fault Refusal := issue ruleKeyErase c s

/-- KEY_QUERY (R122). -/
def ruleKeyQuery : CmdRule where
  op := 0x0604
  types := [tySlot]
  effect c s :=
    match slotAt s (keySlot c) with
    | some k =>
      let idx := if k.outbound then k.next else k.highest
      ({ res := [BitVec.ofNat 32 k.code, BitVec.ofNat 32 idx, BitVec.ofNat 32 (idx / 2 ^ 32)] }, s)
    | none => ({}, s)

def execKeyQuery (c : Cmd) (s : State) : Host.Outcome State Fault Refusal := issue ruleKeyQuery c s

/-- A slot emptied: every key zeroed (R140). -/
def emptySlot (k : KeySlot) : KeySlot := { tenant := k.tenant, ssrc := k.ssrc }

/-- An erasure without a KEY_ERASE (R34, R118, R461, Table 16-11): EV_KEY_ERASED to tenant 0 and to the owner that still exists, unless the slot
was EMPTY (R140). `own` marks the device's own key store error, which a follower reports to tenant 0 alone (R502). A KEY_ERASE that had the slot in
ERASING has what it asked for, and is answered. -/
def eraseSlot (i : Nat) (own : Bool) (s : State) : State :=
  match slotAt s i with
  | none => s
  | some k =>
    let s1 := updSlot i emptySlot s
    let s1 := match k.eraseOwed with
      | some f => answer f.opcode f.cmd {} s1
      | none => s1
    if k.state = .empty then s1
    else
      let h := handleOf s tySlot i
      if followsLog s then (if own then postEvent 0 evKeyErased h 0 0 0 s1 else s1)
      else
        let s1 := postEvent 0 evKeyErased h 0 0 0 s1
        if k.tenant ≠ 0 ∧ live s k.tenant then postEvent k.tenant evKeyErased h 0 0 0 s1 else s1

/-- FALLBACK_KEY_EXPIRY: 2 s of arrival time after the position, the fallback key is discarded (R139). -/
def execFallbackKeyExpiry (slot : Nat) (s : State) : Host.Outcome State Fault Refusal :=
  done s (updSlot slot (fun k => { k with fallback := none }) s)

end Sys2Proof.Machine
end

