-- ==== Sys2Proof/Machine/Link.lean ====
section
/-! DEFINITION. The Llynas Link: lane groups, blocks with their FEC and CRC, and messages (R421-R426). -/

namespace Sys2Proof.Machine

/-! ### GF(2^8) with x^8 + x^4 + x^3 + x^2 + 1, and RS(224,208) (R422) -/

def rsDouble (a : Nat) : Nat := let d := a * 2; if d < 256 then d else d ^^^ 0x11D

def rsMulN : Nat → Nat → Nat → Nat
  | 0, _, _ => 0
  | n + 1, a, b => (if b % 2 = 1 then a else 0) ^^^ rsMulN n (rsDouble a) (b / 2)

def rsMul (a b : Nat) : Nat := rsMulN 8 a b

/-- α^n. -/
def rsExp : Nat → Nat
  | 0 => 1
  | n + 1 => rsDouble (rsExp n)

def rsPow (a : Nat) : Nat → Nat
  | 0 => 1
  | n + 1 => rsMul a (rsPow a n)

/-- a^254, the inverse of a. -/
def rsInv (a : Nat) : Nat := rsPow a 254

/-- Horner's rule from a value, the highest coefficient first. -/
def rsHorner (x : Nat) : Nat → List Nat → Nat
  | acc, [] => acc
  | acc, c :: r => onceKnown (rsMul acc x ^^^ c) fun a => rsHorner x a r

/-- The value at x of the polynomial whose coefficients stand highest first. -/
def rsEval (p : List Nat) (x : Nat) : Nat := rsHorner x 0 p

/-- The generator polynomial with roots α^0 to α^15, highest coefficient first. -/
def rsGenerator : List Nat :=
  (List.range 16).foldl (fun g i => List.zipWith (· ^^^ ·) (g ++ [0]) (0 :: g.map (rsMul (rsExp i)))) [1]

/-- The 16 parity symbols of a data word: the remainder of its division. -/
def rsParity (data : List Nat) : List Nat :=
  data.foldl (fun reg d =>
    let f := d ^^^ reg.headD 0
    List.zipWith (fun r g => r ^^^ rsMul f g) (reg.drop 1 ++ [0]) (rsGenerator.drop 1)) (List.replicate 16 0)

/-- The syndromes of a received word. -/
def rsSyndromes (w : List Nat) : List Nat := (List.range 16).map fun i => rsEval w (rsExp i)

/-- State of the Berlekamp-Massey iteration: locator and its predecessor (lowest coefficient first), length, shift, old discrepancy. -/
structure Massey where
  loc : List Nat
  prev : List Nat
  len : Nat
  shift : Nat
  disc : Nat
  deriving DecidableEq, Repr

/-- Sum of two polynomials, lowest coefficient first. -/
def rsAdd : List Nat → List Nat → List Nat
  | [], b => b
  | a, [] => a
  | x :: a, y :: b => (x ^^^ y) :: rsAdd a b

def Massey.next (syn : List Nat) (m : Massey) (n : Nat) : Massey :=
  let d := (List.range (m.len + 1)).foldl (fun acc i => acc ^^^ rsMul (m.loc.getD i 0) (if i ≤ n then syn.getD (n - i) 0 else 0)) 0
  if d = 0 then { m with shift := m.shift + 1 }
  else
    let f := rsMul d (rsInv m.disc)
    let loc := rsAdd m.loc (List.replicate m.shift 0 ++ m.prev.map (rsMul f))
    if 2 * m.len ≤ n then { loc := loc, prev := m.loc, len := n + 1 - m.len, shift := 1, disc := d }
    else { m with loc := loc, shift := m.shift + 1 }

/-- A received word corrected for at most 8 symbol errors, and how many there were; none when it cannot be corrected. -/
def rsCorrect (w : List Nat) : Option (List Nat × Nat) :=
  let syn := rsSyndromes w
  if syn.all (· == 0) then some (w, 0) else
  let m := (List.range 16).foldl (Massey.next syn) { loc := [1], prev := [1], len := 0, shift := 1, disc := 1 }
  if 8 < m.len then none else
  let omega := (List.range 16).map fun i => (List.range (i + 1)).foldl (fun acc k => acc ^^^ rsMul (m.loc.getD k 0) (syn.getD (i - k) 0)) 0
  let at_ := fun (p : List Nat) (x : Nat) => rsEval p.reverse x
  let odd := (indexed m.loc).map fun (i, c) => if i % 2 = 1 then c else 0
  let fixed := (indexed w).map fun (i, c) =>
    let x := rsExp (w.length - 1 - i)
    let xi := rsInv x
    if at_ m.loc xi = 0 then
      let deriv := rsMul (at_ odd xi) x
      c ^^^ rsMul x (rsMul (at_ omega xi) (rsInv deriv))
    else c
  if (rsSyndromes fixed).all (· == 0) then some (fixed, ((w.zip fixed).filter fun p => p.1 != p.2).length) else none

/-- The bytes of one parity, even or odd. -/
def halfOf (odd : Bool) (bs : List Byte) : List Nat :=
  (indexed bs).filterMap fun (i, b) => if (i % 2 == 1) = odd then some b.toNat else none

/-- Two halves interleaved again. -/
def interleave : List Nat → List Nat → List Byte
  | a :: r, b :: q => BitVec.ofNat 8 a :: BitVec.ofNat 8 b :: interleave r q
  | _, _ => []

/-- The 32 parity bytes of the 416 bytes of a block; symbols stand highest power first (PRESUMED, log entry 32). -/
def blockParity (bs : List Byte) : List Byte := interleave (rsParity (halfOf false bs)) (rsParity (halfOf true bs))

/-- A received block after FEC correction, with the bytes corrected; a codeword that cannot be corrected stays as it is. -/
def correctBlock (blk : List Byte) : List Byte × Nat :=
  let fix := fun (odd : Bool) => match rsCorrect (halfOf odd blk) with
    | some r => r
    | none => (halfOf odd blk, 0)
  let (e, n) := fix false
  let (o, m) := fix true
  (interleave e o, n + m)

/-! ### Lane groups (Table 16-2) -/

/-- The working group for a set of working lanes: its lanes, 0 while the link is down. -/
def laneGroup (working : Byte) : Byte :=
  if working = 0xFF then 0xFF
  else if working &&& 0x0F = 0x0F then 0x0F else if working &&& 0xF0 = 0xF0 then 0xF0
  else if working &&& 0x03 = 0x03 then 0x03 else if working &&& 0x0C = 0x0C then 0x0C
  else if working &&& 0x30 = 0x30 then 0x30 else if working &&& 0xC0 = 0xC0 then 0xC0 else 0

/-! ### Blocks (R422, R423) -/

/-- The twin state as Table 16-1 numbers it. -/
def TwinState.code : TwinState → Nat
  | .solo => 0
  | .active => 1
  | .standby => 2
  | .syncing => 3
  | .withdrawn => 4
  | .faultStop => 5

/-- A block header of Table 16-3. -/
structure BlockHead where
  bseq : Nat
  ack : Nat
  credit : Nat
  hb : Bool
  fault : Bool
  nak : Bool
  idle : Bool
  control : Bool
  state : Nat
  first : Nat
  deriving DecidableEq, Repr

/-- Bytes 0-11 of a block. -/
def BlockHead.bytes (h : BlockHead) : List Byte :=
  leBytes 4 (h.bseq * 65536 + h.ack) ++
  leBytes 4 (h.credit * 65536 + b2n h.hb * 32768 + b2n h.fault * 16384 + b2n h.nak * 8192 + b2n h.idle * 4096 + b2n h.control * 2048 +
    h.state * 256) ++ leBytes 4 h.first

/-- The header of a block. -/
def headOf (b : List Byte) : BlockHead :=
  let d0 := leAt b 0 4
  let d1 := leAt b 4 4
  { bseq := d0 / 65536, ack := d0 % 65536, credit := d1 / 65536, hb := bit d1 15, fault := bit d1 14, nak := bit d1 13, idle := bit d1 12,
    control := bit d1 11, state := bits d1 8 3, first := bits (leAt b 8 4) 0 9 }

/-- A whole block: header, CRC over bytes 0-11 and 16-415, payload, parity. -/
def makeBlock (h : BlockHead) (payload : List Byte) : List Byte :=
  let p := slice payload 0 400
  let b := h.bytes ++ leBytes 4 (crc32 (h.bytes ++ p)) ++ p
  b ++ blockParity b

/-- The CRC of a block is good. -/
def blockGood (b : List Byte) : Bool := decide (leAt b 12 4 = crc32 (b.take 12 ++ slice b 16 400))

def setTwin (f : Twin → Twin) (s : State) : State := { s with twin := f s.twin }

/-- Send one block; it stays in the replay buffer of 1,024 blocks until it is acknowledged (R423). -/
def sendBlock (control hb : Bool) (first : Nat) (payload : List Byte) (s : State) : State :=
  let t := s.twin
  let h : BlockHead := { bseq := t.txSeq.toNat, ack := t.rxSeq.toNat, credit := t.credit.toNat, hb := hb, fault := t.faultNote, nak := t.nak,
                         idle := payload.isEmpty, control := control, state := t.state.code, first := first }
  count1 (twnCtr 0x100) (setTwin (fun t => { t with
    txSeq := t.txSeq + 1, nak := false, replay := lastN 1024 (t.replay ++ [makeBlock h payload]),
    logSent := if control then t.logSent else t.logSent + 1 }) s)

/-! ### Messages (R426) -/

/-- A message of Table 16-4. -/
structure Msg where
  ty : Nat
  flags : Nat
  ord : Nat
  arg : Nat
  body : List Byte
  deriving DecidableEq, Repr

/-- Its bytes. -/
def Msg.bytes (m : Msg) : List Byte :=
  leBytes 4 (m.ty * 2 ^ 24 + m.flags * 65536 + m.body.length % 65536) ++ leBytes 4 (m.ord % 2 ^ 32) ++ leBytes 8 (m.arg % 2 ^ 64) ++ m.body

/-- The first message of a byte stream and the rest; none while it is incomplete. -/
def firstMsg (bs : List Byte) : Option (Msg × List Byte) :=
  if bs.length < 16 then none
  else
    let d := leAt bs 0 4
    let n := d % 65536
    if bs.length < 16 + n then none
    else some ({ ty := d / 2 ^ 24, flags := bits d 16 8, ord := leAt bs 4 4, arg := leAt bs 8 8, body := slice bs 16 n }, bs.drop (16 + n))

/-- Send bytes in blocks of one class, from a block's start; the rest of the last block is 0 (DEDUCED, log entry 32). -/
def sendBytes (control : Bool) (first : Nat) : Nat → List Byte → State → State
  | 0, _, s => s
  | fuel + 1, bs, s =>
    if bs.isEmpty then s else sendBytes control 0x1FF fuel (bs.drop 400) (sendBlock control false first (bs.take 400) s)

/-- Send a message of the control class, while the link is up. -/
def sendControl (m : Msg) (s : State) : State :=
  if s.twin.link then sendBytes true 0 (m.bytes.length / 400 + 1) m.bytes s else s

/-- Blocks that a message of the log class takes. -/
def Msg.blocks (m : Msg) : Nat := ceilDiv m.bytes.length 400

/-- Log-class blocks that may be sent now (R424). -/
def logCredit (t : Twin) : Nat := 160 - (t.logSent - t.peerCredit).toNat

/-- Send a message of the log class. -/
def sendLog (m : Msg) (s : State) : State := sendBytes false 0 (m.bytes.length / 400 + 1) m.bytes s

/-- Seal a body under the pair key: AES-256-GCM, IV the session nonce and the 64-bit count of sealed messages (R425). -/
def sealBody (body : List Byte) (s : State) : List Byte × State :=
  match s.twin.pairKey with
  | none => (body, s)
  | some k =>
    (gcmSeal k (leBytes 4 s.twin.nonce.toNat ++ leBytes 8 s.twin.sealed) [] body, setTwin (fun t => { t with sealed := t.sealed + 1 }) s)

/-! ### Watermarks (R432) -/

/-- Send the watermark of a port: one record per egress stream with packets consumed since the last one. -/
def sendWatermark (p : Nat) (s : State) : State :=
  let x := portOf s p
  let body := x.consumed.flatMap fun (id, n) => leBytes 4 (id % 131072 * 32768 + n % 32768)
  let s := sendControl { ty := 0x41, flags := p, ord := x.wmSeq.toNat, arg := nowNs s, body := body } s
  modPort p (fun x => { x with consumed := [], wmSeq := x.wmSeq + 1 }) s

/-- Final watermarks of every port (R438, R442). -/
def finalWatermarks (s : State) : State := (List.range 8).foldl (fun s p => if portExists s p then sendWatermark p s else s) s

/-! ### RESYNC records (R444) -/

/-- What the base of a resync carries: the device tables that STANDBY builds anew. -/
structure BaseTables where
  obj : Objects
  media : Media
  video : Video
  accord : Accord
  mem : Mem
  orgue : Orgue
  tim : Tim
  ports : Tbl Port
  phys : Tbl Phys
  deriving DecidableEq, Repr, Inhabited

/-- The bytes of the RESYNC records of a kind, and the tables that received records hold: the manual names what they carry and no format
(Table 16-10; log entry 70). -/
opaque resyncBytes : Nat → BaseTables → List Byte
opaque resyncTables : List Byte → BaseTables

/-- The device's own tables. -/
def baseTables (s : State) : BaseTables :=
  { obj := s.obj, media := s.media, video := s.video, accord := s.accord, mem := s.mem, orgue := s.orgue, tim := s.tim, ports := s.ports,
    phys := s.phys }

/-- Send RESYNC messages of one kind or of one object, each with at most 65,520 bytes, sealed (R425, R444); the last one holds less. -/
def sendResync (arg : Nat) : Nat → List Byte → State → State
  | 0, _, s => s
  | fuel + 1, bs, s =>
    let (body, t) := sealBody (bs.take 65504) s
    let s := sendControl { ty := 0x44, flags := 1, ord := s.twin.ordinal, arg := arg, body := body } t
    if bs.length < 65504 then s else sendResync arg fuel (bs.drop 65504) s

/-- ARG of the RESYNC messages that ask for a resync, that carry the base, that name the check that failed, and that agree; an object's carry its handle.
ORD is the log ordinal of the records' point (DESIGN CHOICE, log entry 70). -/
def resyncAsk : Nat := 0
def resyncBase : Nat := 1
def resyncRefused : Nat := 2
def resyncAgreed : Nat := 3
/-- The other device's buffer of an object's log is full: the object restarts its sync point (R444). -/
def resyncAgain : Nat := 4

/-! ### The checks of a resync (Table 16-9) -/

/-- An engine of a cluster is out of service beyond its spare, or a stitcher, core or compose engine is quarantined (Table 16-9 item 7). -/
def lacksCapacity (s : State) : Bool := s.orgue.quarantined.any fun n => decide (n < 184)

/-- What Table 16-9 compares of a port: its mode, its MAC address and its multicast list. -/
def portItem (s : State) (p : Nat) : List Byte :=
  let x := portOf s p
  BitVec.ofNat 8 (physOf s (p / 2)).mode :: leBytes 6 x.addr.toNat ++ x.mcast.flatMap fun kv => leBytes 1 kv.1 ++ leBytes 8 kv.2.toNat

/-- The seven items of Table 16-9 as bytes. The pair key stands as set or not: an asking record that its peer opens is sealed under the same key. -/
def resyncItems (s : State) : List (List Byte) :=
  [leBytes 4 s.nose.fwVersion.toNat ++ leBytes 4 s.nose.siliconRev.toNat,
   s.mem.partition.flatMap (leBytes 4),
   (List.range 8).flatMap (portItem s),
   leBytes 1 s.hbm.log2n.toNat ++ leBytes 4 s.hbm.seedLo.toNat ++ leBytes 4 s.hbm.seedHi.toNat ++ leBytes 1 s.hbm.postpone.toNat,
   leBytes 1 (b2n s.twin.mode + 2 * b2n s.twin.autoResync + 4 * b2n s.twin.degradedOk + 8 * b2n s.twin.pairKey.isSome),
   leBytes 1 (b2n (s.nose.service == .full)),
   leBytes 1 (b2n !(lacksCapacity s))]

/-- The items in a record that asks: each behind its length (DESIGN CHOICE, log entry 73). -/
def itemsBytes (items : List (List Byte)) : List Byte := items.flatMap fun b => leBytes 4 b.length ++ b

/-- The items of such a record. -/
def itemsOf : Nat → List Byte → List (List Byte)
  | 0, _ => []
  | n + 1, bs => slice bs 4 (leAt bs 0 4) :: itemsOf n (bs.drop (4 + leAt bs 0 4))

/-- The first item that the device itself does not meet, whatever its peer has, 0 none: both must be in full service with their capacity. -/
def ownFault (s : State) : Nat := if s.nose.service ≠ .full then 6 else if lacksCapacity s then 7 else 0

/-- The first item of Table 16-9 that fails against a peer's items, 0 none. -/
def failedItem (s : State) (peer : List (List Byte)) : Nat :=
  match (List.range 7).find? fun n => (resyncItems s)[n]? != peer[n]? with
  | some n => n + 1
  | none => ownFault s

/-- Conferences, then trunks, of tenants with twin protection, by rising index (Table 16-10). -/
def protectedObjects (s : State) : List Handle :=
  let covered := fun (t : Nat) => ((s.obj.tenants.at? t).map (·.prot)).getD false
  ((s.obj.confs.live.filter fun kv => covered kv.2.tenant).map fun kv => handleOf s tyConf kv.1) ++
  ((s.obj.trunks.live.filter fun kv => covered kv.2.tenant).map fun kv => handleOf s tyTrunk kv.1)

/-- The base point of a resync on ACTIVE, at an audio tick: the tables go out and the log starts at ordinal 1 (R427, R444). -/
def basePoint (s : State) : State :=
  if s.twin.resync ∧ ¬ s.twin.asking ∧ s.twin.state = .active ∧ ¬ s.twin.logging then
    let bs := resyncBytes resyncBase (baseTables s)
    let objs := protectedObjects s
    setTwin (fun t => { t with logging := true, ordinal := 0, pend := [], parseOrder := [], todoObjs := objs, toSync := objs.length }) (sendResync resyncBase (bs.length + 1) bs s)
  else s

/-! ### Role changes (R416) -/

/-- A change of twin state, counted, with EV_FAILOVER (new state, cause) to tenant 0 (Table 16-7). -/
def changeRole (st : TwinState) (cause : Nat) (s : State) : State :=
  let s := setTwin (fun t => { t with state := st, cause := BitVec.ofNat 4 cause }) s
  postDevice evFailover st.code cause (count1 (twnCtr 0x12C) s)

/-- EV_FAILOVER for a device that keeps its state (Table 16-7). -/
def noteCause (cause : Nat) (s : State) : State :=
  postDevice evFailover s.twin.state.code cause (setTwin (fun t => { t with cause := BitVec.ofNat 4 cause }) s)

/-- A change of twin state without EV_FAILOVER. -/
def quietRole (st : TwinState) (s : State) : State :=
  if s.twin.state = st then s else count1 (twnCtr 0x12C) (setTwin (fun t => { t with state := st }) s)

/-- A bulk TWIN_RESYNC that is waiting is answered (R443). -/
def answerResync (r : Reply) (s : State) : State :=
  match s.nose.bulk.find? fun f => f.opcode == 0x0B03 with
  | none => s
  | some f =>
    let s := { s with nose := { s.nose with bulk := s.nose.bulk.filter fun g => !(g.opcode == 0x0B03) } }
    answer 0x0B03 f.cmd r s

/-- Protection and resync end: logging stops, and a waiting TWIN_RESYNC is answered (R424, R436, R443). -/
def endProtection (s : State) : State :=
  let busy := s.twin.resync
  let s := setTwin (fun t => { t with prot := false, resync := false, asking := false, logging := false, switchReq := false, pend := [], parseOrder := [], unsynced := [], todoObjs := [], forming := [], ownDigests := [],
                                      peerDigests := [], ownTicks := [], peerTicks := [] }) s
  if busy then answerResync { status := stState } s else s

/-- STANDBY or SYNCING withdraws: its shadow buffer and received log go (R424, R436, R439). -/
def withdraw (cause : Nat) (s : State) : State :=
  let s := setTwin (fun t => { t with shadow := [], shadowBytes := 0, rxLog := [], rxBytesLog := [], rxCommand := [],
                                      todoObjs := [], buffered := [], readyObjs := [], resyncRx := [] }) (endProtection s)
  changeRole .withdrawn cause s

/-- The device goes to FAULT_STOP (R438, R447): TWIN_LIVE_OUT falls, nothing is sent any more. -/
def faultStop (s : State) : State :=
  changeRole .faultStop 3 (setTwin (fun t => { t with liveOut := false, faultNote := true }) (endProtection s))

/-- A fault that is not absorbed (R446): a notice on ACTIVE with a protecting peer, withdrawal of a follower, and else the last column of
Table 16-11. `stop` says that the table calls for FAULT_STOP. -/
def escalate (stop : Bool) (alone : State → State) (s : State) : State :=
  match s.twin.state with
  | .active =>
    if s.twin.prot then sendBlock true false 0x1FF [] (faultStop (finalWatermarks s)) else if stop then faultStop s else alone s
  | .standby | .syncing => let s := withdraw 3 s; if stop then faultStop s else s
  | .faultStop => s
  | _ => if stop then faultStop s else alone s

end Sys2Proof.Machine
end

