-- ==== Sys2Proof/Machine/AccordCore.lean ====
section
/-! DEFINITION. The Accord core: registers, memory accesses, the effect of every instruction, issue, delay slots, repeat, interrupts and
faults, debug access and the scratchpad DMA engine (chapter 11). -/

namespace Sys2Proof.Machine

/-! ### State of a core (R308, R309) -/

def coreOf (s : State) (n : Nat) : Core := tgetD s.accord.cores n {}
def setCore (n : Nat) (c : Core) (s : State) : State := { s with accord := { s.accord with cores := tput s.accord.cores n c } }
def accClusterOf (s : State) (n : Nat) : AccCluster := tgetD s.accord.clusters n {}
def setAccCluster (n : Nat) (c : AccCluster) (s : State) : State :=
  { s with accord := { s.accord with clusters := tput s.accord.clusters n c } }

/-- A general register; g0 reads as 0. -/
def Core.g (c : Core) (r : BitVec 5) : Word := if r = 0 then 0 else tgetD c.regs r.toNat 0

/-- The core with a general register written; a write of g0 is discarded. -/
def Core.setG (c : Core) (r : BitVec 5) (v : Word) : Core := if r = 0 then c else { c with regs := tput c.regs r.toNat v }

/-- An accumulator. -/
def Core.a (c : Core) (i : BitVec 2) : BitVec 72 := tgetD c.acc i.toNat 0
def Core.setA (c : Core) (i : BitVec 2) (v : BitVec 72) : Core := { c with acc := tput c.acc i.toNat v }

/-- ACC_STATUS as CSRR reads it (Table 11-3): REP is visible only through debug access. -/
def Core.status (c : Core) : Word := BitVec.ofNat 32 (b2n c.puser * 4 + b2n c.user * 2 + b2n c.ie)

/-- A control register of Table 11-2; another number reads as 0 (R309). -/
def Core.csr (c : Core) (n num : Nat) : Word :=
  match num with
  | 0x000 => c.status
  | 0x001 => c.epc
  | 0x002 => c.cause.zeroExtend 32
  | 0x003 => c.vbase
  | 0x004 => c.imask.zeroExtend 32
  | 0x010 => c.icount
  | 0x011 => c.ibudget
  | 0x020 => c.codeBase
  | 0x021 => c.codeLimit
  | 0x022 => c.win0Base
  | 0x023 => c.win0Limit
  | 0x024 => c.win1Base
  | 0x025 => c.win1Limit
  | 0x030 => c.cycle.extractLsb' 0 32
  | 0x031 => c.cycle.extractLsb' 32 32
  | 0x040 => BitVec.ofNat 32 n
  | _ => 0

/-- A control register written; read-only and absent numbers discard the write (R309). The vector base keeps a multiple of 0x800. -/
def Core.setCsr (c : Core) (num : Nat) (v : Word) : Core :=
  match num with
  | 0x000 => { c with ie := v.getLsbD 0, user := v.getLsbD 1, puser := v.getLsbD 2 }
  | 0x001 => { c with epc := v }
  | 0x003 => { c with vbase := v &&& 0xFFFFF800 }
  | 0x004 => { c with imask := v.extractLsb' 0 3 }
  | 0x010 => { c with icount := v }
  | 0x011 => { c with ibudget := v }
  | 0x020 => { c with codeBase := v }
  | 0x021 => { c with codeLimit := v }
  | 0x022 => { c with win0Base := v }
  | 0x023 => { c with win0Limit := v }
  | 0x024 => { c with win1Base := v }
  | 0x025 => { c with win1Limit := v }
  | _ => c

/-! ### Scratchpad accesses (R317 causes 9, 10 and 12, R322, R329) -/

/-- The bytes [a, a + n) lie within a window. -/
def inWindow (base limit : Word) (a n : Nat) : Bool := decide (base.toNat ≤ a) && decide (a + n ≤ limit.toNat)

/-- Every byte that user code touches lies in a window that allows it: WIN1 to write, WIN0 or WIN1 to read (R329). -/
def Core.mayTouch (c : Core) (write : Bool) (a n : Nat) : Bool :=
  !c.user || (List.range n).all fun i =>
    inWindow c.win1Base c.win1Limit (a + i) 1 || (!write && inWindow c.win0Base c.win0Limit (a + i) 1)

/-- An access of n bytes with an alignment: WINDOW, then ALIGN, then MEMORY for a word that is read (the order is a DESIGN CHOICE, log
entry 31). -/
def Core.access (c : Core) (m : AccCluster) (read write : Bool) (a n align : Nat) : Except Nat Unit :=
  if !c.mayTouch write a n then .error 9
  else if a % align ≠ 0 ∨ 0x200000 ≤ a then .error 10
  else if read ∧ m.poison.any (fun w => decide (w = a / 4) || (decide (n = 8) && decide (w = a / 4 + 1))) then .error 12
  else .ok ()

/-- The n bytes at an address, as a number. -/
def AccCluster.num (m : AccCluster) (a n : Nat) : Nat := leNat (mreadN m.scratch a n)

/-- The scratchpad with n bytes written; a word written whole is good again. -/
def AccCluster.put (m : AccCluster) (a n v : Nat) : AccCluster :=
  { m with scratch := mwriteN m.scratch a (leBytes n v), poison := m.poison.filter fun w => decide (w ≠ a / 4) }

/-- gs + imm, sign-extended. -/
def Core.ea (c : Core) (f : FmtB) : Nat := (c.g f.s + f.imm.signExtend 32).toNat

/-! ### The effect of each instruction (Table 11-5) -/

/-- What an instruction does: the core and its cluster's scratchpad, or the cause of a fault. -/
abbrev AccRes := Except Nat (Core × AccCluster)

/-- An instruction that writes one general register and nothing else. -/
def Core.put (c : Core) (m : AccCluster) (d : BitVec 5) (v : Word) : AccRes := .ok (c.setG d v, m)

/-- A load: its value is written after the instruction that follows (R312). -/
def Core.late (c : Core) (m : AccCluster) (d : BitVec 5) (v : Word) : AccRes := .ok ({ c with load := some (d, v) }, m)

/-- A taken transfer: the target follows two delay slot instructions (R312). -/
def Core.go (c : Core) (m : AccCluster) (taken : Bool) (target : Word) (reti : Bool) : AccRes :=
  .ok (if taken then { c with branch := some (target &&& 0xFFFFFFFC, 2, reti) } else c, m)

def opAdd (f : FmtA) (c : Core) (m : AccCluster) : AccRes := c.put m f.d (fit32 f.ns ((c.g f.s).toInt + (c.g f.t).toInt))
def opSub (f : FmtA) (c : Core) (m : AccCluster) : AccRes := c.put m f.d (fit32 f.ns ((c.g f.s).toInt - (c.g f.t).toInt))
def opAnd (f : FmtA) (c : Core) (m : AccCluster) : AccRes := c.put m f.d (c.g f.s &&& c.g f.t)
def opOr (f : FmtA) (c : Core) (m : AccCluster) : AccRes := c.put m f.d (c.g f.s ||| c.g f.t)
def opXor (f : FmtA) (c : Core) (m : AccCluster) : AccRes := c.put m f.d (c.g f.s ^^^ c.g f.t)
/-- The exact product by 2^n, which saturates when a set bit or the sign would pass bit 31 (R320). -/
def opSll (f : FmtA) (c : Core) (m : AccCluster) : AccRes :=
  c.put m f.d (fit32 f.ns ((c.g f.s).toInt * 2 ^ ((c.g f.t).toNat % 32)))
def opSrl (f : FmtA) (c : Core) (m : AccCluster) : AccRes := c.put m f.d (c.g f.s >>> ((c.g f.t).toNat % 32))
def opSra (f : FmtA) (c : Core) (m : AccCluster) : AccRes := c.put m f.d ((c.g f.s).sshiftRight ((c.g f.t).toNat % 32))
def opMin (f : FmtA) (c : Core) (m : AccCluster) : AccRes := c.put m f.d (if (c.g f.s).slt (c.g f.t) then c.g f.s else c.g f.t)
def opMax (f : FmtA) (c : Core) (m : AccCluster) : AccRes := c.put m f.d (if (c.g f.s).slt (c.g f.t) then c.g f.t else c.g f.s)
def opAbs (f : FmtA) (c : Core) (m : AccCluster) : AccRes := c.put m f.d (fit32 f.ns ((c.g f.s).toInt.natAbs : Nat))
def opSlt (f : FmtA) (c : Core) (m : AccCluster) : AccRes := c.put m f.d (if (c.g f.s).slt (c.g f.t) then 1 else 0)
def opClz (f : FmtA) (c : Core) (m : AccCluster) : AccRes := c.put m f.d (BitVec.ofNat 32 (leadingZeros (c.g f.s)))
def opJr (f : FmtA) (c : Core) (m : AccCluster) : AccRes := c.go m true (c.g f.s) false

/-- AADD (R320, R323, R327). -/
def opAadd (f : FmtA) (c : Core) (m : AccCluster) : AccRes := do
  let a := (c.g f.s).toNat
  c.access m true true a 4 4
  let old : Word := BitVec.ofNat 32 (m.num a 4)
  c.late (m.put a 4 (fit32 f.ns (old.toInt + (c.g f.t).toInt)).toNat) f.d old

/-- ASWP (R323, R327). -/
def opAswp (f : FmtA) (c : Core) (m : AccCluster) : AccRes := do
  let a := (c.g f.s).toNat
  c.access m true true a 4 4
  c.late (m.put a 4 (c.g f.t).toNat) f.d (BitVec.ofNat 32 (m.num a 4))

def opAddi (f : FmtB) (c : Core) (m : AccCluster) : AccRes := c.put m f.d (fit32 false ((c.g f.s).toInt + f.imm.toInt))
def opAndi (f : FmtB) (c : Core) (m : AccCluster) : AccRes := c.put m f.d (c.g f.s &&& f.imm.zeroExtend 32)
def opOri (f : FmtB) (c : Core) (m : AccCluster) : AccRes := c.put m f.d (c.g f.s ||| f.imm.zeroExtend 32)
def opLui (f : FmtB) (c : Core) (m : AccCluster) : AccRes := c.put m f.d (f.imm.zeroExtend 32 <<< 16)
def opSlli (f : FmtB) (c : Core) (m : AccCluster) : AccRes := c.put m f.d (fit32 false ((c.g f.s).toInt * 2 ^ (f.imm.toNat % 32)))
def opSrli (f : FmtB) (c : Core) (m : AccCluster) : AccRes := c.put m f.d (c.g f.s >>> (f.imm.toNat % 32))
def opSrai (f : FmtB) (c : Core) (m : AccCluster) : AccRes := c.put m f.d ((c.g f.s).sshiftRight (f.imm.toNat % 32))
/-- SRAR (R321): half of the lowest kept weight is added in exact arithmetic. -/
def opSrar (f : FmtB) (c : Core) (m : AccCluster) : AccRes := c.put m f.d (BitVec.ofInt 32 (rshRound (c.g f.s).toInt (f.imm.toNat % 32)))

def opLw (f : FmtB) (c : Core) (m : AccCluster) : AccRes := do
  c.access m true false (c.ea f) 4 4
  c.late m f.d (BitVec.ofNat 32 (m.num (c.ea f) 4))

def opLh (f : FmtB) (c : Core) (m : AccCluster) : AccRes := do
  c.access m true false (c.ea f) 2 2
  c.late m f.d (BitVec.ofInt 32 (sext 16 (m.num (c.ea f) 2)))

def opSw (f : FmtB) (c : Core) (m : AccCluster) : AccRes := do
  c.access m false true (c.ea f) 4 4
  .ok (c, m.put (c.ea f) 4 (c.g f.d).toNat)

/-- SH reads and writes the whole word that holds the halfword (R323). -/
def opSh (f : FmtB) (c : Core) (m : AccCluster) : AccRes := do
  c.access m true true (c.ea f) 2 2
  .ok (c, m.put (c.ea f) 2 ((c.g f.d).toNat % 65536))

def opCsrr (n : Nat) (f : FmtB) (c : Core) (m : AccCluster) : AccRes := c.put m f.d (c.csr n (f.imm.toNat % 4096))
def opCsrw (f : FmtB) (c : Core) (m : AccCluster) : AccRes := .ok (c.setCsr (f.imm.toNat % 4096) (c.g f.s), m)

def opBeqz (f : FmtC) (c : Core) (m : AccCluster) : AccRes := c.go m (decide (c.g f.s = 0)) (relTarget c.pc f.off) false
def opBnez (f : FmtC) (c : Core) (m : AccCluster) : AccRes := c.go m (decide (c.g f.s ≠ 0)) (relTarget c.pc f.off) false
def opBltz (f : FmtC) (c : Core) (m : AccCluster) : AccRes := c.go m (c.g f.s).msb (relTarget c.pc f.off) false
def opBgez (f : FmtC) (c : Core) (m : AccCluster) : AccRes := c.go m (!(c.g f.s).msb) (relTarget c.pc f.off) false
def opJ (f : FmtC) (c : Core) (m : AccCluster) : AccRes := c.go m true (relTarget c.pc f.off) false
def opCall (f : FmtC) (c : Core) (m : AccCluster) : AccRes := (c.setG 31 (c.pc + 12)).go m true (relTarget c.pc f.off) false
/-- RPT: the next instruction is issued OFF[11:0] + 1 times (R314). -/
def opRpt (f : FmtC) (c : Core) (m : AccCluster) : AccRes := .ok ({ c with rep := f.off.toNat % 4096 + 1 }, m)
/-- WAIT stalls unless an enabled interrupt is pending already. -/
def opWait (c : Core) (m : AccCluster) : AccRes := .ok ({ c with waiting := decide (c.irq &&& c.imask = 0) }, m)
/-- RETI (R317): its slots run in supervisor mode, then it continues at ACC_EPC. -/
def opReti (c : Core) (m : AccCluster) : AccRes := c.go m true c.epc true

def opMac (f : FmtD) (c : Core) (m : AccCluster) : AccRes :=
  .ok (c.setA f.a (fit72 f.ns ((c.a f.a).toInt + (c.g f.p).toInt * (c.g f.q).toInt)), m)
def opMsu (f : FmtD) (c : Core) (m : AccCluster) : AccRes :=
  .ok (c.setA f.a (fit72 f.ns ((c.a f.a).toInt - (c.g f.p).toInt * (c.g f.q).toInt)), m)

/-- The two 8-byte reads of MAC2M and MAC4M, and the core with its pointers advanced, once when they are one register (R311, R329). -/
def Core.pair (c : Core) (m : AccCluster) (f : FmtD) : Except Nat (Nat × Nat × Core) := do
  let p := (c.g f.p).toNat
  let q := (c.g f.q).toNat
  c.access m true false p 8 8
  c.access m true false q 8 8
  let c1 := c.setG f.p (c.g f.p + 8)
  .ok (m.num p 8, m.num q 8, if f.p = f.q then c1 else c1.setG f.q (c.g f.q + 8))

/-- The sum of the products of corresponding signed parts, each w bits wide. -/
def dotParts (w k x y : Nat) : Int := totalI ((List.range k).map fun i => sext w (bits x (w * i) w) * sext w (bits y (w * i) w))

def opMac2m (f : FmtD) (c : Core) (m : AccCluster) : AccRes := do
  let (x, y, c1) ← c.pair m f
  .ok (c1.setA f.a (fit72 f.ns ((c.a f.a).toInt + dotParts 32 2 x y)), m)

def opMac4m (f : FmtD) (c : Core) (m : AccCluster) : AccRes := do
  let (x, y, c1) ← c.pair m f
  .ok (c1.setA f.a (fit72 f.ns ((c.a f.a).toInt + dotParts 16 4 x y)), m)

def opAclr (f : FmtD) (c : Core) (m : AccCluster) : AccRes := .ok (c.setA f.a 0, m)
def opRnd (f : FmtD) (c : Core) (m : AccCluster) : AccRes := c.put m f.p (fit32 f.ns (narrow (c.a f.a) f.sh.toNat))
def opArd (f : FmtD) (c : Core) (m : AccCluster) : AccRes :=
  c.put m f.p (match f.sh.toNat with
    | 0 => (c.a f.a).extractLsb' 0 32
    | 1 => (c.a f.a).extractLsb' 32 32
    | _ => ((c.a f.a).extractLsb' 64 8).signExtend 32)
def opAwr (f : FmtD) (c : Core) (m : AccCluster) : AccRes :=
  let a := c.a f.a
  let v := c.g f.p
  .ok (c.setA f.a (match f.sh.toNat with
    | 0 => a.extractLsb' 32 40 ++ v
    | 1 => a.extractLsb' 64 8 ++ v ++ a.extractLsb' 0 32
    | _ => v.extractLsb' 0 8 ++ a.extractLsb' 0 64), m)
def opAshr (f : FmtD) (c : Core) (m : AccCluster) : AccRes := .ok (c.setA f.a (BitVec.ofInt 72 (narrow (c.a f.a) f.sh.toNat)), m)

/-- The effect of an instruction on core n, its reserved fields being in order. -/
def AccOp.run (o : AccOp) (n : Nat) (c : Core) (m : AccCluster) : AccRes :=
  match o with
  | .add f => opAdd f c m
  | .sub f => opSub f c m
  | .and f => opAnd f c m
  | .or f => opOr f c m
  | .xor f => opXor f c m
  | .sll f => opSll f c m
  | .srl f => opSrl f c m
  | .sra f => opSra f c m
  | .min f => opMin f c m
  | .max f => opMax f c m
  | .abs f => opAbs f c m
  | .slt f => opSlt f c m
  | .clz f => opClz f c m
  | .jr f => opJr f c m
  | .aadd f => opAadd f c m
  | .aswp f => opAswp f c m
  | .addi f => opAddi f c m
  | .andi f => opAndi f c m
  | .ori f => opOri f c m
  | .lui f => opLui f c m
  | .slli f => opSlli f c m
  | .srli f => opSrli f c m
  | .srai f => opSrai f c m
  | .srar f => opSrar f c m
  | .lw f => opLw f c m
  | .lh f => opLh f c m
  | .sw f => opSw f c m
  | .sh f => opSh f c m
  | .csrr f => opCsrr n f c m
  | .csrw f => opCsrw f c m
  | .beqz f => opBeqz f c m
  | .bnez f => opBnez f c m
  | .bltz f => opBltz f c m
  | .bgez f => opBgez f c m
  | .j f => opJ f c m
  | .call f => opCall f c m
  | .rpt f => opRpt f c m
  | .wait _ => opWait c m
  | .reti _ => opReti c m
  | .mac f => opMac f c m
  | .msu f => opMsu f c m
  | .mac2m f => opMac2m f c m
  | .mac4m f => opMac4m f c m
  | .aclr f => opAclr f c m
  | .rnd f => opRnd f c m
  | .ard f => opArd f c m
  | .awr f => opAwr f c m
  | .ashr f => opAshr f c m
  | .reserved _ => .error 8

/-! ### Issue (R309-R317, R331) -/

/-- A core faults in user mode on an instruction that only supervisor mode may issue (R309: CSRR and CSRW). -/
def AccOp.isCsr : AccOp → Bool
  | .csrr _ | .csrw _ => true
  | _ => false

/-- A loaded value that is on its way is written, last (R312). -/
def Core.commit (c : Core) : Core :=
  match c.load with
  | none => c
  | some (r, v) => { c.setG r v with load := none }

/-- Entry to an interrupt or a fault (R317). -/
def Core.enter (c : Core) (cause : Nat) : Core :=
  let c := c.commit
  { c with epc := c.pc, cause := BitVec.ofNat 5 cause, puser := c.user, user := false, ie := false, counting := false, cycle := c.cycle + 1,
           pc := c.vbase + BitVec.ofNat 32 (0x40 * cause), branch := none, rep := 0, waiting := false }

/-- The next boundary is interruptible: no delay slot, no repetition (R316). -/
def Core.interruptible (c : Core) : Bool := c.branch.isNone && c.load.isNone && decide (c.rep = 0)

/-- Pending interrupts: requested and enabled (R316). -/
def Core.pendingIrq (c : Core) : BitVec 3 := c.irq &&& c.imask

/-- The lowest pending cause. -/
def lowestIrq (p : BitVec 3) : Nat := if p.getLsbD 0 then 0 else if p.getLsbD 1 then 1 else 2

/-- At an interruptible boundary a pending interrupt is taken while IE is 1; its request ends with its entry (log entry 31). -/
def Core.takeIrq (c : Core) : Core :=
  if c.ie && c.interruptible && decide (c.pendingIrq ≠ 0) then
    let k := lowestIrq c.pendingIrq
    { c.enter k with irq := c.irq &&& ~~~(1#3 <<< k) }
  else c

/-- At an interruptible boundary a requested halt takes effect (R336), else a pending interrupt is taken. -/
def Core.boundary (c : Core) : Core :=
  if c.haltReq && c.interruptible then { c with halted := true } else if c.halted then c else c.takeIrq

/-- The program counter after an instruction at the end of its repetitions: the target once both delay slots have run (R312, R317). -/
def Core.advance (before after : Core) : Core :=
  match before.branch with
  | none => { after with pc := before.pc + 4 }
  | some (t, k, ret) =>
    if 1 < k then { after with pc := before.pc + 4, branch := some (t, k - 1, ret) }
    else if ret then { after with pc := t, branch := none, user := after.puser, ie := true, counting := true }
    else { after with pc := t, branch := none }

/-- User instructions count against the budget (R331). -/
def Core.counts (c : Core) : Bool := c.user && c.counting

/-- One issue of an instruction, without its step of the pc: the cause of a fault, or the core and scratchpad (R312, R315, R331). -/
def Core.issue (o : AccOp) (n : Nat) (c : Core) (m : AccCluster) : AccRes := do
  if c.user && !inWindow c.codeBase c.codeLimit c.pc.toNat 4 then .error 9
  if !o.ok || (c.user && o.isCsr) then .error 8
  if c.counts && decide (c.ibudget.toNat < c.icount.toNat + 1) then .error 11
  let (c1, m1) ← o.run n { c with load := none } m
  let late := c1.load
  let c2 := { { c1 with load := c.load }.commit with load := late, cycle := c.cycle + 1 }
  .ok (if c.counts then { c2 with icount := c.icount + 1 } else c2, m1)

/-- All issues of an instruction: k repetitions still to come after this one (R314, R315). A fault ends the repeat. -/
def Core.repeated (o : AccOp) (n : Nat) : Nat → Core → AccCluster → Core × AccCluster × Option Nat
  | 0, c, m => match c.issue o n m with
    | .ok (c1, m1) => (c1, m1, none)
    | .error e => (c, m, some e)
  | k + 1, c, m => match c.issue o n m with
    | .ok (c1, m1) => Core.repeated o n k c1 m1
    | .error e => (c, m, some e)

/-- A core that faulted on an uncorrectable read is quarantined as a faulty engine (R322, Table 16-11): counted and reported, and the image
conferences that it runs take the fixed graph while no peer protects the device (R294). -/
def fallBack (conf first reason : Nat) (s : State) : State :=
  match s.obj.confs.at? conf with
  | none => s
  | some k =>
    if k.image = 0 ∨ k.fallback then s
    else
      let h := handleOf s tyConf conf
      postEvent k.tenant evGraphSwapped h h.toNat first reason (updConf conf (fun k => { k with fallback := true }) s)

/-- A fault of an Accord core: it is quarantined, reported once, and not absorbed (R322, Table 16-11). -/
def coreFault (n : Nat) (s : State) : State :=
  let known := s.orgue.quarantined.contains (56 + n)
  let m := accClusterOf s (n / 16)
  let s := quarantine (56 + n) (setAccCluster (n / 16) { m with coreQuar := m.coreQuar ||| (1#16 <<< (n % 16)) } s)
  if known then s
  else escalate false (fun s => s.obj.confs.live.foldl (fun s (i, _) => if Config.confCore i = n then fallBack i s.media.tick 1 s else s) s)
    (postDevice evQuarantined (n / 16) (n % 16) s)

/-- A transfer in a delay slot of another transfer, which R313 forbids and gives no target: the next address is a free value (log entry 31). -/
def badChain (before after : Core) : Bool :=
  match before.branch, after.branch with
  | some _, some _ => true
  | _, _ => false

/-- A core takes a fault (R317); an uncorrectable read is counted and quarantines it too (R322, R335). -/
def coreTakesFault (n cause : Nat) (c : Core) (s : State) : State :=
  let s := setCore n ({ c with branch := none }.enter cause) s
  if cause = 12 then coreFault n (count1 (accCtr (n / 16) 0x104) s) else s

/-- Issue an instruction on a core, with its repetitions (R314): a core that is halted or waits issues nothing. -/
def stepCore (o : AccOp) (n : Nat) (s : State) : State :=
  let c := coreOf s n
  let m := accClusterOf s (n / 16)
  let (c1, m1, fault) := Core.repeated o n (c.rep - 1) { c with rep := 0, branch := none } m
  let s := setAccCluster (n / 16) m1 s
  match fault with
  | some e => coreTakesFault n e c1 s
  | none =>
    let (free, s') := drawFree s
    if badChain c c1 then setCore n (({ c1 with branch := some (BitVec.ofNat 32 (4 * free), 2, false), pc := c.pc + 4 }).boundary) s'
    else if c1.branch.isSome then setCore n (({ c1 with pc := c.pc + 4 }).boundary) s
    else setCore n ((c.advance c1).boundary) s

/-- An instruction issues unless the core is halted or waits. -/
def issueOp (n : Nat) (o : AccOp) (s : State) : State :=
  let c := coreOf s n
  if c.halted || c.waiting then s else stepCore o n s

/-! ### Interrupts (R316-R318) -/

/-- A source requests an interrupt: WAIT ends if it is enabled, and it is taken at once at an interruptible boundary (R311, R316). -/
def requestIrq (n k : Nat) (s : State) : State :=
  let c := coreOf s n
  let c := { c with irq := c.irq ||| (1#3 <<< k) }
  let c := if decide (c.pendingIrq ≠ 0) then { c with waiting := false } else c
  setCore n (if c.halted then c else c.takeIrq) s

/-- INTERRUPT_ENTRY: the source of a cause of Table 11-9 requests, and the interrupt is taken where the boundary allows it. -/
def execInterruptEntry (core : CoreNo) (cause : Fin 3) (s : State) : Host.Outcome State Fault Refusal :=
  done s (requestIrq core.val cause.val s)

/-! ### Debug access (R336) -/

/-- A write of ACC_DBG_CTL that the device refuses: any after DEBUG_LOCK, and on a member of a protecting pair one that halts or steps, which is
also counted. -/
def dbgRefused (s : State) (v : Word) : Bool := s.mon.debugLock || (s.twin.prot && (v.getLsbD 0 || v.getLsbD 1))

def dbgDenied (s : State) : State := if s.mon.debugLock then s else badAccess 0 s

/-- ACC_DBG_CTL.HALT written: a halt takes effect at the next interruptible boundary; 0 lets the core run on. -/
def haltCore (n : Nat) (on : Bool) (s : State) : State :=
  let c := coreOf s n
  setCore n (if on then { c with haltReq := true }.boundary else { c with haltReq := false, halted := false }.boundary) s

/-- The instruction that a core would fetch next. -/
def fetchOp (n : Nat) (s : State) : AccOp := decodeWord (BitVec.ofNat 32 ((accClusterOf s (n / 16)).num (coreOf s n).pc.toNat 4))

/-- Issue the instruction at the pc; a fetch is a read by the core, and an uncorrectable error on it raises MEMORY (R322, Table 11-9). -/
def stepFetched (n : Nat) (s : State) : State :=
  let c := coreOf s n
  if (accClusterOf s (n / 16)).poison.contains (c.pc.toNat / 4) then coreTakesFault n 12 { c with rep := 0 } s else stepCore (fetchOp n s) n s

/-- One instruction, or one whole repeat, of a halted core, read from its scratchpad (R336). -/
def stepHalted (n : Nat) (s : State) : State :=
  let c := coreOf s n
  if c.halted && !c.waiting then
    let s := stepFetched n (setCore n c.takeIrq s)
    if 0 < (coreOf s n).rep then stepFetched n s else s
  else s

/-- ACC_DBG_HALT: a write of ACC_DBG_CTL with its HALT bit. -/
def execAccDbgHalt (core : CoreNo) (value : Word) (s : State) : Host.Outcome State Fault Refusal :=
  done s (if dbgRefused s value then dbgDenied s else haltCore core.val (value.getLsbD 0) s)

/-- ACC_DBG_STEP: a write of ACC_DBG_CTL with STEP; HALT in the value is written first. -/
def execAccDbgStep (core : CoreNo) (value : Word) (s : State) : Host.Outcome State Fault Refusal :=
  done s (if dbgRefused s value then dbgDenied s
    else
      let t := haltCore core.val (value.getLsbD 0) s
      if value.getLsbD 1 then stepHalted core.val t else t)

/-! ### Scratchpad DMA (R322, R326, R327) -/

/-- DMA_TRANSFER: a transfer completes between HBM and the scratchpad, and its core's DMA interrupt is requested. A transfer that leaves the
scratchpad moves nothing. Its banks have been granted, so their episodes end (R326; DEDUCED, log entry 31). -/
def execDmaTransfer (core : CoreNo) (t : DmaReq) (s : State) : Host.Outcome State Fault Refusal :=
  done s <|
    let n := core.val / 16
    let m := accClusterOf s n
    let ok := decide (t.scratch.toNat + t.len ≤ 0x200000)
    let banks := (List.range 16).filter fun b => decide (b * 0x20000 < t.scratch.toNat + t.len) && decide (t.scratch.toNat < (b + 1) * 0x20000)
    let idle : BitVec 16 := banks.foldl (fun x b => x &&& ~~~(1#16 <<< b)) 0xFFFF
    let m := { m with episode := m.episode &&& idle, dmaWait := m.dmaWait &&& idle, starve := banks.foldl (fun x b => tdel x b) m.starve }
    let s :=
      if !ok then setAccCluster n { m with dmaBusy := false } s
      else if t.toScratch then
        let lo := t.scratch.toNat / 4
        let hi := (t.scratch.toNat + t.len) / 4
        setAccCluster n { m with scratch := mwriteN m.scratch t.scratch.toNat (mreadN s.hbm.mem t.hbm.toNat t.len), dmaBusy := false,
                                 poison := m.poison.filter fun w => !(decide (lo ≤ w) && decide (w < hi)) } s
      else
        setAccCluster n { m with dmaBusy := false }
          { s with hbm := { s.hbm with mem := mwriteN s.hbm.mem t.hbm.toNat (mreadN m.scratch t.scratch.toNat t.len) } }
    requestIrq core.val 2 s

/-- DMA_FORCED_GRANT: the starvation counter of a bank reached 4,096 (R326). Banks 0 and 1 have a port for DMA and no counter. -/
def execDmaForcedGrant (cluster : ClusterNo) (bank : Fin 16) (s : State) : Host.Outcome State Fault Refusal :=
  done s <|
    if bank.val < 2 then s
    else
      let n := cluster.val
      let m := accClusterOf s n
      let first := !m.episode.getLsbD bank.val
      let s := setAccCluster n { m with starve := tdel m.starve bank.val, episode := m.episode ||| (1#16 <<< bank.val),
                                        dmaWait := m.dmaWait &&& ~~~(1#16 <<< bank.val) } s
      let s := count1 (accCtr n 0x10C) s
      if first then postDevice evDmaStarved n bank.val (count1 (accCtr n 0x108) s) else s

/-! ### One meaning per instruction -/

def execAdd (core : CoreNo) (f : FmtA) (s : State) : Host.Outcome State Fault Refusal := done s (issueOp core.val (.add f) s)
def execSub (core : CoreNo) (f : FmtA) (s : State) : Host.Outcome State Fault Refusal := done s (issueOp core.val (.sub f) s)
def execAnd (core : CoreNo) (f : FmtA) (s : State) : Host.Outcome State Fault Refusal := done s (issueOp core.val (.and f) s)
def execOr (core : CoreNo) (f : FmtA) (s : State) : Host.Outcome State Fault Refusal := done s (issueOp core.val (.or f) s)
def execXor (core : CoreNo) (f : FmtA) (s : State) : Host.Outcome State Fault Refusal := done s (issueOp core.val (.xor f) s)
def execSll (core : CoreNo) (f : FmtA) (s : State) : Host.Outcome State Fault Refusal := done s (issueOp core.val (.sll f) s)
def execSrl (core : CoreNo) (f : FmtA) (s : State) : Host.Outcome State Fault Refusal := done s (issueOp core.val (.srl f) s)
def execSra (core : CoreNo) (f : FmtA) (s : State) : Host.Outcome State Fault Refusal := done s (issueOp core.val (.sra f) s)
def execMin (core : CoreNo) (f : FmtA) (s : State) : Host.Outcome State Fault Refusal := done s (issueOp core.val (.min f) s)
def execMax (core : CoreNo) (f : FmtA) (s : State) : Host.Outcome State Fault Refusal := done s (issueOp core.val (.max f) s)
def execAbs (core : CoreNo) (f : FmtA) (s : State) : Host.Outcome State Fault Refusal := done s (issueOp core.val (.abs f) s)
def execSlt (core : CoreNo) (f : FmtA) (s : State) : Host.Outcome State Fault Refusal := done s (issueOp core.val (.slt f) s)
def execClz (core : CoreNo) (f : FmtA) (s : State) : Host.Outcome State Fault Refusal := done s (issueOp core.val (.clz f) s)
def execJr (core : CoreNo) (f : FmtA) (s : State) : Host.Outcome State Fault Refusal := done s (issueOp core.val (.jr f) s)
def execAadd (core : CoreNo) (f : FmtA) (s : State) : Host.Outcome State Fault Refusal := done s (issueOp core.val (.aadd f) s)
def execAswp (core : CoreNo) (f : FmtA) (s : State) : Host.Outcome State Fault Refusal := done s (issueOp core.val (.aswp f) s)
def execAddi (core : CoreNo) (f : FmtB) (s : State) : Host.Outcome State Fault Refusal := done s (issueOp core.val (.addi f) s)
def execAndi (core : CoreNo) (f : FmtB) (s : State) : Host.Outcome State Fault Refusal := done s (issueOp core.val (.andi f) s)
def execOri (core : CoreNo) (f : FmtB) (s : State) : Host.Outcome State Fault Refusal := done s (issueOp core.val (.ori f) s)
def execLui (core : CoreNo) (f : FmtB) (s : State) : Host.Outcome State Fault Refusal := done s (issueOp core.val (.lui f) s)
def execSlli (core : CoreNo) (f : FmtB) (s : State) : Host.Outcome State Fault Refusal := done s (issueOp core.val (.slli f) s)
def execSrli (core : CoreNo) (f : FmtB) (s : State) : Host.Outcome State Fault Refusal := done s (issueOp core.val (.srli f) s)
def execSrai (core : CoreNo) (f : FmtB) (s : State) : Host.Outcome State Fault Refusal := done s (issueOp core.val (.srai f) s)
def execSrar (core : CoreNo) (f : FmtB) (s : State) : Host.Outcome State Fault Refusal := done s (issueOp core.val (.srar f) s)
def execLw (core : CoreNo) (f : FmtB) (s : State) : Host.Outcome State Fault Refusal := done s (issueOp core.val (.lw f) s)
def execLh (core : CoreNo) (f : FmtB) (s : State) : Host.Outcome State Fault Refusal := done s (issueOp core.val (.lh f) s)
def execSw (core : CoreNo) (f : FmtB) (s : State) : Host.Outcome State Fault Refusal := done s (issueOp core.val (.sw f) s)
def execSh (core : CoreNo) (f : FmtB) (s : State) : Host.Outcome State Fault Refusal := done s (issueOp core.val (.sh f) s)
def execCsrr (core : CoreNo) (f : FmtB) (s : State) : Host.Outcome State Fault Refusal := done s (issueOp core.val (.csrr f) s)
def execCsrw (core : CoreNo) (f : FmtB) (s : State) : Host.Outcome State Fault Refusal := done s (issueOp core.val (.csrw f) s)
def execBeqz (core : CoreNo) (f : FmtC) (s : State) : Host.Outcome State Fault Refusal := done s (issueOp core.val (.beqz f) s)
def execBnez (core : CoreNo) (f : FmtC) (s : State) : Host.Outcome State Fault Refusal := done s (issueOp core.val (.bnez f) s)
def execBltz (core : CoreNo) (f : FmtC) (s : State) : Host.Outcome State Fault Refusal := done s (issueOp core.val (.bltz f) s)
def execBgez (core : CoreNo) (f : FmtC) (s : State) : Host.Outcome State Fault Refusal := done s (issueOp core.val (.bgez f) s)
def execJ (core : CoreNo) (f : FmtC) (s : State) : Host.Outcome State Fault Refusal := done s (issueOp core.val (.j f) s)
def execCall (core : CoreNo) (f : FmtC) (s : State) : Host.Outcome State Fault Refusal := done s (issueOp core.val (.call f) s)
def execRpt (core : CoreNo) (f : FmtC) (s : State) : Host.Outcome State Fault Refusal := done s (issueOp core.val (.rpt f) s)
def execWait (core : CoreNo) (f : FmtC) (s : State) : Host.Outcome State Fault Refusal := done s (issueOp core.val (.wait f) s)
def execReti (core : CoreNo) (f : FmtC) (s : State) : Host.Outcome State Fault Refusal := done s (issueOp core.val (.reti f) s)
def execMac (core : CoreNo) (f : FmtD) (s : State) : Host.Outcome State Fault Refusal := done s (issueOp core.val (.mac f) s)
def execMsu (core : CoreNo) (f : FmtD) (s : State) : Host.Outcome State Fault Refusal := done s (issueOp core.val (.msu f) s)
def execMac2m (core : CoreNo) (f : FmtD) (s : State) : Host.Outcome State Fault Refusal := done s (issueOp core.val (.mac2m f) s)
def execMac4m (core : CoreNo) (f : FmtD) (s : State) : Host.Outcome State Fault Refusal := done s (issueOp core.val (.mac4m f) s)
def execAclr (core : CoreNo) (f : FmtD) (s : State) : Host.Outcome State Fault Refusal := done s (issueOp core.val (.aclr f) s)
def execRnd (core : CoreNo) (f : FmtD) (s : State) : Host.Outcome State Fault Refusal := done s (issueOp core.val (.rnd f) s)
def execArd (core : CoreNo) (f : FmtD) (s : State) : Host.Outcome State Fault Refusal := done s (issueOp core.val (.ard f) s)
def execAwr (core : CoreNo) (f : FmtD) (s : State) : Host.Outcome State Fault Refusal := done s (issueOp core.val (.awr f) s)
def execAshr (core : CoreNo) (f : FmtD) (s : State) : Host.Outcome State Fault Refusal := done s (issueOp core.val (.ashr f) s)

/-- A word of opcode 0x00 or 0x31-0x3F raises ILLEGAL (R311); another word is no reserved one, and the core issues what it says. -/
def execReservedOpcode (core : CoreNo) (w : Word) (s : State) : Host.Outcome State Fault Refusal :=
  done s (issueOp core.val (decodeWord w) s)

end Sys2Proof.Machine
end

