-- ==== Sys2Proof/Machine/Depacket.lean ====
section
/-! DEFINITION. The RTP payload formats of Table 07-2: how the packets of a picture give its coded units (R186). The formats stand in the RFCs that the
table names (PRESUMED, log entry 167). -/

namespace Sys2Proof.Machine

/-- A picture on its way out of its packets: units so far, what payload descriptors and header extensions say, and whether a packet breaks the format
or its limits. -/
structure Depack where
  units : List (List Byte) := []
  notes : List Byte := []
  bad : Bool := false
  deriving DecidableEq, Repr

/-- A whole unit. -/
def Depack.unit (d : Depack) (u : List Byte) : Depack := { d with units := d.units ++ [u] }

/-- A further fragment of the last unit. -/
def Depack.more (d : Depack) (u : List Byte) : Depack :=
  match d.units.getLast? with
  | none => { d with bad := true }
  | some l => { d with units := d.units.dropLast ++ [l ++ u] }

/-- Units that stand behind 16-bit sizes. -/
def sizedUnits : Nat → List Byte → Depack → Depack
  | 0, bs, d => if bs.isEmpty then d else { d with bad := true }
  | fuel + 1, bs, d =>
    if bs.isEmpty then d
    else
      let n := beAt bs 0 2
      if n = 0 ∨ bs.length < n + 2 then { d with bad := true } else sizedUnits fuel (bs.drop (n + 2)) (d.unit ((bs.drop 2).take n))

/-- A fragment: a unit header of its own at its start, and its payload. -/
def Depack.fragment (d : Depack) (start : Bool) (head body : List Byte) : Depack := if start then d.unit (head ++ body) else d.more body

/-- RFC 6184, packetization-mode 0 and 1: single units, STAP-A and FU-A. -/
def takeH264 (bs : List Byte) (d : Depack) : Depack :=
  let h := beAt bs 0 1
  match h % 32 with
  | 0 => { d with bad := true }
  | 24 => sizedUnits bs.length (bs.drop 1) d
  | 28 => d.fragment (bit (beAt bs 1 1) 7) [BitVec.ofNat 8 (h / 32 * 32 + beAt bs 1 1 % 32)] (bs.drop 2)
  | n => if 24 ≤ n then { d with bad := true } else d.unit bs

/-- RFC 7798 without DONL: single units, aggregation packets and fragmentation units. -/
def takeHevc (bs : List Byte) (d : Depack) : Depack :=
  let h := beAt bs 0 1
  match h / 2 % 64 with
  | 48 => sizedUnits bs.length (bs.drop 2) d
  | 49 => d.fragment (bit (beAt bs 2 1) 7) [BitVec.ofNat 8 (h / 128 * 128 + beAt bs 2 1 % 64 * 2 + h % 2), BitVec.ofNat 8 (beAt bs 1 1)] (bs.drop 3)
  | n => if 48 ≤ n then { d with bad := true } else d.unit bs

/-- RFC 9328 without DONL: single units, aggregation packets and fragmentation units. -/
def takeVvc (bs : List Byte) (d : Depack) : Depack :=
  let h := beAt bs 1 1
  match h / 8 with
  | 28 => sizedUnits bs.length (bs.drop 2) d
  | 29 => d.fragment (bit (beAt bs 2 1) 7) [BitVec.ofNat 8 (beAt bs 0 1), BitVec.ofNat 8 (beAt bs 2 1 % 32 * 8 + h % 8)] (bs.drop 3)
  | n => if 28 < n then { d with bad := true } else d.unit bs

/-- Bytes of the reference differences of a VP9 descriptor, at most three. -/
def vp9Diffs : Nat → List Byte → Nat
  | 0, _ => 0
  | fuel + 1, bs => if bit (beAt bs 0 1) 0 then 1 + vp9Diffs fuel (bs.drop 1) else 1

/-- Bytes of the picture group of a VP9 scalability structure. -/
def vp9Group : Nat → List Byte → Nat
  | 0, _ => 0
  | n + 1, bs =>
    let r := beAt bs 0 1 / 4 % 4
    1 + r + vp9Group n (bs.drop (1 + r))

/-- Bytes of a VP9 scalability structure. -/
def vp9Structure (bs : List Byte) : Nat :=
  let h := beAt bs 0 1
  let sizes := if bit h 4 then (h / 32 + 1) * 4 else 0
  1 + sizes + if bit h 3 then 1 + vp9Group (beAt bs (1 + sizes) 1) (bs.drop (2 + sizes)) else 0

/-- Bytes of a VP9 payload descriptor (RFC 9628): picture ID, layer indices, reference differences in flexible mode, scalability structure. -/
def vp9Descriptor (bs : List Byte) : Nat :=
  let h := beAt bs 0 1
  let a := 1 + if bit h 7 then (if bit (beAt bs 1 1) 7 then 2 else 1) else 0
  let b := a + if bit h 5 then (if bit h 4 then 1 else 2) else 0
  let c := b + if bit h 4 ∧ bit h 6 then vp9Diffs 3 (bs.drop b) else 0
  c + if bit h 1 then vp9Structure (bs.drop c) else 0

/-- RFC 9628: frame bytes behind the descriptor; the B bit begins a frame. -/
def takeVp9 (bs : List Byte) (d : Depack) : Depack :=
  let n := vp9Descriptor bs
  if bs.length ≤ n then { d with bad := true }
  else { (d.fragment (bit (beAt bs 0 1) 3) [] (bs.drop n)) with notes := d.notes ++ bs.take n }

/-- A leb128 number: its value and its bytes. -/
def leb128 : Nat → Nat → List Byte → Nat × Nat
  | 0, _, _ => (0, 0)
  | fuel + 1, shift, bs =>
    let b := beAt bs 0 1
    if bit b 7 then
      let (v, n) := leb128 fuel (shift + 7) (bs.drop 1)
      (b % 128 * 2 ^ shift + v, n + 1)
    else (b * 2 ^ shift, 1)

/-- The elements of an AV1 packet: each behind its size, but for the last of a stated number. -/
def av1Elements : Nat → Option Nat → List Byte → List (List Byte)
  | 0, _, _ => []
  | fuel + 1, left, bs =>
    if bs.isEmpty then []
    else if left = some 1 then [bs]
    else
      let (v, n) := leb128 8 0 bs
      (bs.drop n).take v :: av1Elements fuel (left.map (· - 1)) (bs.drop (n + v))

/-- The AOMedia payload format: an aggregation header, then elements of which the first may continue a unit. -/
def takeAv1 (bs : List Byte) (d : Depack) : Depack :=
  let h := beAt bs 0 1
  let w := h / 16 % 4
  (indexed (av1Elements bs.length (if w = 0 then none else some w) (bs.drop 1))).foldl (fun d x =>
    if x.1 = 0 ∧ bit h 7 then d.more x.2 else d.unit x.2) d

/-- The units of a picture: the payloads of its packets in order, codec by the code of Table 07-3. -/
def depacketise (codec : Nat) (ps : List (List Byte)) : Depack :=
  ps.foldl (fun d bs => match codec with
    | 1 => takeH264 bs d
    | 2 => takeHevc bs d
    | 3 => takeVp9 bs d
    | 4 => takeAv1 bs d
    | _ => takeVvc bs d) {}

/-- The coded picture as the engines take it: the units of H.264, HEVC and VVC each behind a start code, the others one after the other. -/
def codedUnits (codec : Nat) (d : Depack) : List Byte :=
  if codec = 3 ∨ codec = 4 then d.units.flatten else d.units.flatMap fun u => [0, 0, 0, 1] ++ u

end Sys2Proof.Machine
end

