-- ==== Sys2Proof/Machine/Streams.lean ====
section
/-! DEFINITION. Transport records, policers, stream and slot records: their checks, and the streams that they declare
(R33, R38-R41, R51-R53, R125, R147, R152, R187, R245, R276, R496, R497). -/

namespace Sys2Proof.Machine

/-! ### Checks in ascending offset (R82) -/

/-- A check with its place in the order; a field that depends on others stands after them. -/
abbrev Placed := Nat × Check

/-- A check at the place of its offset. -/
def at_ (off : Nat) (c : Check) : Placed := (4 * off, c)

/-- A check that waits for the field at `off`; k orders several of them. -/
def afterField (off k : Nat) (c : Check) : Placed := (4 * off + k, c)

/-- The failure with the lowest place, the first listed among equals. -/
def firstPlaced : List Placed → Check
  | [] => none
  | l => (l.foldl (fun (best : Option (Nat × Fail)) (p : Placed) => match p.2, best with
      | some f, none => some (p.1, f)
      | some f, some b => if p.1 < b.1 then some (p.1, f) else some b
      | none, b => b) none).map (·.2)

/-- Repeats among the SSRCs of one direction fail at the later field (R497). -/
def repeatsFrom : List Word → List (Nat × Word) → List Placed
  | _, [] => []
  | seen, (off, x) :: r => at_ off (failIf (x != 0 && seen.contains x) stRange off) :: repeatsFrom (x :: seen) r

/-! ### Policer (Table 06-1) -/

/-- Zero fields of a policer at offset b. -/
def policerZeros (c : Cmd) (b : Nat) : List Check := [zeroAt c (b + 4) 4, zeroAt c (b + 8) 4, zeroAt c (b + 12) 4, zeroAt c (b + 16) 4]

/-- Fields of a policer at offset b. -/
def policerFields (c : Cmd) (b : Nat) : List Placed :=
  let tr := c.u8 b
  [at_ b (rangeAt c b 1 0 1), at_ (b + 1) (rangeAt c (b + 1) 1 0 1), at_ (b + 2) (padAt c (b + 2) 2),
   at_ (b + 4) (rangeAt c (b + 4) 4 64 200000000), at_ (b + 8) (rangeAt c (b + 8) 4 64 16777216),
   at_ (b + 12) (if tr = 0 then failIf (decide (c.u32 (b + 12) ≠ c.u32 (b + 4))) stRange (b + 12)
     else rangeAt c (b + 12) 4 (c.u32 (b + 4)) 200000000),
   at_ (b + 16) (rangeAt c (b + 16) 4 64 16777216)]

/-- A new meter, every bucket full (R152). -/
def newMeter (c : Cmd) (b now : Nat) : Meter :=
  { tr := decide (c.u8 b = 1), aware := decide (c.u8 (b + 1) = 1), cir := c.u32 (b + 4), cbs := c.u32 (b + 8), pir := c.u32 (b + 12),
    pbs := c.u32 (b + 16), tc := c.u32 (b + 8) * 8000000, tx := c.u32 (b + 16) * 8000000, last := now }

/-- A changed meter keeps its buckets, each clipped to its new size (R152). -/
def changeMeter (c : Cmd) (b : Nat) (m : Meter) : Meter :=
  let n := newMeter c b m.last
  { n with tc := if m.tc < n.tc then m.tc else n.tc, tx := if m.tx < n.tx then m.tx else n.tx }

/-! ### Transport record (Table 02-15) -/

/-- An address entry of the tenant holds the address (R33). -/
def ownsAddr (s : State) (t : Nat) (v6 : Bool) (ip : List Byte) : Bool :=
  ((s.obj.tenants.at? t).map fun x => x.addrs.any fun a => decide (a.ip = ip) && (a.v6 == v6)).getD false

/-- An address entry of the tenant holds the address and port. -/
def ownsPort (s : State) (t : Nat) (v6 : Bool) (ip : List Byte) (port : Nat) : Bool :=
  ((s.obj.tenants.at? t).map fun x => x.addrs.any fun a =>
    decide (a.ip = ip) && (a.v6 == v6) && decide (a.first ≤ port) && decide (port ≤ a.last)).getD false

/-- Fields of a transport record at offset b. -/
def transportFields (s : State) (c : Cmd) (b : Nat) : List Placed :=
  let t := c.fn.val
  let v6 := decide (c.u8 (b + 36) = 6)
  let la := c.raw b 16
  [at_ (b + 32) (rangeAt c (b + 32) 2 1 65535), at_ (b + 34) (rangeAt c (b + 34) 2 1 65535),
   at_ (b + 36) (failIf (decide (c.u8 (b + 36) ≠ 4) && decide (c.u8 (b + 36) ≠ 6)) stRange (b + 36)),
   afterField (b + 36) 1 (firstFail [failIf (!v6 && !zeros (c.raw (b + 4) 12)) stFormat b, failIf (!ownsAddr s t v6 la) stNotOwner b]),
   afterField (b + 36) 2 (failIf (!v6 && !zeros (c.raw (b + 20) 12)) stFormat (b + 16)),
   afterField (b + 36) 3 (failIf (!ownsPort s t v6 la (c.u16 (b + 32))) stNotOwner (b + 32)),
   at_ (b + 37) (failIf (decide (7 < c.u8 (b + 37)) || !portExists s (c.u8 (b + 37))) stRange (b + 37)),
   at_ (b + 38) (rangeAt c (b + 38) 2 0 4094), at_ (b + 40) (rangeAt c (b + 40) 1 0 7), at_ (b + 41) (padAt c (b + 41) 1),
   at_ (b + 42) (failIf (decide (c.u16 (b + 42) ≠ 0) && (decide (c.u16 (b + 42) < 64) || decide (16383 < c.u16 (b + 42)))) stRange (b + 42)),
   at_ (b + 44) (padAt c (b + 44) 4)]

/-- The record. -/
def transportAt (c : Cmd) (b : Nat) : Transport :=
  { laddr := c.raw b 16, raddr := c.raw (b + 16) 16, lport := c.u16 (b + 32), rport := c.u16 (b + 34), v6 := decide (c.u8 (b + 36) = 6),
    port := Fin.ofNat 8 (c.u8 (b + 37)), vid := c.u16 (b + 38), pcp := c.u8 (b + 40), ctrl := c.u16 (b + 42) }

/-- Two transports are one: addresses, ports and IP version (R40). -/
def Transport.same (a b : Transport) : Bool :=
  decide (a.laddr = b.laddr) && decide (a.raddr = b.raddr) && decide (a.lport = b.lport) && decide (a.rport = b.rport) && (a.v6 == b.v6)

/-- The leg or trunk that holds a transport, other than one itself (R40). -/
def transportHolder (s : State) (t : Transport) (self : Handle) : Option Handle :=
  let legs := s.obj.legs.live.findSome? fun (i, l) =>
    if l.transport.same t ∧ handleOf s tyLeg i ≠ self then some (handleOf s tyLeg i) else none
  match legs with
  | some h => some h
  | none => s.obj.trunks.live.findSome? fun (i, l) =>
    if l.transport.same t ∧ handleOf s tyTrunk i ≠ self then some (handleOf s tyTrunk i) else none

/-- State checks of a transport record: the control ring, then the transport itself. STANDBY repeats no ring check (R41). -/
def transportStates (s : State) (c : Cmd) (b : Nat) (self : Handle) : List Check :=
  [failIf (!followsLog s && decide (c.u16 (b + 42) ≠ 0) && !isExtraction s c.fn.val (c.u16 (b + 42))) stState (b + 42),
   (transportHolder s (transportAt c b) self).map fun h => ⟨stState, h⟩]

/-! ### Stream record (Table 02-21) -/

/-- A record at offset b: is it outbound, and its kind. -/
def recOut (c : Cmd) (b : Nat) : Bool := c.u8 b == 1
def recKind (c : Cmd) (b : Nat) : Nat := c.u8 (b + 1)

/-- The declaration. -/
def recordAt (c : Cmd) (b : Nat) : StreamRec :=
  { outbound := recOut c b, kind := recKind c b, pt := c.u8 (b + 2), rtxPt := c.u8 (b + 3), slot := c.hdl (b + 4), form := c.u8 (b + 8),
    layers := [c.u8 (b + 9), c.u8 (b + 10), c.u8 (b + 11)], ssrcs := [c.hdl (b + 12), c.hdl (b + 16), c.hdl (b + 20)],
    rtx := [c.hdl (b + 24), c.hdl (b + 28), c.hdl (b + 32)], fec := c.hdl (b + 36), rtxSlot := c.hdl (b + 40), fecSlot := c.hdl (b + 44),
    sizes := (List.range 6).map fun i => c.u16 (b + 48 + 2 * i), block := c.raw (b + 64) 32 }

/-- SSRC fields of a record with their offsets. One SSRC on two notes of a simulcast source is a fault of the mapping (R51, ST_STATE), not a repeat
(R497, ST_RANGE): the later note's field stands here without it (DEDUCED, log entry 162). -/
def recSsrcs (c : Cmd) (b : Nat) : List (Nat × Word) :=
  let note := fun (o : Nat) => recOut c b == false && recKind c b == 1 && c.u8 (b + 8) == 1 &&
    ([12, 16, 20].filter fun p => decide (p < o) && decide (o ≤ 20)).any fun p => c.hdl (b + p) == c.hdl (b + o)
  [12, 16, 20, 24, 28, 32, 36].map fun o => (b + o, if note o then 0 else c.hdl (b + o))

/-- SSRCs that a declared stream holds. -/
def StreamRec.allSsrcs (d : StreamRec) : List Word := d.ssrcs ++ d.rtx ++ [d.fec]

/-- Zero fields of the type block at b + 64. -/
def recZeros (c : Cmd) (b : Nat) : List Check :=
  let t := b + 64
  match recOut c b, recKind c b with
  | _, 0 => [zeroAt c (t + 1) 1, zeroAt c (t + 4) 4, zeroAt c (t + 8) 2, zeroAt c (t + 10) 2, zeroAt c (t + 12) 2]
  | false, 1 => [zeroAt c (t + 2) 1, zeroAt c (t + 4) 2, zeroAt c (t + 6) 2, zeroAt c (t + 8) 2, zeroAt c (t + 10) 2, zeroAt c (t + 12) 2]
  | true, 3 => [zeroAt c (t + 2) 1, zeroAt c (t + 8) 4, zeroAt c (t + 12) 4, zeroAt c (t + 16) 2, zeroAt c (t + 20) 2, zeroAt c (t + 22) 1,
      zeroAt c (t + 23) 1, zeroAt c (t + 24) 2]
  | _, _ => []

/-- A handle field that must be 0. -/
def noHandle (c : Cmd) (off : Nat) : Check := failIf (decide (c.hdl off ≠ 0)) stHandle off

/-- Handle fields of a record: the key slots, and the layout of a composite. -/
def recHandles (s : State) (c : Cmd) (b : Nat) (trunk : Bool) : List Check :=
  let out := recOut c b
  [if trunk then noHandle c (b + 4) else handleAt s c [tySlot] (b + 4),
   if out ∧ c.hdl (b + 24) ≠ 0 then handleAt s c [tySlot] (b + 40) else noHandle c (b + 40),
   if out ∧ c.hdl (b + 36) ≠ 0 then handleAt s c [tySlot] (b + 44) else noHandle c (b + 44),
   if out ∧ recKind c b = 3 then handleAt s c [tyLayout] (b + 68) else none]

/-- Bitrate of Table 10-3 for a codec. -/
def audioRate (codec rate : Nat) : Bool :=
  if codec = 1 then decide (6000 ≤ rate) && decide (rate ≤ 510000) else if codec = 5 then decide (rate = 768000) else decide (rate = 64000)

/-- Fields of the audio block at t (Table 10-3). -/
def audioFields (s : State) (c : Cmd) (t : Nat) : List Placed :=
  let k := c.u8 t
  [at_ t (rangeAt c t 1 1 5), afterField t 1 (notReadyAt s (k == 4 || k == 5) t),
   at_ (t + 1) (failIf (decide (c.u8 (t + 1) ≠ 1) && !(c.u8 (t + 1) == 2 && k == 1)) stRange (t + 1)),
   at_ (t + 2) (failIf (decide (3 < c.u8 (t + 2)) || (decide (c.u8 (t + 2) < 2) && k != 1 && k != 5)) stRange (t + 2)),
   at_ (t + 3) (reservedAt c (t + 3) 1 4), at_ (t + 4) (failIf (!audioRate k (c.u32 (t + 4))) stRange (t + 4)),
   at_ (t + 8) (rangeAt c (t + 8) 2 1 200), at_ (t + 10) (rangeAt c (t + 10) 2 (c.u16 (t + 8)) 500), at_ (t + 12) (rangeAt c (t + 12) 2 100 400),
   at_ (t + 14) (padAt c (t + 14) 2), at_ (t + 16) (padAt c (t + 16) 16)]

/-- Fields of the decode block at t (Table 07-3). -/
def decodeFields (c : Cmd) (t : Nat) (present : List Nat) : List Placed :=
  [at_ t (rangeAt c t 1 1 5),
   at_ (t + 1) (failIf (decide (3 < c.u8 (t + 1)) || (decide (c.u8 (t + 1) ≠ 0) && !(present.contains (c.u8 (t + 1) - 1)))) stRange (t + 1)),
   at_ (t + 2) (rangeAt c (t + 2) 1 3 16), at_ (t + 3) (reservedAt c (t + 3) 1 3), at_ (t + 4) (rangeAt c (t + 4) 2 16 4096),
   at_ (t + 6) (rangeAt c (t + 6) 2 16 4096),
   afterField (t + 6) 1 (failIf (decide (9437184 < area64 (c.u16 (t + 4)) (c.u16 (t + 6)))) stRange (t + 4)),
   at_ (t + 8) (rangeAt c (t + 8) 2 1 120), at_ (t + 10) (rangeAt c (t + 10) 2 2 200), at_ (t + 12) (rangeAt c (t + 12) 2 1 500),
   at_ (t + 14) (padAt c (t + 14) 2), at_ (t + 16) (padAt c (t + 16) 16)]

/-- Highest QP of a codec (Table 09-2). -/
def topQp (codec : Nat) : Nat := if codec = 4 then 255 else if codec = 5 then 63 else 51

/-- A canvas and rate exceed the highest level of a codec (R240); the limits of level 5.1 are PRESUMED from the standards (log entry 28). -/
def overLevel (codec w h f : Nat) : Bool :=
  if codec = 1 ∨ codec = 2 then
    let mbs := ceilDiv w 16 * ceilDiv h 16
    decide (36864 < mbs) || decide (983040 < mbs * f)
  else decide (8912896 < w * h) || decide (534773760 < w * h * f)

/-- The layout that an encode block at t names. -/
def blockLayout (s : State) (c : Cmd) (t : Nat) : Option Layout := (liveIndex s tyLayout (c.hdl (t + 4))).bind s.obj.layouts.at?

/-- Fields of the encode block at t (Table 09-2). -/
def encodeFields (s : State) (c : Cmd) (t : Nat) : List Placed :=
  let k := c.u8 t
  let l := c.u8 (t + 2)
  [at_ t (rangeAt c t 1 1 5), at_ (t + 1) (rangeAt c (t + 1) 1 0 1), at_ (t + 2) (rangeAt c (t + 2) 1 1 3), at_ (t + 3) (reservedAt c (t + 3) 1 2),
   at_ (t + 4) (match blockLayout s c t with
     | some x => failIf (overLevel k x.w x.h x.rate) stRange (t + 4)
     | none => none),
   at_ (t + 8) (rangeAt c (t + 8) 4 32 200000), at_ (t + 12) (rangeAt c (t + 12) 4 (c.u32 (t + 8)) 200000),
   at_ (t + 16) (rangeAt c (t + 16) 2 100 10000), at_ (t + 18) (rangeAt c (t + 18) 1 0 (topQp k)),
   at_ (t + 19) (rangeAt c (t + 19) 1 (c.u8 (t + 18)) (topQp k)),
   at_ (t + 20) (failIf (decide (c.u16 (t + 20) < 8) || decide (256 < c.u16 (t + 20)) || decide (c.u16 (t + 20) % 2 ^ (l - 1) ≠ 0)) stRange (t + 20)),
   at_ (t + 22) (rangeAt c (t + 22) 1 1 100), at_ (t + 23) (rangeAt c (t + 23) 1 2 16), at_ (t + 24) (rangeAt c (t + 24) 2 256 9000),
   at_ (t + 26) (padAt c (t + 26) 6)]

/-- Fields of a record at b: `want` is the direction its place in the block fixes (R496); `trunk` marks a remote source. -/
def recFields (s : State) (c : Cmd) (b : Nat) (want : Option Bool) (trunk : Bool) : List Placed :=
  let out := recOut c b
  let k := recKind c b
  let video := !out && k == 1
  let form := c.u8 (b + 8)
  let d := recordAt c b
  [at_ b (failIf (decide (1 < c.u8 b) || (match want with
     | some w => w != out
     | none => false) || (trunk && out)) stRange b),
   at_ (b + 1) (failIf (if out then !(k == 0 || k == 2 || k == 3) else decide (2 < k) || (trunk && k != 1)) stRange (b + 1)),
   afterField (b + 1) 1 (notReadyAt s (out && k == 3) (b + 1)),
   at_ (b + 2) (rangeAt c (b + 2) 1 0 127), at_ (b + 3) (failIf (decide (127 < c.u8 (b + 3)) && decide (c.u8 (b + 3) ≠ 255)) stRange (b + 3)),
   at_ (b + 8) (failIf (if video then decide (2 < form) else decide (form ≠ 0)) stRange (b + 8))] ++
  ([0, 1, 2].map fun i => at_ (b + 9 + i) (failIf (decide (c.u8 (b + 9 + i) ≠ 255) && !(video && form == 2 && decide (c.u8 (b + 9 + i) < 3)))
     stRange (b + 9 + i))) ++
  (if video ∧ form = 1 then [] else
    [at_ (b + 12) (failIf (decide (c.hdl (b + 12) = 0)) stRange (b + 12)), at_ (b + 16) (failIf (decide (c.hdl (b + 16) ≠ 0)) stRange (b + 16)),
     at_ (b + 20) (failIf (decide (c.hdl (b + 20) ≠ 0)) stRange (b + 20))]) ++
  ([0, 1, 2].map fun i => at_ (b + 24 + 4 * i) (failIf (decide (c.hdl (b + 24 + 4 * i) ≠ 0) && decide (c.hdl (b + 12 + 4 * i) = 0))
     stRange (b + 24 + 4 * i))) ++
  ([0, 1, 2, 3, 4, 5].map fun i =>
    let x := c.u16 (b + 48 + 2 * i)
    at_ (b + 48 + 2 * i) (failIf (if video then decide (x ≠ 0) && (decide (x < 16) || decide (4096 < x)) else decide (x ≠ 0)) stRange (b + 48 + 2 * i))) ++
  [at_ (b + 60) (padAt c (b + 60) 4)] ++
  (match out, k with
    | _, 0 => audioFields s c (b + 64)
    | false, 1 => decodeFields c (b + 64) d.present
    | true, 3 => encodeFields s c (b + 64)
    | _, _ => [at_ (b + 64) (padAt c (b + 64) 32)])

/-- The note mapping of R51 is in error: the offset of the first field concerned. Of a note whose resolution does not rise, that is its width field, whatever
part of the size falls short (DESIGN CHOICE, log entry 162). -/
def noteFault (d : StreamRec) : Option Nat :=
  if d.kind ≠ 1 ∨ d.outbound then none else
  let p := d.present
  let base := if d.form = 2 then 9 else 12
  let step := if d.form = 2 then 1 else 4
  let keys := if d.form = 2 then d.layers else d.ssrcs.map (·.toNat)
  let dup := p.findSome? fun i => if (p.filter fun j => decide (j < i)).any (fun j => decide (keys.getD j 0 = keys.getD i 0)) then some (base + step * i) else none
  let size := [0, 1, 2].findSome? fun i =>
    let z := d.sizeOf i
    if p.contains i then (if z.1 = 0 then some (48 + 4 * i) else if z.2 = 0 then some (50 + 4 * i) else none)
    else if z.1 ≠ 0 then some (48 + 4 * i) else if z.2 ≠ 0 then some (50 + 4 * i) else none
  let rise := p.findSome? fun i =>
    let z := d.sizeOf i
    if (p.filter fun j => decide (j < i)).any (fun j =>
      let y := d.sizeOf j
      decide (z.1 < y.1) || decide (z.2 < y.2) || decide (z.1 * z.2 ≤ y.1 * y.2)) then some (48 + 4 * i) else none
  if ¬ p.contains 0 then some base else (dup.orElse fun _ => size).orElse fun _ => rise

/-- State checks of a record for a leg's conference: R51, and the layout of a composite (Table 09-2). -/
def recStates (s : State) (c : Cmd) (b : Nat) (conf : Option Nat) : List Check :=
  let d := recordAt c b
  [(noteFault d).map fun o => ⟨stState, BitVec.ofNat 32 (b + o)⟩,
   if recOut c b ∧ recKind c b = 3 then
     match blockLayout s c (b + 64) with
     | some l => stateFail (decide (some l.conf ≠ conf) || (l.tenBit && d.blk 0 1 != 4 && d.blk 0 1 != 5)) d.layout
     | none => none
   else none]

/-- Outbound slots and SSRCs that a record or slot record binds. -/
def recBinds (d : StreamRec) : List (Handle × Word) :=
  if d.outbound then [(d.slot, d.ssrcs.getD 0 0), (d.rtxSlot, d.rtx.getD 0 0), (d.fecSlot, d.fec)].filter fun p => decide (p.1 ≠ 0) else []

/-- A slot would serve a second outbound SSRC (R125). -/
def bindChecks (s : State) : List (Handle × Word) → List (Handle × Word) → List Check
  | _, [] => []
  | seen, (h, x) :: r =>
    let old := boundSsrcs s (hIndex h) ++ (seen.filter fun p => decide (p.1 = h)).map (·.2)
    stateFail (old.any fun y => y != x) h :: bindChecks s ((h, x) :: seen) r

/-! ### Creating and removing streams -/

/-- The encodings of a declared source: one per simulcast note, else one. -/
def encodingsOf (d : StreamRec) : List Encoding :=
  if d.kind = 0 then [{ ssrc := d.ssrcs.getD 0 0, note := 0 }]
  else if d.form = 1 then d.present.map fun i => { ssrc := d.ssrcs.getD i 0, note := i }
  else [{ ssrc := d.ssrcs.getD 0 0, note := 0 }]

/-- Streams of a leg of one direction and kind. -/
def kindCount (s : State) (l : Leg) (out : Bool) (k : Nat) : Nat :=
  if out then (l.outs.filter fun i => ((s.obj.outs.at? i).map fun o => decide (o.decl.kind = k)).getD false).length
  else (l.ins.filter fun i => ((s.obj.ins.at? i).map fun o => decide (o.decl.kind = k)).getD false).length

/-- Most streams of a kind (Table 02-7). -/
def kindMax (out : Bool) (k : Nat) : Nat :=
  if out then (if k = 2 then 2 else 1) else if k = 0 then 1 else if k = 1 then 3 else 4

/-- SSRC entries of an inbound declaration (R39). -/
def StreamRec.entries (d : StreamRec) : Nat := (d.allSsrcs.filter (· != 0)).length

/-- SSRC entries of the streams of an owner. -/
def entriesOf (s : State) (is : List Nat) : Nat := total (is.map fun i => ((s.obj.ins.at? i).map (·.decl.entries)).getD 0)

/-- SSRC entries in use on the device. -/
def allEntries (s : State) : Nat := total (s.obj.ins.live.map fun kv => kv.2.decl.entries)

/-- New streams of a leg find their entries, code by code in the order of Table 02-11 (R38, R39, R53, R287). -/
def roomFor (leg : Nat) (ds : List StreamRec) (s : State) : Except Nat Unit := do
  match s.obj.legs.at? leg with
  | none => .error 0x0006
  | some l =>
    let ins := ds.filter fun d => !d.outbound
    let outs := ds.filter (·.outbound)
    let entries := total (ins.map (·.entries))
    let kinds := fun (out : Bool) (l' : List StreamRec) => (List.range 4).all fun k =>
      let n := (l'.filter fun d => decide (d.kind = k)).length
      decide (n = 0) || decide (kindCount s l out k + n ≤ kindMax out k)
    let audio := fun (l' : List StreamRec) => (l'.filter fun d => decide (d.kind = 0)).length
    need (decide (entries = 0) || (decide (entriesOf s l.ins + entries ≤ 16) && decide (allEntries s + entries ≤ 131072))) 0x0005
    need (decide (l.ins.length + ins.length ≤ 8) && decide (l.outs.length + outs.length ≤ 4) && kinds false ins && kinds true outs &&
      decide (s.obj.ins.inUse + ins.length ≤ 65536) && decide (s.obj.outs.inUse + outs.length ≤ 32768)) 0x0006
    need (decide (audio ins = 0) || decide (tcount s.obj.ins.live (fun _ o => decide (o.decl.kind = 0)) + audio ins ≤ 8192)) 0x0007
    need (decide (audio outs = 0) || decide (tcount s.obj.outs.live (fun _ o => decide (o.decl.kind = 0)) + audio outs ≤ 8192)) 0x0008

/-- Create one stream of a leg that has room for it, without its path: its index comes first. -/
def makeStream (leg : Nat) (d : StreamRec) (s : State) : Except Nat (Nat × State) := do
  match s.obj.legs.at? leg with
  | none => .error 0x0006
  | some l =>
    if d.outbound then
      match s.obj.outs.next 32768 with
      | none => .error 0x0006
      | some i =>
        let comp : Option Comp := if d.kind = 3 then some
          { path := .compose, priv := none, stitcher := none, bridge := none, selfRate := none, lastKey := none, requests := 0, lastFir := none,
            ceiling := d.blk 2 1 - 1, ceilUp := none, bc := none, tiles := [], paramsOwed := false } else none
        let o : OutStream := { tenant := l.tenant, leg := leg, decl := d, route := none, comp := comp,
                               audio := if d.kind = 0 then some {} else none }
        let s := updLeg leg (fun l => { l with outs := l.outs ++ [i] }) (setOuts (·.alloc 32768 o) s)
        .ok (i, (recBinds d).foldl (fun s p => bindSsrc (hIndex p.1) p.2 s) s)
    else
      match s.obj.ins.next 65536 with
      | none => .error 0x0006
      | some i =>
        let x : InStream := { tenant := l.tenant, owner := leg, onTrunk := false, decl := d, route := none, encs := encodingsOf d, dec := none,
                              audio := if d.kind = 0 then some { depth := d.blk 8 2 } else none }
        let s := updLeg leg (fun l => { l with ins := l.ins ++ [i] }) (setIns (·.alloc 65536 x) s)
        .ok (i, if d.kind = 0 then reserveFor (objRef 4 i) [2] 0 s else s)

/-- Create one stream of a leg (R38, R39, R53, R187, R287), without its path. -/
def addStream (leg : Nat) (d : StreamRec) (s : State) : Except Nat (Nat × State) := do
  roomFor leg [d] s
  makeStream leg d s

/-- Decode contexts for streams of a composing conference, and the path of its composites (R187, R246). -/
def openPaths (ins outs : List Nat) (s : State) : Adm := do
  let s ← ins.foldlM (fun s i => fitDec i s) s
  outs.foldlM (fun s i => match (s.obj.outs.at? i).bind (·.comp) with
    | some _ => evalComp true i s
    | none => .ok s) s

/-- The tile streams that show a source lose it (R253). -/
def dropMembers (h : Handle) (s : State) : State :=
  s.obj.tilesets.live.foldl (fun s (t, ts) =>
    (indexed ts.members).foldl (fun s (j, m) =>
      if ¬ m.isRank ∧ m.source = h then
        match m.ctx with
        | some e => freeEnc e (updTileset t (fun x => { x with members := modAt x.members j fun m => { m with ctx := none } }) s)
        | none => s
      else s) s) s

/-- Forwarded slots that name a source are emptied (R49). -/
def dropSlots (h : Handle) (s : State) : State :=
  let clear := fun (f : FwdSlot) => if f.source = h then { f with source := 0, cur := -1, want := -1 } else f
  let s := setLegs (fun t => { t with live := tmap t.live fun _ l => { l with slots := l.slots.map clear } }) s
  setTrunks (fun t => { t with live := tmap t.live fun _ l => { l with slots := l.slots.map clear } }) s

/-- The number past the stream table under which mixes name a freed audio source. -/
def goneId (i : Nat) : Nat := 131072 + i

/-- An audio source, freed or not. -/
def soundAt (s : State) (i : Nat) : Option InStream :=
  if i < 131072 then s.obj.ins.at? i else (s.media.gone.find? fun g => decide (g.id = i)).map fun g => g.stream

/-- A mix that hears stream i hears it on as freed. -/
def AudioOut.lose (i : Nat) (a : AudioOut) : AudioOut :=
  let new := fun (j : Nat) => if j = i then goneId i else j
  { a with terms := a.terms.map fun m => { m with stream := new m.stream }
           seats := a.seats.map fun m => (new m.1, m.2) }

/-- A select that hears stream i hears it on as freed. -/
def MuxSelect.lose (i : Nat) (m : MuxSelect) : MuxSelect :=
  let new := fun (j : Option Nat) => if j = some i then some (goneId i) else j
  { m with stream := new m.stream, trace := m.trace.map fun x => (new x.1, x.2) }

/-- A freed audio stream goes on for the mixes of its conference that drop it through their crossfades (R49, R290). -/
def leaveMixes (i : Nat) (x : InStream) (s : State) : State :=
  let s := match confOfIn s x with
    | some c => if x.audio.isSome then
        { s with media := { s.media with gone := s.media.gone.filter (fun g => decide (g.id ≠ goneId i)) ++ [{ id := goneId i, conf := c, stream := x }] } }
      else s
    | none => s
  let rank := fun (c : Conf) => c.ranking.filter fun r => !(r.leg.isSome && decide (r.stream = i))
  let s := setConfs (fun t => { t with live := tmap t.live fun _ c => { c with ranking := rank c, selects := c.selects.map (MuxSelect.lose i) } }) s
  let s := { s with media := { s.media with fadeWait := s.media.fadeWait.map fun w => if w.1 = 0 ∧ w.2.2 = i then (0, w.2.1, goneId i) else w } }
  setOuts (fun t => { t with live := tmap t.live fun _ o => { o with audio := o.audio.map (AudioOut.lose i) } }) s

/-- Free an inbound stream and everything it reserves: decode context, queue, isolation, tile streams that show it (R53, R187, R253); forwarded
slots that name it become empty. -/
def freeIn (i : Nat) (s : State) : State :=
  match s.obj.ins.at? i with
  | none => s
  | some x =>
    let h := handleOf s tyIn i
    let s := dropSlots h (dropMembers h (releaseDec i s))
    let s := if x.decl.kind = 0 then releaseFor (objRef 4 i) 0 s else s
    let s := leaveMixes i x s
    let s := if x.onTrunk then updTrunk x.owner (fun t => { t with ins := t.ins.filter fun j => decide (j ≠ i) }) s
      else updLeg x.owner (fun l => { l with ins := l.ins.filter fun j => decide (j ≠ i) }) s
    setIns (·.free i) (dropObj h s)

/-- Free a leg's mix object (R287). -/
def freeMix (leg : Nat) (s : State) : State :=
  match (s.obj.legs.at? leg).bind (·.mix) with
  | none => s
  | some m => setMixes (·.free m) (dropObj (handleOf s tyMix m) (updLeg leg (fun l => { l with mix := none }) s))

/-- Free an outbound stream: its composite path, its mix (R53, R287). -/
def freeOut (i : Nat) (s : State) : State :=
  match s.obj.outs.at? i with
  | none => s
  | some o =>
    let h := handleOf s tyOut i
    let s := if o.comp.isSome then dropPriv i (leaveStitch i s) else s
    let s := if o.decl.kind = 0 then freeMix o.leg s else s
    let s := updLeg o.leg (fun l => { l with outs := l.outs.filter fun j => decide (j ≠ i) }) s
    setOuts (·.free i) (dropObj h s)

end Sys2Proof.Machine
end

