-- ==== Sys2Proof/Machine/Legs.lean ====
section
/-! DEFINITION. Legs, streams and forwarded slots: LEG_*, STREAM_*, SLOT_ASSIGN and the end of a drain (chapter 2). -/

namespace Sys2Proof.Machine

/-! ### Shared checks -/

/-- The leg that OBJECT names. -/
def legIdx (c : Cmd) : Nat := hIndex c.object

/-- ST_STATE for a leg in DRAINING (Table 02-9). -/
def legDraining (c : Cmd) (s : State) : Check :=
  stateFail (match s.obj.legs.at? (legIdx c) with
    | some l => l.state == .draining
    | none => false) c.object

/-- ST_STATE for a conference in CLOSING (R37). -/
def confClosing (s : State) (h : Handle) : Check :=
  stateFail (match s.obj.confs.at? (hIndex h) with
    | some k => k.closing
    | none => false) h

/-- Line rate of a logical port in kb/s (R91, Table 04-2). -/
def lineRate (s : State) (p : Nat) : Nat := if (physOf s (p / 2)).mode = 2 then 100000000 else 200000000

/-- The estimator before the first ESTIMATOR_SET (R153). -/
def newEstimator : Estimator :=
  { minimum := 64, maximum := none, start := 1000, flags := 1, target := 1000, overuseAt := none, feedbackAt := 0, halvedAt := none, since := 250,
    allowance := 0 }

/-- The shaper before the first SHAPER_SET, with a full burst (R170, R171). -/
def newShaper (now : Nat) : Shaper := { rate := none, burst := 65536, credit := 65536 * 8000000, last := now }

/-- The shaper of a leg or trunk. -/
def shaperOf (s : State) (trunk : Bool) (i : Nat) : Option Shaper :=
  if trunk then (s.obj.trunks.at? i).map (·.shaper) else (s.obj.legs.at? i).map (·.shaper)

def modShaper (trunk : Bool) (i : Nat) (f : Shaper → Shaper) : State → State :=
  if trunk then updTrunk i fun t => { t with shaper := f t.shaper } else updLeg i fun l => { l with shaper := f l.shaper }

/-- Line rate of the egress port of a leg or trunk, kb/s. -/
def ownerLine (s : State) (trunk : Bool) (i : Nat) : Nat := ((transportOf s trunk i).map fun t => lineRate s t.port.val).getD 0

/-- The shaper refilled at `rate` kb/s up to CORE time t, ns, and capped at its burst (R171). -/
def Shaper.refill (h : Shaper) (rate t : Nat) : Shaper :=
  let cap : Int := (h.burst * 8000000 : Nat)
  let c := h.credit + ((rate * (t - h.last) : Nat) : Int)
  { h with credit := if cap < c then cap else c, last := if h.last < t then t else h.last }

/-- The shaper of a leg or trunk as it stands now, in CORE time (R170, R171; log entry 147). -/
def shaperNow (s : State) (trunk : Bool) (i : Nat) : Option Shaper :=
  (shaperOf s trunk i).map fun h => h.refill (h.rate.getD (ownerLine s trunk i)) s.tim.c

/-- The shaper of a leg or trunk takes the credit that it has earned so far. -/
def refillShaper (trunk : Bool) (i : Nat) (s : State) : State :=
  match shaperNow s trunk i with
  | some h => modShaper trunk i (fun _ => h) s
  | none => s

/-! ### LEG_ATTACH (R496) -/

/-- Where the records of the block stand, from the start of the descriptor. -/
def attachRec (j : Nat) : Nat := 192 + 96 * j

def attachIns (c : Cmd) : Nat := c.u8 132
def attachOuts (c : Cmd) : Nat := c.u8 133
def attachSlots (c : Cmd) : Nat := c.u8 134
def attachStreams (c : Cmd) : Nat := attachIns c + attachOuts c

/-- Offset of slot record k. -/
def slotRec (c : Cmd) (k : Nat) : Nat := attachRec (attachStreams c) + 16 * k

/-- The slots that the block declares. -/
def slotsAt (c : Cmd) : List FwdSlot :=
  (List.range (attachSlots c)).map fun k =>
    let b := slotRec c k
    { ssrc := c.hdl b, slot := c.hdl (b + 4), rtxSsrc := c.hdl (b + 8), rtxSlot := c.hdl (b + 12) }

/-- Slots and SSRCs that the block binds, in ascending offset. -/
def attachBinds (c : Cmd) : List (Handle × Word) :=
  ((List.range (attachStreams c)).flatMap fun j => recBinds (recordAt c (attachRec j))) ++
  ((slotsAt c).flatMap fun f => ([(f.slot, f.ssrc), (f.rtxSlot, f.rtxSsrc)].filter fun p => decide (p.1 ≠ 0)))

/-- The leg that the block describes. -/
def attachLeg (c : Cmd) (s : State) : Leg :=
  let t := transportAt c 64
  { tenant := c.fn.val, conf := hIndex c.object, state := .pending, transport := t, meter := newMeter c 112 (logNs s), rtcpIn := c.hdl 136,
    rtcpOut := c.hdl 140, rtcpSsrc := c.hdl 144, ins := [], outs := [], slots := slotsAt c, est := newEstimator,
    shaper := newShaper s.tim.c, weight := ((tenantOf s c.fn.val).map (·.weight)).getD 10 }

/-- Make the declared streams in record order. -/
def makeStreams (leg : Nat) : List StreamRec → State → Except Nat (List Nat × State)
  | [], s => .ok ([], s)
  | d :: r, s => do
    let (i, s) ← makeStream leg d s
    let (is, s) ← makeStreams leg r s
    .ok (i :: is, s)

/-- Add the declared streams: each resource of Table 02-11 is checked for all of them before the next one (R53). -/
def addStreams (leg : Nat) (ds : List StreamRec) (s : State) : Except Nat (List Nat × State) := do
  roomFor leg ds s
  makeStreams leg ds s

/-- Every reservation of LEG_ATTACH in the order of Table 02-11: the leg, its streams in record order, and the new state. -/
def tryAttach (c : Cmd) (s : State) : Except Nat (Nat × List Nat × State) := do
  let conf := hIndex c.object
  let k := s.obj.confs.at? conf
  need (decide (s.obj.legs.inUse < 8192)) 0x0001
  need (match tenantOf s c.fn.val with
    | some t => decide (tcount s.obj.legs.live (fun _ l => decide (l.tenant = c.fn.val)) < t.legs)
    | none => true) 0x0002
  need (decide ((confLegs s conf).length < (k.map (·.legLimit)).getD 0)) 0x0003
  match s.obj.legs.next 8192 with
  | none => .error 0x0001
  | some i =>
    let s1 := reserveFor (objRef 3 i) [3] 1 (setLegs (·.alloc 8192 (attachLeg c s)) s)
    let s1 := (slotsAt c).foldl (fun s f =>
      let s := bindSsrc (hIndex f.slot) f.ssrc s
      if f.rtxSlot = 0 then s else bindSsrc (hIndex f.rtxSlot) f.rtxSsrc s) s1
    let (is, s1) ← addStreams i ((List.range (attachStreams c)).map fun j => recordAt c (attachRec j)) s1
    let s1 ← openPaths (is.take (attachIns c)) (is.drop (attachIns c)) s1
    need (peakFits s s1 c.fn.val) 0x000B
    let s1 ← settled [conf] s1
    .ok (i, is, s1)

/-- LEG_ATTACH; it waits while a task of an earlier leg with its index runs on (R48, R53, R496). -/
def ruleLegAttach : CmdRule where
  op := 0x0401
  logged := true
  plen := .block
  types := [tyConf]
  lengths c _ := [failIf (decide (c.plen.toNat < 128) || decide (c.plen.toNat ≠ 128 + 96 * attachStreams c + 16 * attachSlots c)) stLength 0]
  zeroFields c _ := policerZeros c 112 ++ [if attachStreams c = 0 then none else zeroAt c 160 4] ++
    (List.range (attachStreams c)).flatMap fun j => recZeros c (attachRec j)
  handles c s := [handleAt s c [tySlot] 136, handleAt s c [tySlot] 140] ++
    ((List.range (attachStreams c)).flatMap fun j => recHandles s c (attachRec j) false) ++
    ((List.range (attachSlots c)).flatMap fun k =>
      let b := slotRec c k
      [handleAt s c [tySlot] (b + 4), if c.hdl (b + 8) ≠ 0 then handleAt s c [tySlot] (b + 12) else none])
  fields c s := [firstPlaced (transportFields s c 64 ++ policerFields c 112 ++
    [at_ 132 (rangeAt c 132 1 0 8), at_ 133 (rangeAt c 133 1 0 4), at_ 134 (rangeAt c 134 1 0 32), at_ 135 (padAt c 135 1),
     at_ 144 (failIf (decide (c.hdl 144 = 0)) stRange 144), at_ 148 (padAt c 148 4), at_ 152 (alignAt c 152 8),
     at_ 160 (failIf (decide (c.u32 160 < 4 * attachStreams c)) stLength 160), at_ 164 (padAt c 164 28)] ++
    ((List.range (attachStreams c)).flatMap fun j => recFields s c (attachRec j) (some (decide (attachIns c ≤ j))) false) ++
    ((List.range (attachSlots c)).flatMap fun k =>
      let b := slotRec c k
      [at_ b (failIf (decide (c.hdl b = 0)) stRange b),
       at_ (b + 12) (failIf (decide (c.hdl (b + 8) = 0) && decide (c.hdl (b + 12) ≠ 0)) stRange (b + 12))]) ++
    repeatsFrom [] ((List.range (attachIns c)).flatMap fun j => recSsrcs c (attachRec j)) ++
    repeatsFrom [] ((144, c.hdl 144) :: ((List.range (attachOuts c)).flatMap fun j => recSsrcs c (attachRec (attachIns c + j))) ++
      ((List.range (attachSlots c)).flatMap fun k => [(slotRec c k, c.hdl (slotRec c k)), (slotRec c k + 8, c.hdl (slotRec c k + 8))])))]
  states c s := [confClosing s c.object] ++ transportStates s c 64 0 ++
    ((List.range (attachStreams c)).flatMap fun j => recStates s c (attachRec j) (some (hIndex c.object))) ++ bindChecks s [] (attachBinds c)
  resources c s := [noResource (inBlotter s && decide (1024 ≤ s.obj.legs.inUse)) 0x0001, Adm.check (tryAttach c s)]
  waits c s := match tryAttach c s with
    | .ok (i, _, _) => s.orgue.closing.any fun f => decide (tget s.orgue.owners f = some (objRef 3 i))
    | .error _ => false
  effect c s :=
    match tryAttach c s with
    | .ok (i, is, t) =>
      let hs := (indexed is).map fun (j, x) => handleOf t (if j < attachIns c then tyIn else tyOut) x
      ({ res := [handleOf t tyLeg i] }, if hs.isEmpty then t else output (c.u64 152) (dwBytes hs) t)
    | .error _ => ({}, s)

def execLegAttach (c : Cmd) (s : State) : Host.Outcome State Fault Refusal := issue ruleLegAttach c s

/-! ### LEG_ENABLE, LEG_HOLD, LEG_RESUME (R46, R47) -/

/-- The first slot, in the order of R47, that holds no key. -/
def emptyKey (s : State) (us : List SlotUse) : Option Handle :=
  (us.find? fun u => match slotAt s (hIndex u.slot) with
    | some k => k.key.isNone
    | none => true).map (·.slot)

/-- The first slot whose key does not suit its use (R125, R126). -/
def badKey (s : State) (us : List SlotUse) : Option Handle :=
  (us.find? fun u => match slotAt s (hIndex u.slot) with
    | some k => match k.key with
      | some x => misuse u k.outbound k.rtcp x.profile.toNat
      | none => false
    | none => false).map (·.slot)

/-- LEG_ENABLE (R47). -/
def ruleLegEnable : CmdRule where
  op := 0x0402
  logged := true
  types := [tyLeg]
  states c s :=
    match s.obj.legs.at? (legIdx c) with
    | none => []
    | some l => match l.state with
      | .active => []
      | .pending => [(emptyKey s (legUses s l)).map fun h => ⟨stKeyEmpty, h⟩, (badKey s (legUses s l)).map fun h => ⟨stState, h⟩]
      | _ => [some ⟨stState, c.object⟩]
  effect c s :=
    match s.obj.legs.at? (legIdx c) with
    | none => ({}, s)
    | some l =>
      if l.state = .active then ({ status := stNoop }, s)
      else ({}, updLeg (legIdx c) (fun l => { l with
        state := .active, shaper := { l.shaper with credit := l.shaper.burst * 8000000, last := s.tim.c },
        est := { l.est with target := l.est.start, decided := false, feedbackAt := s.media.tick } }) s)

def execLegEnable (c : Cmd) (s : State) : Host.Outcome State Fault Refusal := issue ruleLegEnable c s

/-- LEG_HOLD (R46). -/
def ruleLegHold : CmdRule where
  op := 0x0404
  logged := true
  types := [tyLeg]
  states c s := [stateFail (match s.obj.legs.at? (legIdx c) with
    | some l => l.state == .pending || l.state == .draining
    | none => false) c.object]
  effect c s :=
    match s.obj.legs.at? (legIdx c) with
    | none => ({}, s)
    | some l => if l.state = .held then ({ status := stNoop }, s) else ({}, updLeg (legIdx c) (fun l => { l with state := .held }) s)

def execLegHold (c : Cmd) (s : State) : Host.Outcome State Fault Refusal := issue ruleLegHold c s

/-- LEG_RESUME (R46, R171). -/
def ruleLegResume : CmdRule where
  op := 0x0405
  logged := true
  types := [tyLeg]
  states c s := [stateFail (match s.obj.legs.at? (legIdx c) with
    | some l => l.state == .pending || l.state == .draining
    | none => false) c.object]
  effect c s :=
    match s.obj.legs.at? (legIdx c) with
    | none => ({}, s)
    | some l =>
      if l.state = .active then ({ status := stNoop }, s)
      else ({}, updLeg (legIdx c) (fun l => { l with
        state := .active, shaper := { l.shaper with credit := l.shaper.burst * 8000000, last := s.tim.c } }) s)

def execLegResume (c : Cmd) (s : State) : Host.Outcome State Fault Refusal := issue ruleLegResume c s

/-! ### LEG_MODIFY (R498) -/

/-- The parts that LEG_MODIFY selects, and whether they equal the current values. -/
def modifySame (c : Cmd) (l : Leg) : Bool :=
  let m := c.u32 132
  let n := newMeter c 112 0
  (!bit m 0 || decide (transportAt c 64 = l.transport)) &&
  (!bit m 1 || (decide (n.tr = l.meter.tr) && decide (n.aware = l.meter.aware) && decide (n.cir = l.meter.cir) && decide (n.cbs = l.meter.cbs) &&
    decide (n.pir = l.meter.pir) && decide (n.pbs = l.meter.pbs)))

/-- The leg as LEG_MODIFY leaves it. -/
def modifyLeg (c : Cmd) (s : State) : State :=
  let m := c.u32 132
  let s := if bit m 0 then refillShaper false (legIdx c) s else s
  updLeg (legIdx c) (fun l => { l with
    transport := if bit m 0 then transportAt c 64 else l.transport
    meter := if bit m 1 then changeMeter c 112 l.meter else l.meter }) s

def ruleLegModify : CmdRule where
  op := 0x0403
  logged := true
  plen := .ext 72
  types := [tyLeg]
  zeroFields c _ := if bit (c.u32 132) 1 then policerZeros c 112 else []
  fields c s :=
    let m := c.u32 132
    [firstPlaced ((if bit m 0 then transportFields s c 64 else []) ++ (if bit m 1 then policerFields c 112 else []) ++
      [at_ 132 (reservedAt c 132 4 2)])]
  states c s := legDraining c s :: (if bit (c.u32 132) 0 then transportStates s c 64 c.object else [])
  resources c s := [noResource (!peakFits s (modifyLeg c s) c.fn.val) 0x000B]
  effect c s :=
    match s.obj.legs.at? (legIdx c) with
    | none => ({}, s)
    | some l => if modifySame c l then ({ status := stNoop }, s) else ({}, modifyLeg c s)

def execLegModify (c : Cmd) (s : State) : Host.Outcome State Fault Refusal := issue ruleLegModify c s

/-! ### Leaving a conference (R48-R50) -/

/-- Outbound SSRCs of a leg with their slots. -/
def outSsrcs (s : State) (l : Leg) : List Word :=
  ((l.outs.flatMap fun i => match s.obj.outs.at? i with
    | some o => [o.decl.ssrcs.getD 0 0, o.decl.rtx.getD 0 0, o.decl.fec]
    | none => []) ++ (l.slots.flatMap fun f => [f.ssrc, f.rtxSsrc])).filter (· != 0)

/-- The leg leaves every layout, mix, tile set and forwarded slot of its conference, and the ranking (R49, R287). -/
def leaveConf (leg : Nat) (s : State) : State :=
  match s.obj.legs.at? leg with
  | none => s
  | some l =>
    let s := l.ins.foldl (fun s i => let h := handleOf s tyIn i; dropSlots h (dropMembers h s)) s
    let s := updConf l.conf (fun k => { k with ranking := k.ranking.filter fun r => decide (r.leg ≠ some leg) }) s
    freeMix leg s

/-- Detach a leg (R48, R49): with `bye`, one RTCP BYE per outbound SSRC from a leg in ACTIVE or HELD. -/
def detachLeg (leg : Nat) (bye : Bool) (s : State) : State :=
  match s.obj.legs.at? leg with
  | none => s
  | some l =>
    if l.state = .draining then s else
    let s := if bye ∧ (l.state = .active ∨ l.state = .held) then
        (outSsrcs s l).foldl (fun s x => sendRtcp leg (rtcpBye x) s) s else s
    let s := leaveConf leg s
    updLeg leg (fun l => { l with state := .draining, drainTicks := 0 }) s

/-- LEG_DETACH (R46, R48). -/
def ruleLegDetach : CmdRule where
  op := 0x0407
  logged := true
  plen := .fixed 4
  types := [tyLeg]
  fields c _ := [reservedAt c 16 4 1]
  states c s := [legDraining c s]
  effect c s := ({}, detachLeg (legIdx c) (bit (c.u32 16) 0) s)

def execLegDetach (c : Cmd) (s : State) : Host.Outcome State Fault Refusal := issue ruleLegDetach c s

/-- Move a leg: it leaves the old conference as for detach and joins the new one (R50, R187). -/
def moveLeg (leg conf : Nat) (s : State) : Adm := do
  match s.obj.legs.at? leg with
  | none => .ok s
  | some l =>
    let s := updLeg leg (fun l => { l with conf := conf }) (leaveConf leg s)
    let s ← l.ins.foldlM (fun s i => fitDec i s) s
    let s ← l.outs.foldlM (fun s i => evalComp false i s) s
    settled [l.conf, conf] s

/-- LEG_MOVE (R50); a move to the leg's own conference changes nothing (DESIGN CHOICE, log entry 29). -/
def ruleLegMove : CmdRule where
  op := 0x0406
  logged := true
  plen := .fixed 4
  types := [tyLeg]
  handles c s := [handleAt s c [tyConf] 16]
  states c s :=
    [stateFail (match s.obj.legs.at? (legIdx c) with
      | some l => !(l.state == .active || l.state == .held)
      | none => false) c.object, confClosing s (c.hdl 16)]
  resources c s :=
    let conf := hIndex (c.hdl 16)
    if ((s.obj.legs.at? (legIdx c)).map (·.conf)) = some conf then [] else
    [noResource (decide (((s.obj.confs.at? conf).map (·.legLimit)).getD 0 ≤ (confLegs s conf).length)) 0x0003,
     Adm.check (moveLeg (legIdx c) conf s)]
  effect c s :=
    let conf := hIndex (c.hdl 16)
    if ((s.obj.legs.at? (legIdx c)).map (·.conf)) = some conf then ({ status := stNoop }, s)
    else match moveLeg (legIdx c) conf s with
      | .ok t => ({}, t)
      | .error _ => ({}, s)

def execLegMove (c : Cmd) (s : State) : Host.Outcome State Fault Refusal := issue ruleLegMove c s

/-! ### LEG_QUERY -/

def ruleLegQuery : CmdRule := queryRule 0x0408 [tyLeg] false

def execLegQuery (c : Cmd) (s : State) : Host.Outcome State Fault Refusal := issue ruleLegQuery c s

/-! ### Layouts, tile sets and conferences as they end (R37) -/

/-- A layout refers to its base entry no longer; an entry that no layout refers to is freed (R235). -/
def unlinkBase (i : Nat) (s : State) : State :=
  let bs := s.video.bases.map fun b => { b with users := b.users.filter fun u => decide (u ≠ i) }
  { s with video := { s.video with bases := bs.filter fun b => !b.users.isEmpty } }

/-- Free a layout. -/
def freeLayout (i : Nat) (s : State) : State :=
  releaseFor (objRef 6 i) 1 (setLayouts (·.free i) (dropObj (handleOf s tyLayout i) (unlinkBase i s)))

/-- Free a tile set with its contexts. -/
def freeTileset (i : Nat) (s : State) : State :=
  match s.obj.tilesets.at? i with
  | none => s
  | some t =>
    let s := t.members.foldl (fun s m => match m.ctx with
      | some e => freeEnc e s
      | none => s) s
    let s := t.bridges.foldl (fun s b => freeEnc b.ctx s) s
    releaseFor (objRef 8 i) 1 (setTilesets (·.free i) (dropObj (handleOf s tyTileset i) s))

/-- A composite stream names the layout (R215). -/
def layoutNamed (s : State) (i : Nat) : Bool :=
  s.obj.outs.live.any fun (_, o) => o.comp.isSome && decide (o.decl.layout = handleOf s tyLayout i)

/-- A stitched composite uses a stream of the tile set, or one of its bridges is held (R266). -/
def tilesetUsed (s : State) (i : Nat) : Bool :=
  (s.obj.outs.live.any fun (_, o) => match o.comp with
    | some c => c.tiles.any fun t => match t with
      | some (n, _) => decide (n = i)
      | none => false
    | none => false) ||
  ((s.obj.tilesets.at? i).map fun t => t.bridges.any fun b => b.holder.isSome).getD false

/-- A conference uses an image or still crossfades from it. -/
def imageUsed (s : State) (h : Handle) : Bool :=
  s.obj.confs.live.any fun (_, k) => decide (k.image = h) || (k.swapping && decide (k.oldImage = h))

/-- An image is unloaded. -/
def unloadImage (i : Nat) (s : State) : State := setImages (·.free i) (dropObj (handleOf s tyImage i) s)

/-- The images that go as soon as no conference uses them (R461). -/
def dropLeaving (s : State) : State :=
  (tfilter s.obj.images.live fun i k => k.leaving && !imageUsed s (handleOf s tyImage i)).foldl (fun s (i, _) => unloadImage i s) s

/-- In a CLOSING conference, layouts and tile sets go once no leg refers to them, and the conference with its last leg (R36, R37). -/
def sweepConf (conf : Nat) (s : State) : State :=
  match s.obj.confs.at? conf with
  | none => s
  | some k =>
    if ¬ k.closing then s else
    let s := (tfilter s.obj.layouts.live fun i l => decide (l.conf = conf) && !layoutNamed s i).foldl (fun s (i, _) => freeLayout i s) s
    let s := (tfilter s.obj.tilesets.live fun i t => decide (t.conf = conf) && !tilesetUsed s i).foldl (fun s (i, _) => freeTileset i s) s
    if s.obj.legs.live.any fun (_, l) => decide (l.conf = conf) then s
    else
      let h := handleOf s tyConf conf
      let s := dropLeaving (releaseFor (objRef 2 conf) 1 (setConfs (·.free conf) (dropObj h s)))
      let s := match fitRemotes (some k.tenant) s with
        | .ok t => t
        | .error _ => s
      postEvent k.tenant evConfClosed h 0 0 0 s

/-! ### The end of a drain (R48) -/

/-- A packet that its port has finished with (R431): the watermark of the port notes its number. -/
def consumed (p : EgPkt) (s : State) : State :=
  modPort p.port.val (fun x => { x with consumed := tput x.consumed p.streamId (if tgetD x.consumed p.streamId 0 < p.number then p.number
    else tgetD x.consumed p.streamId 0) }) s

/-- Encrypt and discard every packet of a leg that waits in Sillage; how many (R48). -/
def discardLeg (leg : Nat) (s : State) : Nat × State :=
  let mine := (s.media.outQ ++ s.media.egress).filter fun p => !p.onTrunk && decide (p.owner = leg)
  let s := mine.foldl (fun s p => consumed p (sealNow p s).2) s
  let keep := fun (p : EgPkt) => !(!p.onTrunk && decide (p.owner = leg))
  (mine.length, { s with media := { s.media with outQ := s.media.outQ.filter keep, egress := s.media.egress.filter keep } })

/-- End a leg's drain: its packets are discarded, its streams, slots and index return, EV_LEG_FREED is posted (R48). -/
def endDrain (leg : Nat) (s : State) : State :=
  match s.obj.legs.at? leg with
  | none => s
  | some l =>
    if l.state ≠ .draining ∨ l.drainTicks < 2 then s else
    let (n, s) := discardLeg leg s
    let s := count l.tenant (slgCtr l.tenant 0x34) n s
    let h := handleOf s tyLeg leg
    let s := l.outs.foldl (fun s i => freeOut i s) s
    let s := l.ins.foldl (fun s i => freeIn i s) s
    let s := releaseFor (objRef 3 leg) 1 (setLegs (·.free leg) (dropObj h s))
    let s := if (s.obj.confs.at? l.conf).isSome then syncAudioQueues l.conf s else s
    sweepConf l.conf (postEvent l.tenant evLegFreed h n 0 0 s)

/-- LEG_DRAIN_END: the second audio tick after the detach (R48). -/
def execLegDrainEnd (leg : Nat) (s : State) : Host.Outcome State Fault Refusal := done s (endDrain leg s)

/-! ### Streams -/

/-- The leg a stream belongs to is in DRAINING: no command but LEG_QUERY (Table 02-9). -/
def streamDraining (c : Cmd) (s : State) : Check :=
  stateFail (if hType c.object = tyIn then
      match s.obj.ins.at? (hIndex c.object) with
      | some x => !x.onTrunk && (match s.obj.legs.at? x.owner with
        | some l => l.state == .draining
        | none => false)
      | none => false
    else match (s.obj.outs.at? (hIndex c.object)).bind fun o => s.obj.legs.at? o.leg with
      | some l => l.state == .draining
      | none => false) c.object

/-- SSRCs that a leg or trunk holds in a direction, without those of one stream (R497). -/
def heldSsrcs (s : State) (owner : Nat) (trunk out : Bool) (but : Option Nat) : List Word :=
  if trunk then s.obj.ins.live.flatMap fun (i, x) => if x.onTrunk ∧ x.owner = owner ∧ but ≠ some i then x.decl.allSsrcs else []
  else match s.obj.legs.at? owner with
    | none => []
    | some l =>
      if out then l.rtcpSsrc :: ((l.outs.flatMap fun i => if but = some i then [] else match s.obj.outs.at? i with
        | some o => o.decl.allSsrcs
        | none => []) ++ l.slots.flatMap fun f => [f.ssrc, f.rtxSsrc])
      else l.ins.flatMap fun i => if but = some i then [] else match s.obj.ins.at? i with
        | some x => x.decl.allSsrcs
        | none => []

/-- Add a remote source to a trunk, with a decode context while a conference that may show it composes (R180, R187). -/
def addRemote (trunk : Nat) (d : StreamRec) (s : State) : Except Nat (Nat × State) := do
  match s.obj.trunks.at? trunk, s.obj.ins.next 65536 with
  | some t, some i =>
    need (decide (allEntries s + d.entries ≤ 131072)) 0x0005
    let x : InStream := { tenant := t.tenant, owner := trunk, onTrunk := true, decl := d, route := none, encs := encodingsOf d, dec := none,
                          audio := none }
    let s ← fitDec i (updTrunk trunk (fun t => { t with ins := t.ins ++ [i] }) (setIns (·.alloc 65536 x) s))
    .ok (i, s)
  | _, _ => .error 0x0006

/-- Every reservation of STREAM_ADD. -/
def tryAdd (c : Cmd) (s : State) : Except Nat (Nat × State) := do
  let d := recordAt c 64
  if hType c.object = tyTrunk then addRemote (hIndex c.object) d s
  else
    let leg := hIndex c.object
    let conf := ((s.obj.legs.at? leg).map (·.conf)).getD 0
    let (i, s) ← addStream leg d s
    let s ← openPaths (if d.outbound then [] else [i]) (if d.outbound then [i] else []) s
    let s ← settled [conf] s
    .ok (i, s)

/-- STREAM_ADD (R497). -/
def ruleStreamAdd : CmdRule where
  op := 0x0501
  logged := true
  plen := .ext 96
  types := [tyLeg, tyTrunk]
  zeroFields c _ := recZeros c 64
  handles c s := recHandles s c 64 (hType c.object == tyTrunk)
  fields c s :=
    let trunk := hType c.object == tyTrunk
    [firstPlaced (recFields s c 64 none trunk ++ repeatsFrom (heldSsrcs s (hIndex c.object) trunk (recOut c 64) none) (recSsrcs c 64))]
  states c s :=
    let trunk := hType c.object == tyTrunk
    (if trunk then none else legDraining c s) ::
      (recStates s c 64 (if trunk then none else (s.obj.legs.at? (hIndex c.object)).map (·.conf)) ++ bindChecks s [] (recBinds (recordAt c 64)))
  resources c s := [Adm.check (tryAdd c s)]
  effect c s :=
    match tryAdd c s with
    | .ok (i, t) => ({ res := [handleOf t (if recOut c 64 then tyOut else tyIn) i] }, t)
    | .error _ => ({}, s)

def execStreamAdd (c : Cmd) (s : State) : Host.Outcome State Fault Refusal := issue ruleStreamAdd c s

/-- The conference of the leg that holds a stream. -/
def streamConf (s : State) (h : Handle) : Option Nat :=
  if hType h = tyIn then (s.obj.ins.at? (hIndex h)).bind (confOfIn s)
  else ((s.obj.outs.at? (hIndex h)).bind fun o => s.obj.legs.at? o.leg).map (·.conf)

/-- STREAM_REMOVE (R85, R53): the stream goes and its reservations return. -/
def ruleStreamRemove : CmdRule where
  op := 0x0502
  logged := true
  types := [tyIn, tyOut]
  states c s := [streamDraining c s]
  effect c s :=
    let conf := streamConf s c.object
    let s := if hType c.object = tyIn then freeIn (hIndex c.object) s else freeOut (hIndex c.object) s
    ({}, match conf with
      | some k => syncAudioQueues k s
      | none => s)

def execStreamRemove (c : Cmd) (s : State) : Host.Outcome State Fault Refusal := issue ruleStreamRemove c s

/-- A replaced record of an inbound stream: encodings whose SSRC stays keep their state; a changed decode block is admitted anew (R187). More SSRC
entries than before need room of their own (R39). -/
def modifyIn (i : Nat) (d : StreamRec) (s : State) : Adm := do
  match s.obj.ins.at? i with
  | none => .ok s
  | some x =>
    need (decide (d.entries ≤ x.decl.entries) || (decide (allEntries s + d.entries ≤ 131072 + x.decl.entries) &&
      (x.onTrunk || decide (entriesOf s (((s.obj.legs.at? x.owner).map (·.ins)).getD []) + d.entries ≤ 16 + x.decl.entries)))) 0x0005
    let encs := (encodingsOf d).map fun e => match x.encs.find? fun o => o.ssrc == e.ssrc with
      | some o => { o with note := e.note }
      | none => e
    let s ← resizeDec i d (updIn i (fun x => { x with decl := d, encs := encs }) s)
    .ok (placeSource i s)

/-- A replaced record of an outbound stream: a changed SSRC restarts its slot's index, and what waits keeps the
old one (R128), a changed encode block is admitted again (R245). -/
def modifyOut (i : Nat) (d : StreamRec) (s : State) : Adm := do
  let moved := (recBinds d).filter fun p => ((slotAt s (hIndex p.1)).map fun k => decide (k.ssrc ≠ some p.2)).getD false
  let s := moved.foldl (fun s p => sealWaiting (hIndex p.1) s) s
  let s := updOut i (fun o => { o with decl := d }) s
  let s := (recBinds d).foldl (fun s p => bindSsrc (hIndex p.1) p.2 s) s
  evalComp false i s

/-- Every reservation of STREAM_MODIFY. -/
def tryModify (c : Cmd) (s : State) : Adm := do
  let d := recordAt c 64
  let i := hIndex c.object
  let s ← if hType c.object = tyIn then modifyIn i d s else modifyOut i d s
  settled ((streamConf s c.object).toList) s

/-- The device without the bindings of an outbound stream, against which a record that replaces its own is checked (R125, R128). -/
def unbound (i : Nat) : State → State := updOut i fun o => { o with decl := { o.decl with slot := 0, rtxSlot := 0, fecSlot := 0 } }

/-- STREAM_MODIFY (R498). -/
def ruleStreamModify : CmdRule where
  op := 0x0503
  logged := true
  plen := .ext 96
  types := [tyIn, tyOut]
  zeroFields c _ := recZeros c 64
  handles c s := recHandles s c 64 (match s.obj.ins.at? (hIndex c.object) with
    | some x => decide (hType c.object = tyIn) && x.onTrunk
    | none => false)
  fields c s :=
    let i := hIndex c.object
    let isIn := hType c.object == tyIn
    let trunk := isIn && ((s.obj.ins.at? i).map (·.onTrunk)).getD false
    let owner := if isIn then ((s.obj.ins.at? i).map (·.owner)).getD 0 else ((s.obj.outs.at? i).map (·.leg)).getD 0
    [firstPlaced (recFields s c 64 none trunk ++ repeatsFrom (heldSsrcs s owner trunk (!isIn) (some i)) (recSsrcs c 64))]
  states c s :=
    let d := if hType c.object = tyIn then (s.obj.ins.at? (hIndex c.object)).map (·.decl) else (s.obj.outs.at? (hIndex c.object)).map (·.decl)
    [streamDraining c s, stateFail (match d with
      | some d => d.outbound != recOut c 64 || decide (d.kind ≠ recKind c 64)
      | none => false) c.object] ++ recStates s c 64 (streamConf s c.object) ++ bindChecks (if hType c.object = tyOut then unbound (hIndex c.object) s else s) [] (recBinds (recordAt c 64))
  resources c s := [Adm.check (tryModify c s)]
  effect c s :=
    match tryModify c s with
    | .ok t => ({}, t)
    | .error _ => ({}, s)

def execStreamModify (c : Cmd) (s : State) : Host.Outcome State Fault Refusal := issue ruleStreamModify c s

/-- STREAM_ROUTE (R499). -/
def ruleStreamRoute : CmdRule where
  op := 0x0504
  logged := true
  plen := .fixed 8
  types := [tyIn, tyOut]
  fields c _ :=
    let r := c.u16 16
    [failIf (decide (r ≠ 0) && (decide (r < 64) || decide (16383 < r))) stRange 16, padAt c 18 2,
     failIf (decide (1 < c.u32 20) || (decide (c.u32 20 = 1) && decide (hType c.object = tyOut))) stRange 20]
  states c s := [streamDraining c s, failIf (!followsLog s && decide (c.u16 16 ≠ 0) && !isExtraction s c.fn.val (c.u16 16)) stState 16]
  effect c s :=
    let r := if c.u16 16 = 0 then none else some (c.u16 16, decide (c.u32 20 = 1))
    ({}, if hType c.object = tyIn then updIn (hIndex c.object) (fun x => { x with route := r }) s
      else updOut (hIndex c.object) (fun x => { x with route := r }) s)

def execStreamRoute (c : Cmd) (s : State) : Host.Outcome State Fault Refusal := issue ruleStreamRoute c s

/-- A key request on a composite (R251, R264): a request waits for the next allowed picture; a stitched leg without a bridge asks for one. -/
def requestComposite (i : Nat) (s : State) : State :=
  match (s.obj.outs.at? i).bind (·.comp) with
  | none => s
  | some c =>
    let s := countObj 0x0502 (outHandle s i) 2 1 (updComp i (fun c => { c with requests := c.requests + 1 }) s)
    if c.stitcher.isSome then askBridge i s else s

/-- STREAM_KEYPIC (R251); a stream that is not composite video has no key picture (DEDUCED, log entry 30). -/
def ruleStreamKeypic : CmdRule where
  op := 0x0505
  logged := true
  types := [tyOut]
  states c s := [streamDraining c s, stateFail ((s.obj.outs.at? (hIndex c.object)).bind (·.comp)).isNone c.object]
  effect c s := ({}, requestComposite (hIndex c.object) s)

def execStreamKeypic (c : Cmd) (s : State) : Host.Outcome State Fault Refusal := issue ruleStreamKeypic c s

/-- A leg in DRAINING, a stream of one, or a conference in CLOSING: no command but a query of it may name it (Table 02-9, R37). -/
def handleGoing (s : State) (h : Handle) : Bool :=
  let draining := fun (i : Nat) => ((s.obj.legs.at? i).map fun l => l.state == .draining).getD false
  let i := hIndex h
  if hType h = tyLeg then draining i
  else if hType h = tyIn then ((s.obj.ins.at? i).map fun x => !x.onTrunk && draining x.owner).getD false
  else if hType h = tyOut then ((s.obj.outs.at? i).map fun o => draining o.leg).getD false
  else if hType h = tyConf then ((s.obj.confs.at? i).map fun k => k.closing).getD false
  else false

/-- SLOT_ASSIGN (R496): a source for a forwarded slot, or 0 to empty it. A source that is not video has no notes to forward
(DEDUCED, log entry 30). -/
def ruleSlotAssign : CmdRule where
  op := 0x0506
  logged := true
  plen := .fixed 8
  types := [tyLeg]
  handles c s := [handleOrZeroAt s c [tyIn] 20]
  fields c s := [failIf (decide (((s.obj.legs.at? (legIdx c)).map (·.slots.length)).getD 0 ≤ c.u8 16)) stRange 16, padAt c 17 3]
  states c s := [legDraining c s, stateFail (match s.obj.ins.at? (hIndex (c.hdl 20)) with
    | some x => decide (c.hdl 20 ≠ 0) && (decide (x.decl.kind ≠ 1) || handleGoing s (c.hdl 20))
    | none => false) (c.hdl 20)]
  effect c s :=
    let put := fun (f : FwdSlot) => if f.source = c.hdl 20 then f else { f with source := c.hdl 20, cur := -1, want := -1, askedAt := none }
    ({}, updLeg (legIdx c) (fun l => { l with slots := modAt l.slots (c.u8 16) put }) s)

def execSlotAssign (c : Cmd) (s : State) : Host.Outcome State Fault Refusal := issue ruleSlotAssign c s

end Sys2Proof.Machine
end

