-- ==== Sys2Proof/Machine/Graphs.lean ====
section
/-! DEFINITION. Accord images: their header, node and edge records, the checks of GRAPH_LOAD, and swaps (R294-R297, R330). -/

namespace Sys2Proof.Machine

/-! ### Records of an image (R295, Table 10-6) -/

/-- A node record. -/
structure GNode where
  id : Nat
  ty : Nat
  sec : Nat
  poff : Nat
  plen : Nat
  delay : Nat
  ins : Nat
  outs : Nat
  deriving DecidableEq, Repr

/-- An edge record. -/
structure GEdge where
  id : Nat
  src : Nat
  sport : Nat
  dst : Nat
  dport : Nat
  deriving DecidableEq, Repr

def imgConfN (b : List Byte) : Nat := leAt b 12 2
def imgInN (b : List Byte) : Nat := leAt b 14 2
def imgLisN (b : List Byte) : Nat := leAt b 16 2
def imgNodeN (b : List Byte) : Nat := imgConfN b + imgInN b + imgLisN b
def imgEdgeN (b : List Byte) : Nat := leAt b 18 2
def imgCode (b : List Byte) : Nat := leAt b 20 4
def imgTables (b : List Byte) : Nat := leAt b 24 4

/-- Where the node records, edge records, parameters and code begin. -/
def nodeAt (i : Nat) : Nat := 64 + 16 * i
def edgeAt (b : List Byte) (i : Nat) : Nat := nodeAt (imgNodeN b) + 8 * i
def paramsAt (b : List Byte) : Nat := edgeAt b (imgEdgeN b)
def codeAt (b : List Byte) : Nat := leAt b 8 4 - imgTables b - imgCode b

def gnode (b : List Byte) (i : Nat) : GNode :=
  let o := nodeAt i
  { id := leAt b o 2, ty := leAt b (o + 2) 1, sec := leAt b (o + 3) 1, poff := leAt b (o + 4) 4, plen := leAt b (o + 8) 2,
    delay := leAt b (o + 10) 2, ins := leAt b (o + 12) 1, outs := leAt b (o + 13) 1 }

def gedge (b : List Byte) (i : Nat) : GEdge :=
  let o := edgeAt b i
  { id := leAt b o 2, src := leAt b (o + 2) 2, sport := leAt b (o + 4) 1, dst := leAt b (o + 5) 2, dport := leAt b (o + 7) 1 }

def gnodes (b : List Byte) : List GNode := (List.range (imgNodeN b)).map (gnode b)
def gedges (b : List Byte) : List GEdge := (List.range (imgEdgeN b)).map (gedge b)

/-- A parameter word of a node. -/
def GNode.param (b : List Byte) (n : GNode) (i : Nat) : Nat := leAt b (paramsAt b + n.poff + 4 * i) 4

/-- A parameter as a signed word. -/
def GNode.paramI (b : List Byte) (n : GNode) (i : Nat) : Int := sext 32 (n.param b i)

/-- Node types of Table 10-7. -/
def nodeDefined (ty : Nat) : Bool := (decide (1 ≤ ty) && decide (ty ≤ 0x0C)) || decide (0x80 ≤ ty)
def isCustom (ty : Nat) : Bool := decide (0x80 ≤ ty)

/-- The section that a node record's place gives it: conference, input chain, listener chain (DEDUCED, log entry 34). -/
def sectionOf (b : List Byte) (i : Nat) : Nat := if i < imgConfN b then 0 else if i < imgConfN b + imgInN b then 1 else 2

/-- Sections in which a type may stand (Table 10-7). -/
def sectionOk (ty sec : Nat) : Bool :=
  match ty with
  | 0x01 => sec == 1
  | 0x02 => sec == 0
  | 0x07 => sec == 0
  | 0x0A => sec == 2
  | _ => sec < 3

/-- The settings of an OUT node are in the ranges of Table 10-9: 16-bit fields in its order (DEDUCED, log entry 35). -/
def outOk (b : List Byte) (n : GNode) : Bool :=
  let f := fun (i : Nat) => leAt b (paramsAt b + n.poff + 2 * i) 2
  let inRange := fun (i : Nat) (lo hi : Int) => decide (lo ≤ sext 16 (f i)) && decide (sext 16 (f i) ≤ hi)
  inRange 0 (-600) 0 && (decide (f 1 = 0) || inRange 1 10 200) && inRange 2 0 240 && inRange 3 1 1000 && inRange 4 5 2000 && inRange 5 0 1 &&
  inRange 6 (-200) 0

/-- Words of parameters that a library node reads, and the range of the first where the table bounds it. Their place is DEDUCED: 32-bit
words in the order of Table 10-7 (log entry 34). -/
def paramOk (b : List Byte) (n : GNode) : Bool :=
  match n.ty with
  | 0x02 => decide (4 ≤ n.plen) && decide (n.param b 0 ≤ 63)
  | 0x03 => decide (4 ≤ n.plen)
  | 0x04 => decide (2 ≤ n.ins) && decide (n.ins ≤ 64) && decide (4 * n.ins ≤ n.plen)
  | 0x05 => decide (20 ≤ n.plen)
  | 0x06 => decide (4 ≤ n.plen) && decide (n.param b 0 ≤ 4800)
  | 0x07 => decide (4 ≤ n.plen) && decide (n.param b 0 ≤ 63)
  | 0x08 => decide (4 ≤ n.plen) && decide (n.param b 0 ≤ 63)
  | 0x09 => decide (4 ≤ n.plen) && decide (n.param b 0 ≤ 15)
  | 0x0B => decide (14 ≤ n.plen) && outOk b n
  | _ => true

/-! ### Checks of GRAPH_LOAD (R295, R330): the offset in the image of the first failure -/

/-- Header fields in ascending offset. -/
def headerFault (b : List Byte) : Option Nat :=
  let checks : List (Nat × Bool) :=
    [(0, decide (leAt b 0 4 = 0x44524341)), (4, decide (leAt b 4 2 = 1)), (6, decide (leAt b 6 2 < 2)),
     (12, decide (imgConfN b ≤ 1024)), (14, decide (imgInN b ≤ 64)), (16, decide (imgLisN b ≤ 64)), (18, decide (imgEdgeN b ≤ 8192)),
     (20, decide (imgCode b % 4 = 0)), (24, decide (imgTables b % 4 = 0)), (28, decide (leAt b 28 4 ≤ 1400000)),
     (32, decide (leAt b 32 4 ≤ 50000)), (36, decide (leAt b 36 4 ≤ 50000)), (40, decide (leAt b 40 4 ≤ 16384)),
     (44, decide (leAt b 44 4 ≤ 16384)), (52, zeros (slice b 52 12))]
  (checks.find? fun c => !c.2).map (·.1)

/-- The parts of the image fit its length. -/
def partsFit (b : List Byte) : Bool := decide (64 + 16 * imgNodeN b + 8 * imgEdgeN b + imgCode b + imgTables b ≤ leAt b 8 4)

/-- A node record's failure. -/
def nodeFault (b : List Byte) (i : Nat) : Option Nat :=
  let n := gnode b i
  let o := nodeAt i
  let room := codeAt b - paramsAt b
  if ((List.range i).any fun j => decide ((gnode b j).id = n.id)) then some o
  else if ¬ nodeDefined n.ty then some (o + 2)
  else if n.sec ≠ sectionOf b i ∨ ¬ sectionOk n.ty n.sec then some (o + 3)
  else if room < n.poff + n.plen ∨ ¬ paramOk b n then some (o + 4)
  else if 4800 < n.delay then some (o + 10)
  else if leAt b (o + 14) 2 ≠ 0 then some (o + 14)
  else none

/-- An edge record's failure: both nodes exist and have the ports. -/
def edgeFault (b : List Byte) (ns : List GNode) (i : Nat) : Option Nat :=
  let e := gedge b i
  let o := edgeAt b i
  match ns.find? (fun n => decide (n.id = e.src)), ns.find? (fun n => decide (n.id = e.dst)) with
  | none, _ => some (o + 2)
  | some s, t =>
    if s.outs ≤ e.sport then some (o + 4)
    else match t with
      | none => some (o + 5)
      | some d => if d.ins ≤ e.dport then some (o + 7) else none

/-- Edges left after nodes without an edge into them, or out of them, have been taken away: none when the graph has no cycle. -/
def peelEdges : Nat → List GEdge → List GEdge
  | 0, es => es
  | fuel + 1, es =>
    let r := es.filter fun e => (es.any fun f => decide (f.dst = e.src)) && es.any fun f => decide (f.src = e.dst)
    if r.length = es.length then es else peelEdges fuel r

/-- The offset of the first edge that lies on a cycle (DEDUCED for its place, log entry 34). -/
def cycleFault (b : List Byte) : Option Nat :=
  let left := peelEdges (imgEdgeN b) (gedges b)
  (List.range (imgEdgeN b)).findSome? fun i => if left.contains (gedge b i) then some (edgeAt b i) else none

/-- The word at index i of a node's code. -/
def codeWord (b : List Byte) (off i : Nat) : AccOp := decodeWord (BitVec.ofNat 32 (leAt b (codeAt b + off + 4 * i) 4))

/-- Checks 2 of Table 11-12. -/
def wordFault (o : AccOp) : Bool := !o.ok || o.isSupervisor

/-- Not allowed in a delay slot or after RPT, by Table 11-7. -/
def slotOneBars (o : AccOp) : Bool := o.isTransfer || o.isRpt || o.isWait
def slotTwoBars (o : AccOp) : Bool := slotOneBars o || o.isLoad
def rptBars (o : AccOp) : Bool := slotOneBars o || o.isCsrw

/-- The first word whose placement Table 11-7 forbids, by its index in a node's code of n words. -/
def placementFault (b : List Byte) (off n : Nat) : Option Nat :=
  (List.range n).findSome? fun i =>
    let o := codeWord b off i
    let at1 := codeWord b off (i + 1)
    if o.isTransfer then
      if n ≤ i + 2 then some i else if slotOneBars at1 then some (i + 1) else if slotTwoBars (codeWord b off (i + 2)) then some (i + 2) else none
    else if o.isLoad then (if n ≤ i + 1 then some i else if slotTwoBars at1 then some (i + 1) else none)
    else if o.isRpt then (if n ≤ i + 1 then some i else if rptBars at1 then some (i + 1) else none)
    else none

/-- The offset of a pc-relative transfer in words. -/
def AccOp.relOff : AccOp → Option Int
  | .beqz f | .bnez f | .bltz f | .bgez f | .j f | .call f => some f.off.toInt
  | _ => none

/-- The first transfer whose target leaves a node's code of n words. -/
def targetFault (b : List Byte) (off n : Nat) : Option Nat :=
  (List.range n).findSome? fun (i : Nat) => match (codeWord b off i).relOff with
    | some k => if (i : Int) + 1 + k < 0 ∨ (n : Int) ≤ (i : Int) + 1 + k then some i else none
    | none => none

/-- The checks of Table 11-12 on a custom node, in order. -/
def codeFault (b : List Byte) (i : Nat) : Option Nat :=
  if ¬ isCustom (gnode b i).ty then none
  else
    let (off, len) := Config.nodeCode b i
    if off % 4 ≠ 0 ∨ 65536 < len ∨ imgCode b < off + len then some (nodeAt i)
    else
      let n := len / 4
      let word := fun (k : Nat) => codeAt b + off + 4 * k
      match (List.range n).find? fun k => wordFault (codeWord b off k) with
      | some k => some (word k)
      | none => match placementFault b off n with
        | some k => some (word k)
        | none => (targetFault b off n).map word

/-- The first failure of an image, by its offset. -/
def imageFault (b : List Byte) : Option Nat :=
  match headerFault b with
  | some o => some o
  | none =>
    let ns := gnodes b
    (((List.range (imgNodeN b)).findSome? (nodeFault b)).orElse fun _ =>
      ((List.range (imgEdgeN b)).findSome? (edgeFault b ns)).orElse fun _ =>
      (cycleFault b).orElse fun _ => (List.range (imgNodeN b)).findSome? (codeFault b))

/-- The image as the device keeps it. -/
def imageAt (c : Cmd) (b : List Byte) : Image :=
  { tenant := c.fn.val, bytes := b, directOk := bit (leAt b 6 2) 0, confNodes := imgConfN b, inNodes := imgInN b, lisNodes := imgLisN b,
    edges := imgEdgeN b, codeBytes := imgCode b, tableBytes := imgTables b, confCycles := leAt b 28 4, inCycles := leAt b 32 4,
    lisCycles := leAt b 36 4, buildId := BitVec.ofNat 32 (leAt b 48 4), lastFault := 0xFFFF }

/-- GRAPH_LOAD (R295, R330). -/
def ruleGraphLoad : CmdRule where
  op := 0x0701
  logged := true
  bulk := true
  plen := .block
  lengths c _ :=
    let b := c.ext.getD []
    [failIf (decide (c.plen.toNat < 64) || decide (leAt b 8 4 ≠ c.plen.toNat) || !partsFit b) stLength 0]
  fields c _ := [(imageFault (c.ext.getD [])).map fun o => ⟨stRange, BitVec.ofNat 32 (64 + o)⟩]
  resources _ s := [noResource (s.obj.images.next 256).isNone 0x0106]
  effect c s :=
    match s.obj.images.next 256 with
    | none => ({}, s)
    | some i =>
      let s := setImages (·.alloc 256 (imageAt c (c.ext.getD []))) s
      ({ res := [handleOf s tyImage i] }, s)

def execGraphLoad (c : Cmd) (s : State) : Host.Outcome State Fault Refusal := issue ruleGraphLoad c s

/-! ### Swaps (R296, R297) -/

/-- The image that a handle names. -/
def imageOf (s : State) (h : Handle) : Option Image := (liveIndex s tyImage h).bind s.obj.images.at?

/-- Nodes whose inputs are mixes: SUM and OUT (DEDUCED, log entry 35). -/
def feedsMix (b : List Byte) (e : GEdge) : Bool :=
  match (gnodes b).find? fun n => decide (n.id = e.dst) with
  | some n => n.ty == 0x04 || n.ty == 0x0B
  | none => false

/-- Instances of the section of an edge in a conference. -/
def edgeInstances (s : State) (conf : Nat) (b : List Byte) (e : GEdge) : Nat :=
  match (gnodes b).find? fun n => decide (n.id = e.dst) with
  | some n => if n.sec = 0 then 1 else if n.sec = 1 then audioIns s conf else (audioOuts s conf).length
  | none => 0

/-- Crossfade units that the edges of one image take against another. -/
def edgeUnits (s : State) (conf : Nat) (mine other : List Byte) : Nat :=
  let keep := gedges other
  total (((gedges mine).filter fun e => feedsMix mine e && !keep.contains e).map (edgeInstances s conf mine))

/-- Crossfade units of a swap: every changed edge that feeds a mix, once per instance (R296). -/
def swapUnits (s : State) (conf : Nat) (old new : Handle) : Nat :=
  let bytes := fun (h : Handle) => ((imageOf s h).map (·.bytes)).getD []
  edgeUnits s conf (bytes old) (bytes new) + edgeUnits s conf (bytes new) (bytes old)

/-- Start a swap of a conference to an image; it takes effect at a tick (R296). A fallen-back conference returns to its image (R332). -/
def startSwap (conf : Nat) (image : Handle) : State → State := updConf conf fun k =>
  let old := if k.fallback then 0 else if k.swapping ∧ k.swapAt.isNone then k.oldImage else k.image
  { k with image := image, oldImage := old, swapping := true, swapAt := none, fallback := false }

/-- The swap with its reservation of cycles (R297). -/
def trySwap (conf : Nat) (image : Handle) (s : State) : Adm := do
  let old := ((s.obj.confs.at? conf).map (·.image)).getD 0
  need (decide (swapUnits s conf old image ≤ 4096)) 0x0106
  settled [conf] (startSwap conf image s)

/-- The conference already runs the image, so nothing changes. -/
def swapDone (s : State) (conf : Nat) (image : Handle) : Bool :=
  match s.obj.confs.at? conf with
  | some k => decide (k.image = image) && !k.fallback
  | none => false

/-- GRAPH_SWAP (R296). -/
def ruleGraphSwap : CmdRule where
  op := 0x0702
  logged := true
  plen := .fixed 4
  types := [tyImage]
  handles c s := [handleAt s c [tyConf] 16]
  states c s := [confClosing s (c.hdl 16)]
  resources c s := if swapDone s (hIndex (c.hdl 16)) c.object then [] else [Adm.check (trySwap (hIndex (c.hdl 16)) c.object s)]
  effect c s :=
    if swapDone s (hIndex (c.hdl 16)) c.object then ({ status := stNoop }, s)
    else match trySwap (hIndex (c.hdl 16)) c.object s with
      | .ok t => ({}, t)
      | .error _ => ({}, s)

def execGraphSwap (c : Cmd) (s : State) : Host.Outcome State Fault Refusal := issue ruleGraphSwap c s

/-- GRAPH_UNLOAD (R297). -/
def ruleGraphUnload : CmdRule where
  op := 0x0703
  logged := true
  types := [tyImage]
  states c s := [stateFail (imageUsed s c.object) c.object]
  effect c s := ({}, unloadImage (hIndex c.object) s)

def execGraphUnload (c : Cmd) (s : State) : Host.Outcome State Fault Refusal := issue ruleGraphUnload c s

end Sys2Proof.Machine
end

