-- ==== Sys2Proof/Machine/Conferences.lean ====
section
/-! DEFINITION. Conferences: CONF_CREATE, CONF_MODIFY, CONF_DESTROY and CONF_QUERY (R35-R37, R57, R187, R495). -/

namespace Sys2Proof.Machine

/-! ### The parameters of Table 02-17 -/

/-- Zero fields among the selected parameters. -/
def confZeros (c : Cmd) (m : Nat) : List Check :=
  [if bit m 1 then zeroAt c 17 1 else none, if bit m 2 then zeroAt c 18 2 else none]

/-- Field checks of the selected parameters. -/
def confFields (s : State) (c : Cmd) (m : Nat) : List Check :=
  let g := c.u32 24
  [if bit m 0 then rangeAt c 16 1 0 2 else none, if bit m 0 then notReadyAt s (c.u8 16 != 0) 16 else none, if bit m 1 then rangeAt c 17 1 1 64 else none,
   if bit m 2 then rangeAt c 18 2 1 4096 else none,
   if bit m 4 then failIf (decide (bits g 24 7 ≠ 0) || bit g 0 || (!bit g 31 && decide (bits g 0 24 ≠ 0))) stFormat 24 else none]

/-- The global ID of the parameters. -/
def confGlobal (c : Cmd) : Option (BitVec 24) := if bit (c.u32 24) 31 then some (BitVec.ofNat 24 (c.u32 24)) else none

/-! ### CONF_CREATE -/

/-- The new conference. -/
def newConf (c : Cmd) : Conf :=
  { tenant := c.fn.val, closing := false, mode := c.u8 16, talkerLimit := c.u8 17, legLimit := c.u16 18, image := c.hdl 20,
    globalId := confGlobal c }

/-- Every reservation of CONF_CREATE: the table entry and the tenant's ceiling (0x000C), then its flow and cycles. -/
def tryConf (c : Cmd) (s : State) : Except Nat (Nat × State) := do
  need (match tenantOf s c.fn.val with
    | some t => decide (tcount s.obj.confs.live (fun _ k => decide (k.tenant = c.fn.val)) < t.confs)
    | none => true) 0x000C
  match s.obj.confs.next 2048 with
  | none => .error 0x000C
  | some i =>
    let s ← settled [i] (reserveFor (objRef 2 i) [] 1 (setConfs (·.alloc 2048 (newConf c)) s))
    .ok (i, s)

/-- CONF_CREATE (R495). -/
def ruleConfCreate : CmdRule where
  op := 0x0301
  logged := true
  plen := .fixed 12
  zeroFields c _ := confZeros c 0x1F
  handles c s := [handleOrZeroAt s c [tyImage] 20]
  fields c s := confFields s c 0x1F
  resources c s := [noResource (inBlotter s && decide (128 ≤ s.obj.confs.inUse)) 0x000C, Adm.check (tryConf c s)]
  effect c s :=
    match tryConf c s with
    | .ok (i, t) => ({ res := [handleOf t tyConf i] }, t)
    | .error _ => ({}, s)

def execConfCreate (c : Cmd) (s : State) : Host.Outcome State Fault Refusal := issue ruleConfCreate c s

/-! ### CONF_MODIFY -/

/-- Inbound streams of the legs of a conference, by leg and declaration order. -/
def confIns (s : State) (conf : Nat) : List Nat := (confLegs s conf).flatMap fun (_, l) => l.ins

/-- Change the media mode: decode contexts of the legs' sources are reserved in source order, or returned (R187, R35). What a removed kind had in use
stops because each of its operations looks at the mode. -/
def changeMode (conf mode : Nat) (s : State) : Adm := do
  let s := updConf conf (fun k => { k with mode := mode }) s
  (confIns s conf).foldlM (fun s i => fitDec i s) s

/-- The devices that take part in a conference besides this one (R57). -/
def memberCount (s : State) (conf : Nat) : Nat := (s.media.members.filter fun m => decide (m.1 = conf)).length

/-- A cascade ID whose home is this device, with more than 256 members (R57). -/
def tooManyMembers (c : Cmd) (s : State) : Bool :=
  match confGlobal c with
  | some g => decide (bits g.toNat 12 12 = s.media.deviceId.toNat) && decide (256 < memberCount s (hIndex c.object) + 1)
  | none => false

/-- Every reservation of CONF_MODIFY, in the order of its parameters. -/
def tryConfModify (c : Cmd) (s : State) : Adm := do
  let m := c.u32 28
  let i := hIndex c.object
  let s ← if bit m 0 then changeMode i (c.u8 16) s else (.ok s : Adm)
  let s := updConf i (fun k => { k with
    talkerLimit := if bit m 1 then c.u8 17 else k.talkerLimit
    legLimit := if bit m 2 then c.u16 18 else k.legLimit
    globalId := if bit m 4 then confGlobal c else k.globalId }) s
  let s ← if bit m 0 ∨ bit m 4 then fitRemotes ((s.obj.confs.at? i).map (·.tenant)) s else (.ok s : Adm)
  if bit m 3 ∧ ¬ swapDone s i (c.hdl 20) then trySwap i (c.hdl 20) s else settled [i] s

/-- CONF_MODIFY (R495, R35, R57); a change of image is a swap (R296). -/
def ruleConfModify : CmdRule where
  op := 0x0302
  logged := true
  plen := .fixed 16
  types := [tyConf]
  zeroFields c _ := confZeros c (c.u32 28)
  handles c s := [if bit (c.u32 28) 3 then handleOrZeroAt s c [tyImage] 20 else none]
  fields c s := confFields s c (c.u32 28) ++ [reservedAt c 28 4 5]
  states c s := [confClosing s c.object,
    stateFail (bit (c.u32 28) 2 && decide (c.u16 18 < (confLegs s (hIndex c.object)).length)) c.object]
  resources c s := [noResource (bit (c.u32 28) 4 && tooManyMembers c s) 0x000C, Adm.check (tryConfModify c s)]
  effect c s :=
    if c.u32 28 = 0 then ({ status := stNoop }, s)
    else match tryConfModify c s with
      | .ok t => ({}, t)
      | .error _ => ({}, s)

def execConfModify (c : Cmd) (s : State) : Host.Outcome State Fault Refusal := issue ruleConfModify c s

/-! ### CONF_DESTROY and CONF_QUERY -/

/-- Close a conference: every leg detaches without a BYE, and what no leg refers to goes (R37, R48). -/
def closeConf (conf : Nat) (s : State) : State :=
  let s := updConf conf (fun k => { k with closing := true }) s
  let s := (confLegs s conf).foldl (fun s (i, _) => detachLeg i false s) s
  sweepConf conf s

/-- CONF_DESTROY (R37). -/
def ruleConfDestroy : CmdRule where
  op := 0x0303
  logged := true
  types := [tyConf]
  states c s := [confClosing s c.object]
  effect c s := ({}, closeConf (hIndex c.object) s)

def execConfDestroy (c : Cmd) (s : State) : Host.Outcome State Fault Refusal := issue ruleConfDestroy c s

def ruleConfQuery : CmdRule := queryRule 0x0304 [tyConf] false

def execConfQuery (c : Cmd) (s : State) : Host.Outcome State Fault Refusal := issue ruleConfQuery c s

end Sys2Proof.Machine
end

