-- ==== Sys2Proof/Machine/Trunks.lean ====
section
/-! DEFINITION. The cascade fabric: CASCADE_CONFIG, TRUNK_CREATE, TRUNK_MODIFY, TRUNK_DESTROY, keepalives and the loss of a trunk (R39, R55,
R58-R60, R145, R178-R180). The layout of the trunk block is the model's own (log entry 27). -/

namespace Sys2Proof.Machine

/-! ### CASCADE_CONFIG (R55, R58) -/

def ruleCascadeConfig : CmdRule where
  op := 0x0E01
  t0 := true
  logged := true
  plen := .fixed 4
  fields c _ := [rangeAt c 16 2 0 4095, rangeAt c 18 2 1 65535]
  states _ s := match s.obj.trunks.live with
    | [] => []
    | (i, _) :: _ => [some ⟨stState, handleOf s tyTrunk i⟩]
  effect c s := ({}, { s with media := { s.media with deviceId := BitVec.ofNat 12 (c.u16 16), trunkPort := c.u16 18 } })

def execCascadeConfig (c : Cmd) (s : State) : Host.Outcome State Fault Refusal := issue ruleCascadeConfig c s

/-! ### The trunk block -/

/-- Offset of the slot handle of a direction (0 sending, 1 receiving) and phase. -/
def trunkSlotAt (dir phase : Nat) : Nat := 116 + 8 * dir + 4 * phase

/-- The four slots of the block, sending phases first. -/
def trunkSlots (c : Cmd) : List Handle := [trunkSlotAt 0 0, trunkSlotAt 0 1, trunkSlotAt 1 0, trunkSlotAt 1 1].map c.hdl

/-- The meter of a trunk (log entry 27). -/
def trunkMeter (now : Nat) : Meter :=
  let f := Config.trunkMeter
  { tr := decide (f 0 % 2 = 1), aware := false, cir := f 1, cbs := f 2, pir := f 3, pbs := f 4, tc := f 2 * 8000000, tx := f 4 * 8000000,
    last := now }

/-- An implicit slot before the first decision (R179). -/
def implicitSlot : FwdSlot := { ssrc := 0, slot := 0, rtxSsrc := 0, rtxSlot := 0 }

/-- The trunk that the block describes. -/
def newTrunk (c : Cmd) (s : State) : Trunk :=
  let t := transportAt c 64
  { tenant := c.fn.val, transport := t, peer := c.u16 112, tx := (trunkSlots c).take 2, rx := (trunkSlots c).drop 2,
    phase := decide (c.u32 132 = 1), meter := trunkMeter (logNs s), est := newEstimator, shaper := newShaper s.tim.c,
    weight := ((tenantOf s c.fn.val).map (·.weight)).getD 10, slots := List.replicate 32 implicitSlot, ins := [], lastSent := logNs s,
    lastAuth := logNs s, down := false, lost := 0, drops := 0 }

def trunkHandles (s : State) (c : Cmd) : List Check :=
  [trunkSlotAt 0 0, trunkSlotAt 0 1, trunkSlotAt 1 0, trunkSlotAt 1 1].map (handleAt s c [tySlot])

def trunkFields (s : State) (c : Cmd) : List Check :=
  [firstPlaced (transportFields s c 64 ++
    [at_ 112 (rangeAt c 112 2 0 4095), at_ 114 (padAt c 114 2), at_ 132 (rangeAt c 132 4 0 1)])]

/-- State checks: the transport, and keys that do not suit a trunk (R125, R126). -/
def trunkStates (s : State) (c : Cmd) (self : Handle) : List Check :=
  transportStates s c 64 self ++ [(badKey s (trunkUses (newTrunk c s))).map fun h => ⟨stState, h⟩]

/-- TRUNK_CREATE: a table entry with its transport entry, its egress queue and flow (R39, R341, R383). -/
def tryTrunk (c : Cmd) (s : State) : Except Nat (Nat × State) := do
  match s.obj.trunks.next 512 with
  | none => .error 0x0004
  | some i =>
    let s ← settled [] (reserveFor (objRef 0xA i) [3] 1 (setTrunks (·.alloc 512 (newTrunk c s)) s))
    .ok (i, s)

def ruleTrunkCreate : CmdRule where
  op := 0x0E02
  logged := true
  plen := .ext 72
  handles c s := trunkHandles s c
  fields c s := trunkFields s c
  states c s := trunkStates s c 0
  resources c s := [Adm.check (tryTrunk c s)]
  effect c s :=
    match tryTrunk c s with
    | .ok (i, t) => ({ res := [handleOf t tyTrunk i] }, t)
    | .error _ => ({}, s)

def execTrunkCreate (c : Cmd) (s : State) : Host.Outcome State Fault Refusal := issue ruleTrunkCreate c s

/-- TRUNK_MODIFY: transport, peer, slots and sending phase change; everything else stays (R145). -/
def ruleTrunkModify : CmdRule where
  op := 0x0E03
  logged := true
  plen := .ext 72
  types := [tyTrunk]
  handles c s := trunkHandles s c
  fields c s := trunkFields s c
  states c s := trunkStates s c c.object
  effect c s :=
    let n := newTrunk c s
    ({}, updTrunk (hIndex c.object) (fun t => { t with transport := n.transport, peer := n.peer, tx := n.tx, rx := n.rx, phase := n.phase }) s)

def execTrunkModify (c : Cmd) (s : State) : Host.Outcome State Fault Refusal := issue ruleTrunkModify c s

/-! ### The end of a trunk -/

/-- Encrypt and discard every packet of a trunk that waits in Sillage, as for a leg (R48). -/
def discardTrunk (i : Nat) (s : State) : State :=
  let mine := (s.media.outQ ++ s.media.egress).filter fun p => p.onTrunk && decide (p.owner = i)
  let s := mine.foldl (fun s p => consumed p (sealNow p s).2) s
  let keep := fun (p : EgPkt) => !(p.onTrunk && decide (p.owner = i))
  { s with media := { s.media with outQ := s.media.outQ.filter keep, egress := s.media.egress.filter keep } }

/-- Free a trunk with its remote sources. -/
def freeTrunk (i : Nat) (s : State) : State :=
  match s.obj.trunks.at? i with
  | none => s
  | some t =>
    let s := t.ins.foldl (fun s j => freeIn j s) (discardTrunk i s)
    releaseFor (objRef 0xA i) 1 (setTrunks (·.free i) (dropObj (handleOf s tyTrunk i) s))

def ruleTrunkDestroy : CmdRule where
  op := 0x0E04
  logged := true
  types := [tyTrunk]
  effect c s := ({}, freeTrunk (hIndex c.object) s)

def execTrunkDestroy (c : Cmd) (s : State) : Host.Outcome State Fault Refusal := issue ruleTrunkDestroy c s

/-! ### Keepalives (R60) -/

/-- TRUNK_KEEPALIVE: a trunk that has sent nothing for 1 ms sends a datagram of TYPE 4, GCONF 0xFF_FFFF and the current audio tick. -/
def keepAlive (i : Nat) (s : State) : State :=
  match s.obj.trunks.at? i with
  | none => s
  | some t => if logNs s < t.lastSent + 1000000 then s else sendTrunk i { ty := 4, gconf := 0xFFFFFF, tick := s.media.tick } [] s

def execTrunkKeepalive (trunk : Nat) (s : State) : Host.Outcome State Fault Refusal := done s (if runsTasks s then keepAlive trunk s else s)

/-- TRUNK_DOWN: nothing has authenticated for 10 ms; the trunk stays allocated (R60). -/
def loseTrunk (i : Nat) (s : State) : State :=
  match s.obj.trunks.at? i with
  | none => s
  | some t =>
    if t.down ∨ logNs s < t.lastAuth + 10000000 then s
    else postEvent t.tenant evTrunkDown (handleOf s tyTrunk i) t.peer 0 0 (updTrunk i (fun t => { t with down := true }) s)

def execTrunkDown (trunk : Nat) (s : State) : Host.Outcome State Fault Refusal := done s (if runsTasks s then loseTrunk trunk s else s)

end Sys2Proof.Machine
end

