-- ==== Sys2Proof/Machine/Tenants.lean ====
section
/-! DEFINITION. Tenants: TENANT_CREATE, TENANT_MODIFY, TENANT_DESTROY, TENANT_QUERY, TENANT_ROUTE, and what a function-level reset does to a
tenant (R32-R34, R45, R461, R492-R494). -/

namespace Sys2Proof.Machine

/-! ### The tenant block (Tables 02-18, 02-19) -/

/-- Change mask. -/
def tenMask (c : Cmd) : Nat := c.u16 66

/-- Address entries of the block. -/
def tenCount (c : Cmd) : Nat := c.u16 92

/-- Limit fields: mask bit, offset, bytes, highest value. -/
def tenLimits : List (Nat × Nat × Nat × Nat) :=
  [(0, 68, 4, 65536), (1, 72, 2, 16), (1, 74, 2, 16), (1, 76, 2, 4), (1, 78, 2, 16320), (2, 80, 2, 2048), (3, 82, 2, 8192), (4, 84, 2, 4096),
   (5, 86, 2, 2048), (6, 88, 4, 320000)]

/-- Offset of address entry j. -/
def addrRec (j : Nat) : Nat := 128 + 24 * j

/-- Address entry at offset b. -/
def addrAt (c : Cmd) (b : Nat) : LocalAddr :=
  { ip := c.raw b 16, first := c.u16 (b + 16), last := c.u16 (b + 18), v6 := decide (c.u8 (b + 20) = 6) }

/-- Two entries overlap: one address and version, and port ranges that meet (R33). -/
def LocalAddr.overlaps (a b : LocalAddr) : Bool :=
  decide (a.ip = b.ip) && (a.v6 == b.v6) && decide (a.first ≤ b.last) && decide (b.first ≤ a.last)

/-- The address list of the block. -/
def tenAddrs (c : Cmd) : List LocalAddr := (List.range (tenCount c)).map fun j => addrAt c (addrRec j)

/-- The entry overlaps one of another tenant. -/
def overlapsOther (s : State) (t : Nat) (a : LocalAddr) : Bool :=
  s.obj.tenants.live.any fun (i, x) => decide (i ≠ t) && x.addrs.any (·.overlaps a)

/-- Field checks of address entry j, the address after its version and ports. -/
def addrFields (s : State) (c : Cmd) (t j : Nat) : List Placed :=
  let b := addrRec j
  let a := addrAt c b
  let earlier := (List.range j).map fun i => addrAt c (addrRec i)
  [at_ (b + 16) (rangeAt c (b + 16) 2 1 65535), at_ (b + 18) (rangeAt c (b + 18) 2 a.first 65535),
   at_ (b + 20) (failIf (decide (c.u8 (b + 20) ≠ 4) && decide (c.u8 (b + 20) ≠ 6)) stRange (b + 20)),
   at_ (b + 21) (padAt c (b + 21) 3),
   afterField (b + 21) 1 (firstFail [failIf (!a.v6 && !zeros (c.raw (b + 4) 12)) stFormat b, failIf (earlier.any (·.overlaps a)) stRange b,
     failIf (overlapsOther s t a) stNotOwner b])]

/-- Field checks of the block; `exists_` is the tenant of OBJECT, none for TENANT_CREATE. -/
def tenFields (s : State) (c : Cmd) (exists_ : Option Nat) : List Check :=
  let m := tenMask c
  let n := c.u8 64
  [firstPlaced ([match exists_ with
      | some t => at_ 64 (failIf (decide (n ≠ t)) stRange 64)
      | none => at_ 64 (firstFail [rangeAt c 64 1 1 63, failIf (s.obj.tenants.at? n).isSome stState 64]),
    at_ 65 (reservedAt c 65 1 1), at_ 66 (reservedAt c 66 2 9)] ++
    (tenLimits.map fun (k, off, w, top) => at_ off (if bit m k then rangeAt c off w 0 top else none)) ++
    [at_ 92 (failIf (decide (256 < tenCount c) || (!bit m 8 && decide (tenCount c ≠ 0))) stRange 92), at_ 94 (padAt c 94 34)] ++
    (if bit m 8 then (List.range (tenCount c)).flatMap (addrFields s c n) else []))]

/-- A tenant with the selected fields of the block. -/
def tenApply (c : Cmd) (t : Tenant) : Tenant :=
  let m := tenMask c
  { t with
    keySlots := if bit m 0 then c.u32 68 else t.keySlots
    ringCmd := if bit m 1 then c.u16 72 else t.ringCmd
    ringReply := if bit m 1 then c.u16 74 else t.ringReply
    ringEvent := if bit m 1 then c.u16 76 else t.ringEvent
    ringMedia := if bit m 1 then c.u16 78 else t.ringMedia
    confs := if bit m 2 then c.u16 80 else t.confs
    legs := if bit m 3 then c.u16 82 else t.legs
    decode := if bit m 4 then c.u16 84 else t.decode
    encode := if bit m 5 then c.u16 86 else t.encode
    peak := if bit m 6 then c.u32 88 else t.peak
    prot := if bit m 7 then bit (c.u8 65) 0 else t.prot
    addrs := if bit m 8 then tenAddrs c else t.addrs }

/-! ### Device totals (R32) -/

/-- Rings reserved to a tenant. -/
def Tenant.rings (t : Tenant) : Nat := t.ringCmd + t.ringReply + t.ringEvent + t.ringMedia

/-- A reserved limit summed over the tenants other than one. -/
def otherTotal (s : State) (n : Nat) (f : Tenant → Nat) : Nat :=
  total (s.obj.tenants.live.map fun (i, t) => if i = n then 0 else f t)

/-- The reserved limits of a tenant beside those of the others. -/
def totalChecks (s : State) (n : Nat) (t : Tenant) : List Check :=
  [noResource (decide (65536 < otherTotal s n (·.keySlots) + t.keySlots)) 0x0104,
   noResource (decide (16384 < otherTotal s n (·.rings) + t.rings)) 0x0100,
   noResource (decide (256 < otherTotal s n (·.addrs.length) + t.addrs.length)) 0x0102]

/-! ### Key slots (R118, R494) -/

/-- The n lowest numbers from `i` on that a table does not list. -/
def lowestFree {α : Type} : Tbl α → Nat → Nat → List Nat
  | [], i, n => (List.range n).map (· + i)
  | (k, _) :: r, i, n =>
    if n ≤ k - i then (List.range n).map (· + i) else (List.range (k - i)).map (· + i) ++ lowestFree r (k + 1) (n - (k - i))

/-- The table with a value at each of some rising keys that it does not list. -/
def tputs {α : Type} : Tbl α → List Nat → α → Tbl α
  | [], ks, a => ks.map fun k => (k, a)
  | (k, v) :: r, ks, a => ((ks.takeWhile fun x => decide (x < k)).map fun x => (x, a)) ++ (k, v) :: tputs r (ks.dropWhile fun x => decide (x < k)) a

/-- Grant n slots, the lowest-numbered free ones. -/
def grantSlots (t n : Nat) (s : State) : State :=
  setSlots (fun o => { o with live := tputs o.live (lowestFree o.live 0 n) { tenant := t } }) s

/-- The slots of a tenant, by index. -/
def slotsOf (s : State) (t : Nat) : List Nat := (tfilter s.obj.slots.live fun _ k => decide (k.tenant = t)).map (·.1)

/-- EMPTY, and nothing names it (R494). -/
def returnable (s : State) (i : Nat) : Bool :=
  match slotAt s i with
  | some k => k.state == .empty && (usesOf s i).isEmpty
  | none => false

/-- The slots that a lowered reservation returns, the highest-numbered first. -/
def returning (s : State) (t n : Nat) : List Nat := (((slotsOf s t).reverse.filter (returnable s)).take n)

/-- Give slots back to the device. -/
def returnSlots (is : List Nat) (s : State) : State := is.foldl (fun s i => setSlots (·.free i) s) s

/-- RES1-RES3: number, lowest and highest index of the tenant's slots; 0 and 0 with none (DESIGN CHOICE, log entry 37). -/
def slotRes (s : State) (t : Nat) : List Word :=
  let is := slotsOf s t
  [BitVec.ofNat 32 is.length, BitVec.ofNat 32 (is.head?.getD 0), BitVec.ofNat 32 (is.getLast?.getD 0)]

/-! ### TENANT_CREATE -/

def blockLengths (c : Cmd) : List Check := [failIf (decide (c.plen.toNat < 64) || decide (c.plen.toNat ≠ 64 + 24 * tenCount c)) stLength 0]

/-- TENANT_CREATE (R32, R492). -/
def ruleTenantCreate : CmdRule where
  op := 0x0201
  t0 := true
  logged := true
  plen := .block
  lengths c _ := blockLengths c
  fields c s := tenFields s c none
  resources c s := totalChecks s (c.u8 64) (tenApply c {})
  effect c s :=
    let n := c.u8 64
    let t := tenApply c {}
    let s := grantSlots n t.keySlots (setTenants (fun o => { o with live := tput o.live n t }) s)
    ({ res := handleOf s tyTenant n :: slotRes s n }, s)

def execTenantCreate (c : Cmd) (s : State) : Host.Outcome State Fault Refusal := issue ruleTenantCreate c s

/-! ### TENANT_MODIFY (R493) -/

/-- The tenant that OBJECT names. -/
def tenIdx (c : Cmd) : Nat := hIndex c.object

/-- The first leg whose local address and port a list of entries does not cover. -/
def uncovered (s : State) (n : Nat) (as : List LocalAddr) : Option Handle :=
  s.obj.legs.live.findSome? fun (i, l) =>
    if l.tenant = n ∧ ¬ as.any (fun a => decide (a.ip = l.transport.laddr) && (a.v6 == l.transport.v6) &&
      decide (a.first ≤ l.transport.lport) && decide (l.transport.lport ≤ a.last)) then some (handleOf s tyLeg i) else none

/-- State checks of a changed tenant: rings held, returnable slots, addresses of legs. -/
def tenStates (s : State) (n : Nat) (old new : Tenant) : List Check :=
  [failIf (decide (new.ringCmd < ringsHeld s n .command)) stState 72, failIf (decide (new.ringReply < ringsHeld s n .reply)) stState 74,
   failIf (decide (new.ringEvent < ringsHeld s n .event)) stState 76, failIf (decide (new.ringMedia < ringsHeld s n .media)) stState 78,
   failIf (decide (((slotsOf s n).filter (returnable s)).length < old.keySlots - new.keySlots)) stState 68,
   if new.addrs = old.addrs then none else (uncovered s n new.addrs).map fun h => ⟨stState, h⟩]

/-- The protected peak rate of a changed tenant (R493, R152). -/
def tenPeak (s : State) (n : Nat) (old new : Tenant) : Bool :=
  let t := updTenant n (fun _ => new) s
  !new.prot || (!(decide (new.peak < old.peak) && decide (new.peak < peakOf s n)) &&
    (old.prot || (decide (peakOf s n ≤ new.peak) && decide (peakTotal t ≤ 320000))))

/-- Protection turned on for a tenant of a protected pair: its conferences and trunks are to be synced, and until then the pair reports RESYNC;
turned off, it ends at the command's log position (R445). -/
def protectTenant (n : Nat) (on off : Bool) (s : State) : State :=
  if off then setTwin (fun w => { w with unsynced := w.unsynced.filter (· != n), resync := w.resync && !(w.prot && w.unsynced == [n]) }) s
  else if on ∧ s.twin.prot then
    let objs := ((tfilter s.obj.confs.live fun _ k => decide (k.tenant = n)).map fun kv => handleOf s tyConf kv.1) ++
      ((tfilter s.obj.trunks.live fun _ k => decide (k.tenant = n)).map fun kv => handleOf s tyTrunk kv.1)
    setTwin (fun w => { w with
      resync := true, syncStart := if w.resync then w.syncStart else s.tim.c / 1000000, unsynced := w.unsynced ++ [n]
      synced := if w.resync then w.synced else 0, toSync := (if w.resync then w.toSync else 0) + objs.length
      todoObjs := w.todoObjs ++ objs }) s
  else s

/-- TENANT_MODIFY. -/
def ruleTenantModify : CmdRule where
  op := 0x0202
  t0 := true
  logged := true
  plen := .block
  types := [tyTenant]
  anyTenant := true
  lengths c _ := blockLengths c
  fields c s := tenFields s c (some (tenIdx c))
  states c s := match s.obj.tenants.at? (tenIdx c) with
    | some t => tenStates s (tenIdx c) t (tenApply c t)
    | none => []
  resources c s := match s.obj.tenants.at? (tenIdx c) with
    | some t => totalChecks s (tenIdx c) (tenApply c t) ++ [noResource (!tenPeak s (tenIdx c) t (tenApply c t)) 0x000B]
    | none => []
  effect c s :=
    let n := tenIdx c
    match s.obj.tenants.at? n with
    | none => ({}, s)
    | some t =>
      let new := tenApply c t
      if new = t then ({ status := stNoop, res := 0 :: slotRes s n }, s)
      else
        let s := returnSlots (returning s n (t.keySlots - new.keySlots)) s
        let s := grantSlots n (new.keySlots - t.keySlots) (updTenant n (fun _ => new) s)
        let s := protectTenant n (new.prot && !t.prot) (!new.prot) s
        ({ res := 0 :: slotRes s n }, s)

def execTenantModify (c : Cmd) (s : State) : Host.Outcome State Fault Refusal := issue ruleTenantModify c s

/-! ### TENANT_DESTROY (R34) -/

/-- Every ring of a function is FREE, its spill queue space returns, and nothing of it is owed (R341, R461, R34). -/
def dropRings (f : Nat) (s : State) : State :=
  let mine := fun (x : Fetched) => decide (x.cmd.fn.val = f)
  let s := ((fnOf s f).rings.filter fun kv => kv.2.kind == .media && !(kv.2.state == .free)).foldl (fun s kv => releaseFor (ringRef f kv.1) 1 s) s
  let s := modFn f (fun p => { p with rings := [], ready := false, heldStart := none, applied := [] }) s
  let s := s.obj.slots.live.foldl (fun s (i, k) => if k.tenant = f then updSlot i (fun k => { k with eraseOwed := none }) s else s) s
  { s with nose := { s.nose with fetched := s.nose.fetched.filter (fun x => !mine x), waiting := s.nose.waiting.filter (fun x => !mine x),
                                 bulk := s.nose.bulk.filter (fun x => !mine x), behind := s.nose.behind.filter (fun h => decide (h.fn ≠ f)) } }

/-- Every slot of a tenant is erased without a KEY_ERASE. -/
def eraseSlots (t : Nat) (s : State) : State := (slotsOf s t).foldl (fun s i => eraseSlot i false s) s

/-- The tenant has conferences, trunks or images. -/
def holdsObjects (s : State) (t : Nat) : Bool :=
  (s.obj.confs.live.any fun (_, k) => decide (k.tenant = t)) || (s.obj.trunks.live.any fun (_, k) => decide (k.tenant = t)) ||
  s.obj.images.live.any fun (_, k) => decide (k.tenant = t)

/-- Destroy a tenant: its slots are erased and returned with its other reserved limits. -/
def destroyTenant (n : Nat) (s : State) : State :=
  let s := eraseSlots n s
  let s := returnSlots (slotsOf s n) s
  setTenants (·.free n) (dropObj (handleOf s tyTenant n) (dropRings n s))

/-- TENANT_DESTROY. -/
def ruleTenantDestroy : CmdRule where
  op := 0x0203
  t0 := true
  logged := true
  bulk := true
  types := [tyTenant]
  anyTenant := true
  states c s := [stateFail (decide (tenIdx c = 0) || holdsObjects s (tenIdx c)) c.object]
  effect c s := ({}, destroyTenant (tenIdx c) s)

def execTenantDestroy (c : Cmd) (s : State) : Host.Outcome State Fault Refusal := issue ruleTenantDestroy c s

def ruleTenantQuery : CmdRule := queryRule 0x0204 [tyTenant] true

def execTenantQuery (c : Cmd) (s : State) : Host.Outcome State Fault Refusal := issue ruleTenantQuery c s

/-! ### TENANT_ROUTE (R45) -/

def ruleTenantRoute : CmdRule where
  op := 0x0205
  logged := true
  plen := .fixed 4
  types := [tyTenant]
  fields c _ :=
    let r := c.u16 16
    [failIf (decide (r ≠ 0) && (decide (r < 64) || decide (16383 < r))) stRange 16, reservedAt c 18 2 1,
     failIf (bit (c.u16 18) 0 && decide (r = 0)) stRange 18]
  states c s := [failIf (!followsLog s && decide (c.u16 16 ≠ 0) && !isExtraction s c.fn.val (c.u16 16)) stState 16]
  effect c s := ({}, updTenant (tenIdx c) (fun t => { t with excRing := c.u16 16, unmatchedStun := bit (c.u16 18) 0 }) s)

def execTenantRoute (c : Cmd) (s : State) : Host.Outcome State Fault Refusal := issue ruleTenantRoute c s

/-! ### Function-level reset of a tenant (R461) -/

/-- Steps 2, 3 and 5: the tenant's objects, slots, map, meter and routes. Images go once no conference uses them. -/
def flrTenant (n : Nat) (s : State) : State :=
  let s := (tfilter s.obj.confs.live fun _ k => decide (k.tenant = n) && !k.closing).foldl (fun s (i, _) => closeConf i s) s
  let s := (tfilter s.obj.trunks.live fun _ k => decide (k.tenant = n)).foldl (fun s (i, _) => freeTrunk i s) s
  let s := dropLeaving (setImages (fun t => { t with live := tmap t.live fun _ k => if k.tenant = n then { k with leaving := true } else k }) s)
  let s := eraseSlots n s
  updTenant n (fun t => { t with dscp := [], meter := none, excRing := 0, unmatchedStun := false }) s

end Sys2Proof.Machine
end

