-- ==== Sys2Proof/Machine/Time.lean ====
section
/-! DEFINITION. The Time Unit: corrections, the servo, PPS, and the time commands (R393-R402, R404-R408, R410, R414). -/

namespace Sys2Proof.Machine

def setTim (f : Tim → Tim) (s : State) : State := { s with tim := f s.tim }

/-- A 96-bit two's complement value (R394). -/
def wrap96 (x : Int) : Int := sext 96 (wrapInt 96 x)

/-- Largest magnitude of a rate (R394). -/
def maxRate : Int := 2 ^ 38

/-- Change R or S, with the offset folded so that time is continuous (R395). -/
def foldRate (f : Tim → Tim) (s : State) : State :=
  let t := s.tim
  let n := f t
  let c : Int := t.c
  { s with tim := { n with o := wrap96 (t.o + c * (t.r + t.s) / 2 ^ 16 - c * (n.r + n.s) / 2 ^ 16) } }

/-- Set the rate R (R395). -/
def setRate (r : Int) : State → State := foldRate fun t => { t with r := r }

/-- Add to the offset at once (R397). -/
def addOffset (d : Int) : State → State := setTim fun t => { t with o := wrap96 (t.o + d) }

/-- No conference and no trunk exists (R397). -/
def noMedia (s : State) : Bool := s.obj.confs.live.isEmpty && s.obj.trunks.live.isEmpty

/-- TIM_STATUS (Table 15-7). -/
def timStatus (t : Tim) : Word :=
  BitVec.ofNat 32 (b2n t.follow * 512 + b2n t.refclkLost * 256 + b2n t.ppsLost * 128 + b2n t.slew.isSome * 64 + b2n t.holdover * 32 +
    b2n (decide (3 ≤ t.good)) * 16 + t.role % 4 * 4 + b2n t.tc * 2 + b2n t.stepped)

/-! ### Steps, slews and rates (R397-R401) -/

/-- Δ of TIME_STEP in 2^-32 ns. -/
def stepDelta (c : Cmd) : Int := sext 64 (c.u64 16) * 2 ^ 32 + (c.u32 24 : Nat)

/-- The extra rate of a slew (R399). -/
def slewRate (d : Int) : Int := if d = 0 then 0 else if d < 0 then -(2 ^ 34) else 2 ^ 34

/-- Start a slew by Δ; one of 0 is over at once. -/
def startSlew (d : Int) (s : State) : State :=
  if d = 0 then s else foldRate (fun t => { t with s := slewRate d, slew := some (d, t.c) }) s

/-- What a slew by d that began at counter value c0 has added (R399). -/
def slewAdded (s : State) (d : Int) (c0 : Nat) : Int := ((s.tim.c : Int) - c0) * slewRate d / 2 ^ 16

/-- End a slew that has added at least |Δ|: S goes, and what it added beyond Δ is subtracted (R399). -/
def endSlew (s : State) : State :=
  match s.tim.slew with
  | none => s
  | some (d, c0) =>
    if (slewAdded s d c0).natAbs < d.natAbs then s
    else addOffset (d - slewAdded s d c0) (foldRate (fun t => { t with s := 0, slew := none }) s)

/-- SLEW_END. -/
def execSlewEnd (s : State) : Host.Outcome State Fault Refusal := done s (endSlew s)

/-- TIME_STEP (R398, Table 15-1): the first row that applies decides. -/
def ruleTimeStep : CmdRule where
  op := 0x0A01
  t0 := true
  logged := true
  plen := .fixed 16
  fields c _ := [padAt c 28 4]
  states c s :=
    let t := s.tim
    let d := stepDelta c
    [failIf (decide (t.role = 1)) stState 0, failIf (!t.stepped && !noMedia s) stState 0, failIf (t.stepped && t.slew.isSome) stState 0,
     failIf (t.stepped && decide ((t.jumpLimit : Int) * 2 ^ 32 < d.natAbs)) stTimeRefused 0, failIf (t.stepped && decide (t.role = 2)) stState 0,
     failIf (t.stepped && decide (maxRate < (t.r + slewRate d).natAbs)) stRange 16]
  effect c s :=
    let t := s.tim
    let d := stepDelta c
    ({}, if ¬ t.stepped then
        if t.role = 2 then setTim (fun t => { t with heldStep := some d }) s
        else setTim (fun t => { t with stepped := true, holdover := false }) (addOffset d s)
      else startSlew d (setTim (fun t => { t with holdover := false }) s))

def execTimeStep (c : Cmd) (s : State) : Host.Outcome State Fault Refusal := issue ruleTimeStep c s

/-- TIME_RATE (R400). -/
def ruleTimeRate : CmdRule where
  op := 0x0A02
  t0 := true
  logged := true
  plen := .fixed 8
  fields c s :=
    let r := sext 64 (c.u64 16)
    [failIf (decide (maxRate < r.natAbs) || decide (maxRate < (r + s.tim.s).natAbs)) stRange 16]
  states _ s := [failIf (decide (s.tim.role ≠ 0)) stState 0]
  effect c s := ({}, setRate (sext 64 (c.u64 16)) s)

def execTimeRate (c : Cmd) (s : State) : Host.Outcome State Fault Refusal := issue ruleTimeRate c s

/-- TIME_QUERY (R396). -/
def ruleTimeQuery : CmdRule where
  op := 0x0A03
  effect _ s := ({ res := [BitVec.ofNat 32 (nowNs s), BitVec.ofNat 32 (nowNs s / 2 ^ 32), BitVec.ofNat 32 (nowFrac s), timStatus s.tim] }, s)

def execTimeQuery (c : Cmd) (s : State) : Host.Outcome State Fault Refusal := issue ruleTimeQuery c s

/-! ### PTP_CONFIG (R405) -/

/-- A signed byte. -/
def Cmd.i8 (c : Cmd) (off : Nat) : Int := sext 8 (c.u8 off)

/-- The settings of the block. A role that is entered starts Ri at R (R407). -/
def ptpApply (c : Cmd) (t : Tim) : Tim :=
  let f := c.u8 68
  let t := if c.u8 64 = t.role then t else { t with
      ri := t.r, good := 0, master := none, lastSync := none, syncWait := none, syncDelta := none, heldStep := none, ppsLost := false }
  { t with role := c.u8 64, domain := c.u8 65, p2p := decide (c.u8 66 = 1), udp := decide (c.u8 67 = 1), tc := bit f 0, as := bit f 1,
           logSync := Cmd.i8 c 69, logAnnounce := Cmd.i8 c 70, announceTimeout := c.u8 71, slaveMask := BitVec.ofNat 8 (c.u8 72),
           tcMask := BitVec.ofNat 8 (c.u8 73), masterMask := BitVec.ofNat 8 (c.u8 74), priority1 := BitVec.ofNat 8 (c.u8 75),
           priority2 := BitVec.ofNat 8 (c.u8 76), clockClass := BitVec.ofNat 8 (c.u8 77), jumpLimit := c.u32 80 }

def rulePtpConfig : CmdRule where
  op := 0x0A04
  t0 := true
  logged := true
  plen := .ext 64
  zeroFields c _ := [zeroAt c 80 4]
  fields c _ :=
    let f := c.u8 68
    [rangeAt c 64 1 0 2, rangeAt c 65 1 0 127, rangeAt c 66 1 0 1, rangeAt c 67 1 0 1, reservedAt c 68 1 2,
     failIf (bit f 1 && !(decide (c.u8 67 = 0) && decide (c.u8 66 = 1))) stRange 68,
     failIf (decide (Cmd.i8 c 69 < -7) || decide (1 < Cmd.i8 c 69)) stRange 69,
     failIf (decide (Cmd.i8 c 70 < -3) || decide (3 < Cmd.i8 c 70)) stRange 70,
     rangeAt c 71 1 2 10, padAt c 78 2, rangeAt c 80 4 100 1000000, padAt c 84 44]
  effect c s := ({}, setTim (ptpApply c) s)

def execPtpConfig (c : Cmd) (s : State) : Host.Outcome State Fault Refusal := issue rulePtpConfig c s

/-! ### PPS_CONFIG, PORT_TS_COMP (R404, R410) -/

def rulePpsConfig : CmdRule where
  op := 0x0A05
  t0 := true
  plen := .fixed 12
  zeroFields c _ := [zeroAt c 20 4]
  fields c _ := [reservedAt c 16 4 2, rangeAt c 20 4 100 500000000, rangeAt c 24 4 0 999999999]
  effect c s := ({}, setTim (fun t => { t with ppsOn := bit (c.u32 16) 0, ppsFalling := bit (c.u32 16) 1, ppsWidth := c.u32 20,
                                               ppsPhase := c.u32 24 }) s)

def execPpsConfig (c : Cmd) (s : State) : Host.Outcome State Fault Refusal := issue rulePpsConfig c s

def rulePortTsComp : CmdRule where
  op := 0x0A06
  t0 := true
  logged := true
  plen := .fixed 16
  fields c _ := [rangeAt c 16 1 0 7, padAt c 17 3]
  effect c s := ({}, modPort (c.u8 16) (fun p => { p with tsIngress := c.hdl 20, tsEgress := c.hdl 24, tsAsym := c.hdl 28 }) s)

def execPortTsComp (c : Cmd) (s : State) : Host.Outcome State Fault Refusal := issue rulePortTsComp c s

/-! ### The servo (R401, R407) -/

/-- Whole nanoseconds of a value in 2^-16 ns, signed and saturated to 32 bits; the fraction is dropped (DEDUCED, log entry 39). -/
def wholeNs (theta : Int) : Nat := wrapInt 32 (clampI (-(2 ^ 31)) (2 ^ 31 - 1) (theta.tdiv 65536))

/-- The clock holds over on the accepted rate. -/
def holdOver (s : State) : State := setTim (fun t => { t with holdover := true, good := 0 }) (setRate s.tim.ri s)

/-- Refuse a measurement: counted, and reported at most once a second (R401). -/
def refuseTheta (theta : Int) (s : State) : State :=
  let s := count1 (timCtr 0x20) s
  let due : Bool := match s.tim.refusedAt with
    | some t => decide (t + 1000000000 ≤ nowNs s)
    | none => true
  holdOver (if due then postDevice evTimeRefused (wholeNs theta) 0 (setTim (fun t => { t with refusedAt := some (nowNs s) }) s) else s)

/-- How many of the last three Syncs were accepted with |θ| at most 100 ns (R407). -/
def goodNow (theta : Int) (n : Nat) : Nat := if theta.natAbs ≤ 100 * 65536 then (if n < 3 then n + 1 else 3) else 0

/-- An accepted measurement steers by rate (R407). -/
def steer (theta : Int) (ts : Nat) (s : State) : State :=
  let ri := clampI (-maxRate) maxRate (s.tim.ri + (theta * 2 ^ 48).tdiv (64 * ts))
  let r := clampI (-maxRate) maxRate (ri + (theta * 2 ^ 48).tdiv (8 * ts))
  setTim (fun t => { t with
    ri := ri
    holdover := false
    good := goodNow theta t.good }) (setRate r s)

/-- One measurement of the servo: θ and the interval in 2^-16 ns. The step of the first line belongs to role 1 (R397; DEDUCED, log entry 39). -/
def servo (theta : Int) (ts : Nat) (s : State) : State :=
  let s := setTim (fun t => { t with lastTheta := BitVec.ofNat 32 (wholeNs theta) }) s
  if ¬ s.tim.stepped ∧ s.tim.role = 1 ∧ noMedia s then
    setTim (fun t => { t with stepped := true, holdover := false, good := goodNow theta t.good }) (addOffset (theta * 2 ^ 16) s)
  else if (s.tim.jumpLimit : Int) * 65536 < theta.natAbs then refuseTheta theta s
  else steer theta ts s

/-! ### PPS (R398, R408, R410) -/

/-- The level of PPS_OUT: high for its width from its phase after each whole second of network time on (Table 15-4). -/
def ppsOut (s : State) : Bool := s.tim.ppsOn && decide ((nowNs s + 1000000000 - s.tim.ppsPhase) % 1000000000 < s.tim.ppsWidth)

/-- One second in 2^-16 ns. -/
def oneSecond : Nat := 65536000000000

/-- The whole second nearest to a time-stamp; a half second rounds up. -/
def nearestSecond (stamp : Int) : Int := divRound stamp oneSecond * oneSecond

/-- An edge of PPS_IN: counted and time-stamped; in role 2 it takes a held step or runs the servo. -/
def ppsEdge (s : State) : State :=
  let stamp := nowStamp s
  let s := count1 (timCtr 0x24) (setTim (fun t => { t with lastEdge := some stamp, ppsLost := false }) s)
  if s.tim.role ≠ 2 ∨ s.tim.follow then s
  else match s.tim.heldStep with
    | some d =>
      if noMedia s ∧ ¬ s.tim.stepped then
        let t := now32 s
        let goal := divRound (t + d) (1000000000 * 2 ^ 32) * (1000000000 * 2 ^ 32)
        setTim (fun t => { t with stepped := true, heldStep := none, holdover := false }) (addOffset (goal - t) s)
      else servo (stamp - nearestSecond stamp) oneSecond s
    | none => servo (stamp - nearestSecond stamp) oneSecond s

/-- PPS_IN_EDGE. -/
def execPpsInEdge (s : State) : Host.Outcome State Fault Refusal := done s (ppsEdge s)

/-- 1.5 s have passed since the last edge of PPS_IN; without any edge there is none to measure from (R408). -/
def ppsOverdue (s : State) : Bool := (s.tim.lastEdge.map fun e => decide (e + 3 * oneSecond / 2 ≤ nowStamp s)).getD false

/-- No edge within 1.5 s: posted once, and the clock holds over (R408). -/
def losePps (s : State) : State :=
  if s.tim.role ≠ 2 ∨ s.tim.follow ∨ s.tim.ppsLost ∨ ¬ ppsOverdue s then s
  else holdOver (postDevice evPpsLost 0 0 (setTim (fun t => { t with ppsLost := true }) s))

/-- PPS_LOST. -/
def execPpsLost (s : State) : Host.Outcome State Fault Refusal := done s (losePps s)

/-- The announce receipt timeout in ms: so many intervals of 2^logAnnounce s (Table 15-3). -/
def announceMs (t : Tim) : Nat :=
  t.announceTimeout * (if t.logAnnounce < 0 then 1000 / 2 ^ (-t.logAnnounce).toNat else 1000 * 2 ^ t.logAnnounce.toNat)

/-- No Announce of the master has come within the receipt timeout. -/
def announceOverdue (s : State) : Bool := decide (s.tim.lastAnnounce + announceMs s.tim ≤ nowMs s)

/-- ANNOUNCE_TIMEOUT: the master is lost, and the clock holds over (R406). -/
def loseMaster (s : State) : State :=
  if s.tim.role = 1 ∧ s.tim.master.isSome ∧ ¬ s.tim.follow ∧ announceOverdue s then holdOver (setTim (fun t => { t with master := none }) s) else s

def execAnnounceTimeout (s : State) : Host.Outcome State Fault Refusal := done s (loseMaster s)

end Sys2Proof.Machine
end

