-- ==== Sys2Proof/Machine/Ptp.lean ====
section
/-! DEFINITION. PTP messages: the best master, delay measurement, the grandmaster's messages and the transparent clock (R405-R409). Message
layouts and the data set comparison are those of IEEE 1588-2019 (PRESUMED, log entry 38). -/

namespace Sys2Proof.Machine

/-! ### Where a PTP message stands in a frame -/

/-- Offset of the EtherType behind an optional tag. -/
def etherOff (f : List Byte) : Nat := if beAt f 12 2 = 0x8100 then 16 else 12

/-- UDP over IPv4: offset of the UDP header. -/
def udpOff (f : List Byte) : Option Nat :=
  let l := etherOff f + 2
  if beAt f (l - 2) 2 = 0x0800 ∧ beAt f l 1 / 16 = 4 ∧ beAt f (l + 9) 1 = 17 then some (l + 4 * (beAt f l 1 % 16)) else none

/-- UDP over IPv6. -/
def udpOff6 (f : List Byte) : Option Nat :=
  let l := etherOff f + 2
  if beAt f (l - 2) 2 = 0x86DD ∧ beAt f (l + 6) 1 = 17 then some (l + 40) else none

/-- A UDP destination port of PTP. -/
def isPtpPort (p : Nat) : Bool := p == 319 || p == 320

/-- Offset of the PTP message over the given transport. -/
def ptpOff (udp : Bool) (f : List Byte) : Option Nat :=
  if udp then (udpOff f).bind fun o => if isPtpPort (beAt f (o + 2) 2) then some (o + 8) else none
  else if beAt f (etherOff f) 2 = 0x88F7 then some (etherOff f + 2) else none

/-- The frame is a PTP frame of any transport. -/
def isPtp (f : List Byte) : Bool :=
  (ptpOff false f).isSome || (ptpOff true f).isSome || ((udpOff6 f).map fun o => isPtpPort (beAt f (o + 2) 2)).getD false

/-- The Time Unit takes the frame: its message, when transport and domain are the configured ones (R99, R405). -/
def ptpTaken (t : Tim) (f : List Byte) : Option Nat :=
  if t.role = 0 ∧ ¬ t.tc then none
  else (ptpOff t.udp f).bind fun o => if beAt f (o + 4) 1 = t.domain ∧ beAt f (o + 1) 1 % 16 = 2 then some o else none

/-! ### Fields of a message -/

/-- messageType. -/
def ptpType (m : List Byte) : Nat := beAt m 0 1 % 16

/-- correctionField, 2^-16 ns. -/
def ptpCorr (m : List Byte) : Int := sext 64 (beAt m 8 8)

/-- A time-stamp of ten bytes in 2^-16 ns. -/
def ptpTime (m : List Byte) (off : Nat) : Int := ((beAt m off 6 * 1000000000 + beAt m (off + 6) 4) * 65536 : Nat)

/-- twoStepFlag. -/
def ptpTwoStep (m : List Byte) : Bool := bit (beAt m 6 1) 1

def ptpSeq (m : List Byte) : Nat := beAt m 30 2

/-- sourcePortIdentity: identity and port number. -/
def ptpSource (m : List Byte) : Nat × Nat := (beAt m 20 8, beAt m 28 2)

/-- Ten bytes of a time-stamp in 2^-16 ns, without its fraction. -/
def stampBytes (t : Nat) : List Byte := beBytes 6 (t / 65536 / 1000000000) ++ beBytes 4 (t / 65536 % 1000000000)

/-- The identity of the device's clock, from its MAC address base. -/
def clockId (s : State) : Nat :=
  let m := s.mon.macBase.toNat
  m / 2 ^ 24 * 2 ^ 40 + 0xFFFE * 2 ^ 24 + m % 2 ^ 24

/-- The frame with x added to the correctionField of the message at o; over UDP the checksum becomes 0 (R409). -/
def addCorr (udp : Bool) (o : Nat) (x : Int) (f : List Byte) : List Byte :=
  let f := patch f (o + 8) (beBytes 8 (wrapInt 64 (sext 64 (beAt f (o + 8) 8) + x)))
  if udp then patch f (o - 2) [0, 0] else f

/-! ### Sending -/

/-- Priority of a frame: the PCP of its tag, 0 for an untagged one (R110). -/
def framePrio (f : List Byte) : Nat := if beAt f 12 2 = 0x8100 then beAt f 14 1 / 32 else 0

/-- Queue a PTP frame on a port, ahead of all media at gate priority 7 (R409). -/
def pushPtp (port : Nat) (act : PtpAct) (f : List Byte) : State → State := modPort port fun p =>
  { p with tx := p.tx.takeWhile (fun x => x.mark.isNone) ++
      { bytes := f, prio := framePrio f, gate := 7, mark := none, ptp := some act, tenant := 0 } :: p.tx.dropWhile (fun x => x.mark.isNone) }

/-- A message of the device on a port, without FCS. -/
def ptpFrame (s : State) (port : Nat) (m : List Byte) : List Byte :=
  let pdelay := ptpType m = 2 ∨ ptpType m = 3
  if s.tim.udp then
    let dst : List Byte := if pdelay then [224, 0, 0, 107] else [224, 0, 1, 129]
    let mac : List Byte := if pdelay then [0x01, 0x00, 0x5E, 0x00, 0x00, 0x6B] else [0x01, 0x00, 0x5E, 0x00, 0x01, 0x81]
    let udp := if ptpType m < 4 then 319 else 320
    let t : Transport := { laddr := beBytes 4 (Config.ptpField 4).toNat, raddr := dst, lport := udp, rport := udp, v6 := false, port := 0, vid := 0,
                           pcp := 0, ctrl := 0 }
    patch (t.head (portOf s port).addr 0 m) 0 mac ++ m
  else
    let mac : List Byte := if pdelay then [0x01, 0x80, 0xC2, 0x00, 0x00, 0x0E] else [0x01, 0x1B, 0x19, 0x00, 0x00, 0x00]
    mac ++ beBytes 6 (portOf s port).addr.toNat ++ [0x88, 0xF7] ++ m

/-- A message header with its body. -/
def ptpMsg (s : State) (port ty : Nat) (corr : Int) (seq : Nat) (log : Int) (body : List Byte) : List Byte :=
  let control := if ty = 0 then 0 else if ty = 1 then 1 else if ty = 8 then 2 else if ty = 9 then 3 else 5
  [BitVec.ofNat 8 (b2n s.tim.as * 16 + ty), 2] ++ beBytes 2 (34 + body.length) ++ [BitVec.ofNat 8 s.tim.domain, 0, 0, 0] ++
    beBytes 8 (wrapInt 64 corr) ++ [0, 0, 0, 0] ++ beBytes 8 (clockId s) ++ beBytes 2 (port + 1) ++ beBytes 2 seq ++
    [BitVec.ofNat 8 control, BitVec.ofNat 8 (wrapInt 8 log)] ++ body

/-- The body of Announce; clockClass is 7 in holdover (R408). -/
def announceBody (s : State) : List Byte :=
  let f := fun i n => beBytes n (Config.ptpField i).toNat
  List.replicate 10 0 ++ f 3 2 ++ [0, s.tim.priority1, if s.tim.holdover then 7 else s.tim.clockClass] ++ f 0 1 ++ f 1 2 ++ [s.tim.priority2] ++
    beBytes 8 (clockId s) ++ [0, 0] ++ f 2 1

/-- Send one message of the device. -/
def sendPtp (port ty : Nat) (act : PtpAct) (corr log : Int) (body : List Byte) (s : State) : State :=
  pushPtp port act (ptpFrame s port (ptpMsg s port ty corr s.tim.txSeq.toNat log body)) (setTim (fun t => { t with txSeq := t.txSeq + 1 }) s)

/-- PTP_TRANSMIT: the messages that the role sends on a port (R406, R408). A device that follows a log sends none (R414). -/
def ptpSend (port : Nat) (kind : PtpTx) (s : State) : State :=
  let t := s.tim
  if t.follow ∨ ¬ drivesPorts s ∨ ¬ portExists s port then s
  else match kind with
    | .announce => if t.role = 2 ∧ t.masterMask.getLsbD port then sendPtp port 0xB .plain 0 t.logAnnounce (announceBody s) s else s
    | .sync => if t.role = 2 ∧ t.masterMask.getLsbD port then sendPtp port 0 .origin 0 t.logSync (List.replicate 10 0) s else s
    | .delayReq =>
      if t.role = 1 ∧ ¬ t.p2p ∧ t.slaveMask.getLsbD port then
        sendPtp port 1 .request (-(portOf s port).tsAsym.toInt) 0x7F (List.replicate 10 0) s
      else s
    | .pdelayReq =>
      if t.p2p ∧ ((t.role = 1 ∧ t.slaveMask.getLsbD port) ∨ (t.tc ∧ t.tcMask.getLsbD port)) then
        sendPtp port 2 .request 0 0x7F (List.replicate 20 0) s
      else s

def execPtpTransmit (port : PortNo) (kind : PtpTx) (s : State) : Host.Outcome State Fault Refusal := done s (ptpSend port.val kind s)

/-! ### As a message leaves (R409) -/

/-- A Follow_Up leaves a port, behind its Sync: the residence of the Sync with its sequenceId is added, unless it arrived more than 1 s after the Sync, which
is counted. -/
def departFollowUp (o rx : Nat) (link : Int) (port : Nat) (f : List Byte) (s : State) : List Byte × State :=
  let q := BitVec.ofNat 16 (ptpSeq (f.drop o))
  let mine := fun (e : OwedFollowUp) => e.seqId == q && decide (e.port = port)
  match s.tim.followUps.find? mine with
  | none => (f, s)
  | some e =>
    let s := setTim (fun t => { t with followUps := t.followUps.filter fun x => !mine x }) s
    if e.at_ + 1000000000 < rx / 65536 then (f, count1 (timCtr 0x28) s) else (addCorr s.tim.udp o ((e.residence : Int) + link) f, s)

/-- The frame as it leaves a port at a transmit time-stamp, and what the device keeps of that instant. -/
def departPtp (act : PtpAct) (port stamp : Nat) (f : List Byte) (s : State) : List Byte × State :=
  match ptpOff s.tim.udp f with
  | none => (f, s)
  | some o =>
    let m := f.drop o
    let res := fun (rx : Nat) (s : State) => modPort port (fun p => { p with residence := BitVec.ofNat 32 (stamp - rx) }) s
    match act with
    | .plain => (f, s)
    | .correct rx => (addCorr s.tim.udp o ((stamp : Int) - rx) f, res rx s)
    | .twoStep rx =>
      let q := BitVec.ofNat 16 (ptpSeq m)
      (f, setTim (fun t => { t with followUps := t.followUps.filter (fun e => !(e.seqId == q && decide (e.port = port))) ++
        [{ seqId := q, port := port, residence := stamp - rx, at_ := rx / 65536 }] }) (res rx s))
    | .followUp rx link => departFollowUp o rx link port f s
    | .origin => (addCorr s.tim.udp o (stamp % 65536 : Nat) (patch f (o + 34) (stampBytes stamp)), s)
    | .request => (f, setTim (fun t => { t with delayReq := tput t.delayReq port (ptpSeq m, stamp) }) s)

/-! ### The slave (R406) -/

/-- The data set of an Announce on a port, in the order of comparison, lower better. -/
def announceSet (port : Nat) (m : List Byte) : List Nat :=
  [beAt m 47 1, beAt m 48 1, beAt m 49 1, beAt m 50 2, beAt m 52 1, beAt m 53 8, beAt m 61 2, (ptpSource m).1, (ptpSource m).2, port]

/-- Lexicographic order. -/
def better : List Nat → List Nat → Bool
  | a :: r, b :: q => if a < b then true else if b < a then false else better r q
  | _, _ => false

/-- Sender and port of a data set. -/
def sameSender (a b : List Nat) : Bool := decide (a.drop 7 = b.drop 7)

/-- An Announce: a better master is selected at once, and the selected one is refreshed (Table 15-5). -/
def takeAnnounce (port : Nat) (m : List Byte) (s : State) : State :=
  let d := announceSet port m
  if ¬ s.tim.slaveMask.getLsbD port ∨ (ptpSource m).1 = clockId s ∨ 255 ≤ beAt m 61 2 then s
  else
    let pick := setTim fun t => { t with master := some d, masterPort := port, lastAnnounce := nowMs s }
    match s.tim.master with
    | none => pick s
    | some old => if sameSender old d ∨ better d old then pick s else s

/-- The message comes from the selected master on its port. -/
def fromMaster (port : Nat) (m : List Byte) (s : State) : Bool :=
  match s.tim.master with
  | some d => decide (s.tim.masterPort = port) && decide (d.getD 7 0 = (ptpSource m).1) && decide (d.getD 8 0 = (ptpSource m).2)
  | none => false

/-- A complete Sync: t2 less the corrected origin gives θ, and the time since the last one Ts. Before any other Sync, Ts is a free value
(log entry 2). -/
def measure (port : Nat) (t2 : Nat) (origin corr : Int) (s : State) : State :=
  let delta := (t2 : Int) - origin - corr
  let path : Int := if s.tim.p2p then ((portOf s port).linkDelay : Int) else s.tim.pathDelay
  let (ts, s) := match s.tim.lastSync with
    | some last => (t2 - last, s)
    | none => let (v, s) := drawFree s; (v, s)
  servo (delta - path) ts (setTim (fun t => { t with lastSync := some t2, syncDelta := some delta, syncWait := none }) s)

/-- Sync and Follow_Up from the master. -/
def takeSync (port stamp : Nat) (m : List Byte) (s : State) : State :=
  if ¬ fromMaster port m s then s
  else
    let corr := ptpCorr m + (portOf s port).tsAsym.toInt
    if ptpTwoStep m then setTim (fun t => { t with syncWait := some (ptpSeq m, stamp, corr) }) s
    else measure port stamp (ptpTime m 34) corr s

def takeFollowUp (port : Nat) (m : List Byte) (s : State) : State :=
  match s.tim.syncWait with
  | some (q, t2, corr) => if fromMaster port m s ∧ q = ptpSeq m then measure port t2 (ptpTime m 34) (corr + ptpCorr m) s else s
  | none => s

/-- The message answers the device's own request on the port. -/
def answersUs (port off : Nat) (m : List Byte) (s : State) : Option Nat :=
  match tget s.tim.delayReq port with
  | some (q, t) => if q = ptpSeq m ∧ beAt m off 8 = clockId s ∧ beAt m (off + 8) 2 = port + 1 then some t else none
  | none => none

/-- Delay_Resp: the mean path delay (end-to-end). -/
def takeDelayResp (port : Nat) (m : List Byte) (s : State) : State :=
  match answersUs port 44 m s, s.tim.syncDelta with
  | some t3, some d =>
    setTim (fun t => { t with pathDelay := (d + (ptpTime m 34 - t3 - ptpCorr m)) / 2, delayReq := tdel t.delayReq port }) s
  | _, _ => s

/-- Set the measured link delay of a port. -/
def setLinkDelay (port : Nat) (roundTrip : Int) (s : State) : State :=
  modPort port (fun p => { p with linkDelay := (roundTrip / 2).toNat })
    (setTim (fun t => { t with delayReq := tdel t.delayReq port, delayWait := tdel t.delayWait port }) s)

/-- Pdelay_Resp and its Follow_Up: the link delay of the port (peer-to-peer). -/
def takePdelayResp (port stamp : Nat) (m : List Byte) (s : State) : State :=
  match answersUs port 44 m s with
  | some t1 =>
    let trip := (stamp : Int) - t1 - ptpCorr m
    if ptpTwoStep m then setTim (fun t => { t with delayWait := tput t.delayWait port (ptpSeq m, trip + ptpTime m 34) }) s
    else setLinkDelay port trip s
  | none => s

def takePdelayFollowUp (port : Nat) (m : List Byte) (s : State) : State :=
  match answersUs port 44 m s, tget s.tim.delayWait port with
  | some _, some (q, x) => if q = ptpSeq m then setLinkDelay port (x - ptpTime m 34 - ptpCorr m) s else s
  | _, _ => s

/-! ### Requests of others -/

/-- Delay_Req at the grandmaster: Delay_Resp with its receive time. -/
def answerDelayReq (port stamp : Nat) (m : List Byte) (s : State) : State :=
  pushPtp port .plain (ptpFrame s port (ptpMsg s port 9 (ptpCorr m - (stamp % 65536 : Nat)) (ptpSeq m) 0
    (stampBytes stamp ++ slice m 20 10))) s

/-- Pdelay_Req: a one-step Pdelay_Resp whose correctionField takes the turnaround (R409). -/
def answerPdelayReq (port stamp : Nat) (m : List Byte) (s : State) : State :=
  pushPtp port (.correct stamp) (ptpFrame s port (ptpMsg s port 3 (ptpCorr m) (ptpSeq m) 0x7F (List.replicate 10 0 ++ slice m 20 10))) s

/-! ### The transparent clock (R409) -/

/-- The other ports of the transparent clock that are up. -/
def tcPorts (s : State) (port : Nat) : List Nat :=
  (List.range 8).filter fun p => decide (p ≠ port) && s.tim.tcMask.getLsbD p && portExists s p && (portOf s p).link

/-- Forward a message onto one port. -/
def forwardPtp (stamp o : Nat) (link : Int) (f : List Byte) (p : Nat) (s : State) : State :=
  let m := f.drop o
  match ptpType m with
  | 0 => if ptpTwoStep m then pushPtp p (.twoStep stamp) f s
    else pushPtp p (.correct stamp) (if link = 0 then f else addCorr s.tim.udp o link f) s
  | 1 => pushPtp p (.correct stamp) f s
  | 2 => if s.tim.p2p then s else pushPtp p (.correct stamp) f s
  | 3 => if s.tim.p2p then s else pushPtp p (.correct stamp) f s
  | 8 => pushPtp p (.followUp stamp link) f s
  | 9 => pushPtp p (.correct stamp) f s
  | 0xA => if s.tim.p2p then s else pushPtp p .plain f s
  | _ => pushPtp p .plain f s

/-- The device's own clock takes a message. -/
def ownClock (port stamp : Nat) (m : List Byte) (s : State) : State :=
  let t := s.tim
  match ptpType m with
  | 0 => if t.role = 1 then takeSync port stamp m s else s
  | 1 => if t.role = 2 ∧ ¬ t.p2p ∧ t.masterMask.getLsbD port then answerDelayReq port stamp m s else s
  | 2 => if t.p2p then answerPdelayReq port stamp m s else s
  | 3 => if t.p2p then takePdelayResp port stamp m s else s
  | 8 => if t.role = 1 then takeFollowUp port m s else s
  | 9 => if t.role = 1 ∧ ¬ t.p2p then takeDelayResp port m s else s
  | 0xA => if t.p2p then takePdelayFollowUp port m s else s
  | 0xB => if t.role = 1 then takeAnnounce port m s else s
  | _ => s

/-- A PTP frame without FCS that the Time Unit takes, received on a port at a time-stamp: the transparent clock forwards it, and the device's
own clock takes it. -/
def takePtp (port stamp o : Nat) (f : List Byte) (s : State) : State :=
  let s := if s.tim.tc ∧ s.tim.tcMask.getLsbD port then
      let link : Int := if s.tim.p2p then ((portOf s port).linkDelay : Int) else 0
      (tcPorts s port).foldl (fun s p => forwardPtp stamp o link f p s) s
    else s
  ownClock port stamp (f.drop o) s

end Sys2Proof.Machine
end

