-- ==== Sys2Proof/Machine/Gates.lean ====
section
/-! DEFINITION. Gate schedules as they run: which gates are open at a time, when one closes next, and what may start (R172-R175). -/

namespace Sys2Proof.Machine

/-- The entry that runs at an offset into the cycle. -/
def entryAt : List (Byte × Nat) → Nat → Byte
  | [], _ => 0xFF
  | [e], _ => e.1
  | e :: r, off => if off < e.2 then e.1 else entryAt r (off - e.2)

/-- Open gates of a schedule at time t, ns (R173). -/
def GatePlan.openAt (g : GatePlan) (t : Nat) : Byte :=
  match g.entries with
  | [] => 0xFF
  | (m, d) :: r =>
    let off := (t - g.base) % g.period
    if g.mode then entryAt ((m, d) :: r) off else if off < d then 0xFF else ~~~m

/-- Gates that the last entry of a schedule leaves (R174). -/
def GatePlan.lastOpen (g : GatePlan) : Byte :=
  match g.entries.getLast? with
  | none => 0xFF
  | some (m, _) => if g.mode then m else ~~~m

/-- The first boundary after an offset at which an entry closes a priority. -/
def closesFrom (prio off : Nat) : Nat → List (Byte × Nat) → Option Nat
  | _, [] => none
  | at_, e :: r => if off < at_ ∧ ¬ e.1.getLsbD prio then some at_ else closesFrom prio off (at_ + e.2) r

/-- The next instant after t at which a schedule closes a priority that is open at t; none while it never does. -/
def GatePlan.closeAfter (g : GatePlan) (prio t : Nat) : Option Nat :=
  match g.entries with
  | [] => none
  | (m, d) :: r =>
    let off := (t - g.base) % g.period
    if g.mode then (closesFrom prio off 0 (((m, d) :: r) ++ ((m, d) :: r))).map fun x => t - off + x
    else if m.getLsbD prio then some (t - off + d) else none

/-- The end of the cycle that a schedule is in at t. -/
def GatePlan.cycleEnd (g : GatePlan) (t : Nat) : Nat :=
  if g.entries.isEmpty then t else g.base + ((t - g.base) / g.period + 1) * g.period

/-- The gates of a port at time t: a finished schedule holds its last entry until the new one starts (R174). -/
def Port.gatesAt (x : Port) (t : Nat) : Byte :=
  let old := match x.gatePlan with
    | some g => g.openAt t
    | none => 0xFF
  match x.gateNext with
  | none => old
  | some n =>
    if n.start ≤ t then n.openAt t
    else if n.oldEnd ≤ t then (match x.gatePlan with
      | some g => g.lastOpen
      | none => 0xFF)
    else old

/-- The next instant after t at which a priority that is open closes (R175). -/
def Port.closeAfter (x : Port) (prio t : Nat) : Option Nat :=
  let old := x.gatePlan.bind fun g => g.closeAfter prio t
  match x.gateNext with
  | none => old
  | some n =>
    let next := if (n.openAt n.start).getLsbD prio then n.closeAfter prio n.start else some n.start
    let held := match x.gatePlan with
      | some g => g.lastOpen
      | none => 0xFF
    if n.start ≤ t then n.closeAfter prio t
    else match old with
      | some c => if c < n.oldEnd then some c else if held.getLsbD prio then next else some n.oldEnd
      | none => next

/-- A frame of `len` bytes may start on a port now under a gate priority: its gate is open, and its (L + 20) × 8 bits end by the next instant at which
the gate closes; in fixed guard mode every frame counts MAC_MAXLEN (R175). -/
def portAdmits (s : State) (port prio len : Nat) : Bool :=
  let x := portOf s port
  let fixed := match x.gatePlan with
    | some g => g.fixed
    | none => false
  let len := if fixed then x.maxLen else len
  x.gates.getLsbD prio && (match x.closeAfter prio (nowNs s) with
    | none => true
    | some t => decide (((len + 20) * 8 * 1000000 * 2 ^ 32 : Int) ≤ ((t * 2 ^ 32 : Nat) - now32 s) * (lineRate s port : Nat)))

end Sys2Proof.Machine
end

