-- ==== Sys2Proof/Machine/Ethernet.lean ====
section
/-! DEFINITION. Ethernet ports: modes, links, lane maps, receive checks and starvation, pause, transmission (R90-R115). -/

namespace Sys2Proof.Machine

/-! ### Links (R94-R96) -/

/-- Mode of the physical port of a logical port. -/
def portMode (s : State) (p : Nat) : Nat := (physOf s (p / 2)).mode

/-- A port goes down: EV_LINK_DOWN when it was up. -/
def dropLink (p : Nat) (s : State) : State :=
  let up := (portOf s p).link
  let s := modPort p (fun x => { x with link := false, fecLock := false, alignLock := false }) s
  if up then postDevice evLinkDown p 0 s else s

/-- A port comes up after 10 ms of lock: it exists, its lanes have power, and its lane map is valid. -/
def raiseLink (p : Nat) (s : State) : State :=
  if ¬ portExists s p ∨ portMode s p = 0 ∨ (physOf s (p / 2)).mapErr ∨ (portOf s p).link then s
  else postDevice evLinkUp p 0 (modPort p (fun x => { x with link := true, fecLock := true, alignLock := true }) s)

def execLinkUp (port : PortNo) (s : State) : Host.Outcome State Fault Refusal := done s (raiseLink port.val s)

def execLinkDown (port : PortNo) (s : State) : Host.Outcome State Fault Refusal := done s (dropLink port.val s)

/-- Take both links of a physical port down. -/
def dropPhys (n : Nat) (s : State) : State := dropLink (2 * n + 1) (dropLink (2 * n) s)

/-! ### PORT_CONFIG (R93, R94) -/

/-- MAC_TX_START as set: the next multiple of 256. -/
def txStartOf (v : Nat) : Nat := ceilDiv v 256 * 256

/-- The port as PORT_CONFIG sets it. -/
def configPort (c : Cmd) (p : Port) : Port :=
  { p with pln7200 := decide (c.u8 18 = 1), maxLen := c.u16 20, txStart := txStartOf (c.u16 22) }

/-- Every shaper at the logical ports of a physical port takes the credit earned at the rate up to now. -/
def refillPort (n : Nat) (s : State) : State :=
  let s := s.obj.legs.live.foldl (fun s (kv : Nat × Leg) => if kv.2.transport.port.val / 2 = n then refillShaper false kv.1 s else s) s
  s.obj.trunks.live.foldl (fun s (kv : Nat × Trunk) => if kv.2.transport.port.val / 2 = n then refillShaper true kv.1 s else s) s

/-- PORT_CONFIG names logical port 2p with a new mode. -/
def changesMode (c : Cmd) (s : State) : Bool := decide (c.u8 16 % 2 = 0) && decide (c.u8 17 ≠ portMode s (c.u8 16))

/-- PORT_CONFIG (R91-R94). Where logical port 2p + 1 names another mode, DETAIL is 0, and a MAC_TX_START that rounds to the present value changes
nothing and answers ST_OK_NOOP (DESIGN CHOICE, log entry 156). -/
def rulePortConfig : CmdRule where
  op := 0x0107
  t0 := true
  logged := true
  plen := .fixed 8
  zeroFields c _ := [zeroAt c 20 2, zeroAt c 22 2]
  fields c _ := [rangeAt c 16 1 0 7, rangeAt c 17 1 0 2, rangeAt c 18 1 0 1, padAt c 19 1, rangeAt c 20 2 1518 9600, rangeAt c 22 2 256 9728]
  states c s := [failIf (!portExists s (c.u8 16)) stState 0,
    failIf (decide (c.u8 16 % 2 = 1) && decide (c.u8 17 ≠ portMode s (c.u8 16))) stState 0]
  effect c s :=
    let p := c.u8 16
    if ¬ changesMode c s ∧ configPort c (portOf s p) = portOf s p then ({ status := stNoop }, s)
    else
      let s := if changesMode c s then
          let s := dropPhys (p / 2) s
          refillPort (p / 2) { s with phys := tput s.phys (p / 2) { physOf s (p / 2) with mode := c.u8 17 } }
        else s
      (if txStartOf (c.u16 22) = c.u16 22 then {} else { status := stAdjusted, detail := 22 }, modPort p (configPort c) s)

def execPortConfig (c : Cmd) (s : State) : Host.Outcome State Fault Refusal := issue rulePortConfig c s

/-! ### PORT_LOOPBACK (R115) -/

/-- PORT_LOOPBACK; a logical port that does not exist fails with ST_STATE, and DETAIL of its failures is 0 (DESIGN CHOICE, log entry 157). -/
def rulePortLoopback : CmdRule where
  op := 0x0C03
  t0 := true
  plen := .fixed 4
  fields c _ := [rangeAt c 16 1 0 7, rangeAt c 17 1 0 2, padAt c 18 2]
  states c s := [failIf (!portExists s (c.u8 16)) stState 0, failIf s.twin.prot stState 0]
  effect c s := ({}, modPort (c.u8 16) (fun p => { p with loopback := c.u8 17 }) s)

def execPortLoopback (c : Cmd) (s : State) : Host.Outcome State Fault Refusal := issue rulePortLoopback c s

/-! ### MAC_LANE_MAP (R95, R475) -/

/-- A byte maps four lanes onto four. -/
def isPerm (b : Nat) : Bool := !hasDup ((List.range 4).map fun l => bits b (2 * l) 2)

/-- A write of MAC_LANE_MAP: discarded under the operator lock; else the links go down and retrain with the new map. -/
def writeLaneMap (n : Nat) (v : Word) (s : State) : State :=
  if s.mon.opLock then s
  else
    let s := dropPhys n s
    let w := v &&& 0x00FFFFFF
    { s with phys := tput s.phys n { physOf s n with
      laneMap := w
      mapErr := !(isPerm (bits w.toNat 0 8) && isPerm (bits w.toNat 8 8)) } }

def execMacLaneMapWrite (phys : Fin 4) (value : Word) (s : State) : Host.Outcome State Fault Refusal := done s (writeLaneMap phys.val value s)

/-! ### Receive checks (R98, R101, Table 04-4) -/

/-- Size bucket of a length (Table 04-6). -/
def sizeBucket (n : Nat) : Nat :=
  if n ≤ 64 then 0 else if n ≤ 127 then 1 else if n ≤ 255 then 2 else if n ≤ 511 then 3 else if n ≤ 1023 then 4 else if n ≤ 1518 then 5 else 6

/-- Destination type: 0 unicast, 1 multicast, 2 broadcast. -/
def destType (f : List Byte) : Nat := if beAt f 0 6 = 2 ^ 48 - 1 then 2 else if bit (beAt f 0 1) 0 then 1 else 0

/-- Count a frame's size and type from a counter base (0x100 receive, 0x200 transmit). -/
def countFrame (p base : Nat) (f : List Byte) (len : Nat) (s : State) : State :=
  count1 (portCtr p (base + 0x1C + 4 * destType f)) (count1 (portCtr p (base + 4 * sizeBucket len)) s)

/-- The destination passes the address filter (R98). -/
def addressOk (x : Port) (f : List Byte) : Bool :=
  let d := beAt f 0 6
  decide (d = x.addr.toNat) || decide (d = 2 ^ 48 - 1) || decide (d = 0x011B19000000) || decide (d = 0x0180C200000E) ||
  x.mcast.any fun (_, m) => m.getLsbD 63 && decide (m.toNat % 2 ^ 48 = d)

/-- At most one tag, and that of TPID 0x8100 (R90). -/
def tagOk (f : List Byte) : Bool :=
  let t := beAt f 12 2
  let u := beAt f 16 2
  if t = 0x88A8 then false else if t = 0x8100 then decide (u ≠ 0x8100) && decide (u ≠ 0x88A8) else true

/-- Bytes of budget that a port has free (R102). -/
def budgetFree (x : Port) : Nat := x.rxBudget * 1024 - total (x.rx.map (·.charged))

/-- A pool class that fits has a free buffer. -/
def poolServes (s : State) (size : Nat) : Bool := (serveClass s.mem.pools (classTop s) 6 (fitClass size)).isSome

/-- What a port has written of a frame: bytes kept, buffers, and the bytes of their classes (R102, R352). -/
structure Written where
  kept : Nat := 0
  bufs : List Word := []
  charged : Nat := 0
  deriving DecidableEq, Repr

/-- One part of a frame into a pool buffer of the class that serves it; none when every fitting class is empty (R351, R352). -/
def writePart (p size : Nat) (w : Written) (s : State) : Option Written × State :=
  let (got, s) := requestBuffer p size s
  (got.map fun h => { kept := w.kept + size, bufs := w.bufs ++ [h], charged := w.charged + classSize (bits h.toNat 29 3) }, s)

/-- The further parts of a frame, 2,048 bytes each, while budget and buffers last (R102, R103). Under the PLN-7200 policy the budget was reserved when
the frame began (R104). -/
def writeParts (p len free : Nat) (whole : Bool) : Nat → Written → State → Written × State
  | 0, w, s => (w, s)
  | fuel + 1, w, s =>
    if len ≤ w.kept then ({ w with kept := len }, s)
    else if ¬ whole ∧ free < w.charged + 2048 then (w, s)
    else match writePart p 2048 w s with
      | (none, s) => (w, s)
      | (some w, s) => writeParts p len free whole fuel w s

/-- The bytes of a frame of n bytes in each of its buffers: 256, then 2,048 each (R351). -/
def partLens (n : Nat) (bufs : List Word) : List (Word × Nat) :=
  (indexed bufs).map fun (j, h) => (h, if j = 0 then min 256 n else min 2048 (n - 256 - 2048 * (j - 1)))

/-- The entries of a frame in its port's receive queue. -/
def frameEntries (bufs : List Word) (n : Nat) (err : Bool) (time : Nat) (s : State) : List SqEntry :=
  packetEntries (partLens n bufs) err 0 time (logOrdinal s) 0

/-- A port gives the buffers of a frame back: what it wrote of it into its receive queue is retracted (R101, R342). -/
def giveBack (p : Nat) (bufs : List Word) (s : State) : State :=
  match bufs, queueOf s (objRef 0 p) 0 with
  | [], _ => s
  | _, none => bufs.foldl (fun s h => freeBuffer p h none s) s
  | _, some q => retractQueue q (putPacket q ((frameEntries bufs 0 false (nowNs s) s).map fun e => { e with eop := false }) s)

/-- A frame that passed goes into its port's receive queue, and its buffers to the parser (R338, R354). -/
def enqueueFrame (p : Nat) (r : RxFrame) (s : State) : State :=
  let s := match queueOf s (objRef 0 p) 0 with
    | some q => putPacket q (frameEntries r.bufs r.bytes.length r.err (r.stamp / 65536) s) s
    | none => s
  modPort p (fun x => { x with rx := x.rx ++ [r] }) (r.bufs.foldl (fun s h => freeBuffer p h (some 0x20) s) s)

/-- The frames that wait in a port's receive queue go unread: their entries leave it, and their buffers return. -/
def flushRx (p : Nat) (s : State) : State :=
  let rs := (portOf s p).rx
  let n := total (rs.map fun r => r.bufs.length)
  let s := match queueOf s (objRef 0 p) 0 with
    | some q => takeEntries q n s
    | none => s
  modPort p (fun x => { x with rx := [] }) (rs.foldl (fun s r => r.bufs.foldl (fun s h => freeBuffer 0x20 h none s) s) s)

/-- The frame is written as it arrives under the starvation policy of its port: none is discarded whole. The native policy truncates a frame whose
budget or buffers run out, the PLN-7200 policy never does (R102-R104). -/
def writeFrame (p len : Nat) (s : State) : Option Written × State :=
  let x := portOf s p
  let free := budgetFree x
  if free < (if x.pln7200 then x.maxLen else 256) then (none, s)
  else match writePart p 256 {} s with
    | (none, s) => (none, s)
    | (some w, s) =>
      let (w, s) := writeParts p len free x.pln7200 8 w s
      if x.pln7200 ∧ w.kept < len then (none, giveBack p w.bufs s) else (some w, s)

/-! ### MAC control (R110) -/

/-- CORE time in 10^-2 ns (log entry 147). -/
def coreCents (s : State) : Nat := s.tim.c * 100

/-- Time of n pause quanta on a port, 10^-2 ns: 2.56 ns each at 200 Gb/s and 5.12 ns at 100 Gb/s (R110). -/
def quantaTime (s : State) (p n : Nat) : Nat := n * (if portMode s p = 2 then 512 else 256)

/-- The end of a pause of n quanta from now; 0 for none. -/
def pauseUntil (s : State) (p n : Nat) : Nat := if n = 0 then 0 else coreCents s + quantaTime s p n

/-- One priority of a PFC frame. -/
def pfcPrio (p : Nat) (f : List Byte) (s : State) (i : Nat) : State :=
  if bit (beAt f 16 2) i then
    count1 (portCtr p (0x12C + 4 * i)) (modPort p (fun x => { x with pfcEnd := tput x.pfcEnd i (pauseUntil s p (beAt f (18 + 2 * i) 2)) }) s)
  else s

/-- A MAC control frame is consumed. -/
def macControl (p : Nat) (f : List Byte) (s : State) : State :=
  match beAt f 14 2 with
  | 0x0001 => count1 (portCtr p 0x128) (modPort p (fun x => { x with pauseEnd := pauseUntil s p (beAt f 16 2) }) s)
  | 0x0101 => (List.range 8).foldl (pfcPrio p f) s
  | _ => count1 (portCtr p 0x16C) s

/-- PAUSE_EXPIRY: held frames are released. -/
def execPauseExpiry (port : PortNo) (prio : Option (Fin 8)) (s : State) : Host.Outcome State Fault Refusal :=
  done s (modPort port.val (fun x => match prio with
    | none => { x with pauseEnd := 0 }
    | some i => { x with pfcEnd := tdel x.pfcEnd i.val }) s)

/-! ### FRAME_RECEIVE -/

/-- Orders 5 to 8, and what passes: the time-stamp at the SFD less the ingress latency (R403, R404). A STANDBY counts a passed frame and
discards it (R114). -/
def checkFrame (p : Nat) (f : List Byte) (s : State) : State :=
  let x := portOf s p
  let len := f.length
  let (fate, s) := writeFrame p len s
  let cut : Bool := match fate with
    | some w => decide (w.kept < len)
    | none => false
  let bufs := (fate.map (·.bufs)).getD []
  if ¬ cut ∧ crc32 (f.take (len - 4)) ≠ leAt f (len - 4) 4 then count1 (portCtr p 0x14C) (giveBack p bufs s)
  else if beAt f 12 2 = 0x8808 then macControl p f (giveBack p bufs s)
  else if ¬ addressOk x f ∨ ¬ tagOk f then count1 (portCtr p 0x168) (giveBack p bufs s)
  else match fate with
    | none => count1 (portCtr p 0x164) s
    | some w =>
      let s := if cut then count1 (portCtr p 0x160) s else s
      let s := countFrame p 0x100 f len s
      if followsLog s then giveBack p bufs s
      else
        let r : RxFrame := { port := Fin.ofNat 8 p, bytes := f.take w.kept, wire := len, stamp := wrapInt 80 ((nowStamp s : Int) - x.tsIngress.toNat),
                             err := cut, logged := false, charged := w.charged, bufs := w.bufs }
        enqueueFrame p r s

/-- Codewords that the FEC corrected and could not correct while a frame arrived (Table 04-6). -/
def countFec (p : Nat) (w : WireFrame) (s : State) : State := count 0 (portCtr p 0x304) w.uncorrected (count 0 (portCtr p 0x300) w.corrected s)

/-- The MAC receives a frame from its PCS, or in MAC loopback from itself (Table 04-4). -/
def receiveFrame (p : Nat) (w : WireFrame) (s : State) : State :=
  let n := w.bytes.length
  if w.symbolError then count1 (portCtr p 0x15C) s
  else if n < 64 then count1 (portCtr p 0x150) s
  else if 9600 < n then count1 (portCtr p 0x158) s
  else if (portOf s p).maxLen < n then count1 (portCtr p 0x154) s
  else checkFrame p w.bytes s

/-- A frame from the line, once the PCS has decoded it: MAC loopback cuts the line off from the MAC, and line loopback sends the frame back after the
PCS (Table 04-10). -/
def fromLine (p : Nat) (f : WireFrame) (s : State) : State :=
  match (portOf s p).loopback with
  | 0 => receiveFrame p f (countFec p f s)
  | 2 => modPort p (fun x => { x with lastTx := f.bytes }) (countFec p f s)
  | _ => countFec p f s

/-- FRAME_RECEIVE. A port without lanes receives nothing. -/
def execFrameReceive (port : PortNo) (f : WireFrame) (s : State) : Host.Outcome State Fault Refusal :=
  done s (if ¬ portExists s port.val ∨ portMode s port.val = 0 then s else fromLine port.val f s)

/-! ### FRAME_TRANSMIT, TX_UNDERRUN (R106-R109) -/

/-- The port has finished with a packet of an egress stream (R431, R432). -/
def noteMark (p : Nat) (m : Option (Nat × Nat)) (s : State) : State :=
  match m with
  | none => s
  | some (id, n) => modPort p (fun x => { x with consumed := tput x.consumed id (if tgetD x.consumed id 0 < n then n else tgetD x.consumed id 0) }) s

/-- A frame padded to 60 bytes, before its FCS (R106). -/
def padFrame (f : List Byte) : List Byte := f ++ List.replicate (60 - f.length) 0

/-- Link pause or pause of the frame's priority holds it (R110). -/
def isPaused (s : State) (p prio : Nat) : Bool :=
  let x := portOf s p
  decide (coreCents s < x.pauseEnd) || decide (coreCents s < tgetD x.pfcEnd prio 0)

/-! ### Estimators of legs and trunks -/

def estOf (s : State) (trunk : Bool) (i : Nat) : Option Estimator :=
  if trunk then (s.obj.trunks.at? i).map (·.est) else (s.obj.legs.at? i).map (·.est)

def modEst (trunk : Bool) (i : Nat) (f : Estimator → Estimator) : State → State :=
  if trunk then updTrunk i fun t => { t with est := f t.est } else updLeg i fun l => { l with est := f l.est }

/-- Record an RTP packet or trunk datagram as it leaves (R154): its feedback is matched by transport-wide sequence number, or by SSRC and
sequence number. -/
def noteSent (trunk : Bool) (i : Nat) (p : SentRtp) : State → State := modEst trunk i fun e => { e with log := lastN 65536 (e.log ++ [p]) }

/-- A frame leaves the port at a time-stamp: its estimator records it (R154). -/
def noteLeft (stamp : Nat) (t : TxFrame) (s : State) : State :=
  match t.est with
  | some (trunk, i, p) => noteSent trunk i { p with at_ := stamp / 65536 } s
  | none => s

/-- A frame of the transmit queue may start now: neither its link nor its priority is paused (R110), and its gate admits it (R175). -/
def TxFrame.ready (s : State) (p : Nat) (t : TxFrame) : Bool :=
  !isPaused s p t.prio && (t.overGate || portAdmits s p t.gate ((padFrame t.bytes).length + 4))

/-- The frame that starts next with those before it: the first of its priority that may start, so that no held priority holds another. -/
def nextTx (s : State) (p : Nat) : List Nat → List TxFrame → List TxFrame → Option (TxFrame × List TxFrame)
  | _, _, [] => none
  | held, seen, t :: r =>
    if ¬ held.contains t.gate ∧ t.ready s p then some (t, seen ++ r) else nextTx s p (t.gate :: held) (seen ++ [t]) r

/-- The transmit queue with a frame taken out. -/
def setTx (p : Nat) (l : List TxFrame) : State → State := modPort p fun x => { x with tx := l }

/-- Put a frame with its check sequence on the line, or back into the receive path in MAC loopback (Table 04-10). -/
def putLine (p : Nat) (w : List Byte) (s : State) : State :=
  if (portOf s p).loopback = 1 then receiveFrame p { bytes := w, symbolError := false, corrected := 0, uncorrected := 0 } s
  else modPort p (fun x => { x with lastTx := w }) s

/-- Send a whole frame: padded, with its FCS, and counted (R106, Table 04-6). -/
def putOnLine (p : Nat) (f : List Byte) (s : State) : State :=
  let f := padFrame f
  let w := f ++ leBytes 4 (crc32 f)
  putLine p w (countFrame p 0x200 w w.length s)

/-- The frame is longer than the port's MAC_MAXLEN, so it never starts (R94, R106). -/
def TxFrame.over (x : Port) (t : TxFrame) : Bool := decide (x.maxLen < (padFrame t.bytes).length + 4)

/-- The MAC sends the next frame of its queue, or discards it while the port is down (R96) or when it is longer than MAC_MAXLEN (R106); a frame that is
paused or gated waits. A STANDBY sends nothing (R114). -/
def transmit (p : Nat) (s : State) : State :=
  match (portOf s p).tx with
  | [] => s
  | h :: tl =>
    if ¬ drivesPorts s then s
    else if ¬ (portOf s p).link then noteMark p h.mark (count1 (portCtr p 0x230) (setTx p tl s))
    else match nextTx s p [] [] (h :: tl) with
    | none => s
    | some (t, rest) =>
      let s := setTx p rest s
      if t.over (portOf s p) then noteMark p t.mark (count1 (portCtr p 0x22C) s) else
      let stamp := nowStamp s + (portOf s p).tsEgress.toNat
      let (f, s) := match t.ptp with
        | some act => departPtp act p stamp t.bytes s
        | none => (t.bytes, s)
      noteMark p t.mark (putOnLine p f (noteLeft stamp t s))

def execFrameTransmit (port : PortNo) (s : State) : Host.Outcome State Fault Refusal := done s (transmit port.val s)

/-- The queue runs dry within a frame longer than MAC_TX_START: after a free number of bytes, at least MAC_TX_START, the frame ends with the
inverse of the correct FCS, and MAC_TX_START rises (R108, log entry 2). Under the PLN-7200 policy no frame underruns (R109). -/
def underrun (p : Nat) (s : State) : State :=
  match nextTx s p [] [] (portOf s p).tx with
  | none => s
  | some (t, rest) =>
    let x := portOf s p
    let f := padFrame t.bytes
    if ¬ drivesPorts s ∨ ¬ x.link ∨ x.pln7200 ∨ t.over x ∨ f.length + 4 ≤ x.txStart then s
    else
      let (v, s) := drawFree s
      let sent := f.take (x.txStart + v % (f.length - x.txStart + 1))
      let s := count1 (portCtr p 0x228) (setTx p rest (noteLeft (nowStamp s) t s))
      let s := modPort p (fun x => { x with txStart := if x.txStart + 256 < 9728 then x.txStart + 256 else 9728 }) s
      noteMark p t.mark (putLine p (sent ++ (leBytes 4 (crc32 sent)).map (fun b => ~~~b)) s)

def execTxUnderrun (port : PortNo) (s : State) : Host.Outcome State Fault Refusal := done s (underrun port.val s)

/-! ### ETH_REFCLK (R17) -/

/-- Every port goes down. -/
def dropAllLinks (s : State) : State := (List.range 8).foldl (fun s p => dropLink p s) s

def execEthRefclkLoss (s : State) : Host.Outcome State Fault Refusal :=
  done s (dropAllLinks { s with mon := { s.mon with ethRefclk := false } })

end Sys2Proof.Machine
end

