-- ==== Sys2Proof/Machine/Police.lean ====
section
/-! DEFINITION. Sillage's settings and its meters: POLICER_SET, SHAPER_SET, ESTIMATOR_SET, SCHED_WEIGHT_SET, DSCP_MAP_SET, and the colour of a
datagram (R146-R153, R169-R171). -/

namespace Sys2Proof.Machine

/-! ### Meters (R148-R150) -/

inductive Colour where
  | green
  | yellow
  | red
  deriving DecidableEq, Repr

/-- The smaller number. -/
def least (a b : Nat) : Nat := if a < b then a else b

/-- The meter refilled at arrival time t, ns (R148). -/
def Meter.refill (m : Meter) (t : Nat) : Meter :=
  let dt := t - m.last
  let cap := m.cbs * 8000000
  let cap2 := m.pbs * 8000000
  let last := if m.last < t then t else m.last
  if m.tr then { m with tc := least cap (m.tc + m.cir * dt), tx := least cap2 (m.tx + m.pir * dt), last := last }
  else
    let tc := m.tc + m.cir * dt
    if cap < tc then { m with tc := cap, tx := least cap2 (m.tx + (tc - cap)), last := last } else { m with tc := tc, last := last }

/-- The colour of a packet of L bytes that arrives at t with a pre-colour, and the meter after it (R149). -/
def Meter.colour (m : Meter) (t len : Nat) (pre : Colour) : Colour × Meter :=
  let m := m.refill t
  let pre := if m.aware then pre else .green
  let n := len * 8000000
  if m.tr then
    if pre = .red ∨ m.tx < n then (.red, m)
    else if pre = .yellow ∨ m.tc < n then (.yellow, { m with tx := m.tx - n })
    else (.green, { m with tx := m.tx - n, tc := m.tc - n })
  else
    if pre = .green ∧ n ≤ m.tc then (.green, { m with tc := m.tc - n })
    else if pre ≠ .red ∧ n ≤ m.tx then (.yellow, { m with tx := m.tx - n })
    else (.red, m)

/-- The colour that a tenant's DSCP map gives (R151). -/
def dscpColour (t : Tenant) (dscp : Nat) : Colour :=
  match tgetD t.dscp dscp 0 with
  | 0 => .green
  | 1 => .yellow
  | _ => .red

/-- The meter of a leg or trunk. -/
def meterOf (s : State) (trunk : Bool) (i : Nat) : Option Meter :=
  if trunk then (s.obj.trunks.at? i).map (·.meter) else (s.obj.legs.at? i).map (·.meter)

def setMeter (trunk : Bool) (i : Nat) (m : Meter) : State → State :=
  if trunk then updTrunk i fun t => { t with meter := m } else updLeg i fun l => { l with meter := m }

/-- Count a colour of a leg or trunk in its tenant's page and in group 0x0901. -/
def countColour (tenant : Nat) (h : Handle) (len : Nat) (leg : Colour) (all : Colour) (s : State) : State :=
  match all with
  | .green => countObj 0x0901 h 0 len (count tenant (slgCtr tenant 0x10) 1 s)
  | .yellow => countObj 0x0901 h 1 len (count tenant (slgCtr tenant 0x14) 1 s)
  | .red => countObj 0x0901 h 2 1 (count tenant (slgCtr tenant (if leg = .red then 0x18 else 0x1C)) 1 s)

/-- Police a datagram that classified to a leg or trunk: the leg meter, then the tenant's (R146, R150). True when it passes. -/
def police (trunk : Bool) (i : Nat) (dscp t len : Nat) (s : State) : Bool × State :=
  let tenant := (if trunk then (s.obj.trunks.at? i).map (·.tenant) else (s.obj.legs.at? i).map (·.tenant)).getD 0
  let h := handleOf s (if trunk then tyTrunk else tyLeg) i
  match meterOf s trunk i, s.obj.tenants.at? tenant with
  | some m, some ten =>
    let (c, m) := m.colour t len (dscpColour ten dscp)
    let s := setMeter trunk i m s
    if c = .red then (false, countColour tenant h len .red .red s)
    else match ten.meter with
      | none => (true, countColour tenant h len c c s)
      | some tm =>
        let (d, tm) := tm.colour t len c
        let s := updTenant tenant (fun x => { x with meter := some tm }) s
        (decide (d ≠ .red), countColour tenant h len c d s)
  | _, _ => (false, s)

/-! ### Commands -/

/-- The leg of OBJECT is in DRAINING. -/
def legBusy (c : Cmd) (s : State) : Check := if hType c.object = tyLeg then legDraining c s else none

/-- The state after POLICER_SET (R152). -/
def setPolicer (c : Cmd) (s : State) : State :=
  if hType c.object = tyLeg then updLeg (legIdx c) (fun l => { l with meter := changeMeter c 16 l.meter }) s
  else updTenant (hIndex c.object) (fun t => { t with meter := some (match t.meter with
    | some m => changeMeter c 16 m
    | none => newMeter c 16 (logNs s)) }) s

/-- POLICER_SET (R147, R152). -/
def rulePolicerSet : CmdRule where
  op := 0x0901
  logged := true
  plen := .fixed 20
  types := [tyLeg, tyTenant]
  zeroFields c _ := policerZeros c 16
  fields c _ := [firstPlaced (policerFields c 16)]
  states c s := [legBusy c s]
  resources c s := [noResource (!peakFits s (setPolicer c s) c.fn.val) 0x000B]
  effect c s := ({}, setPolicer c s)

def execPolicerSet (c : Cmd) (s : State) : Host.Outcome State Fault Refusal := issue rulePolicerSet c s

/-- SHAPER_SET (R170, R171). -/
def ruleShaperSet : CmdRule where
  op := 0x0902
  logged := true
  plen := .fixed 8
  types := [tyLeg]
  zeroFields c _ := [zeroAt c 16 4]
  fields c _ := [rangeAt c 16 4 64 200000000, rangeAt c 20 4 0 16777216]
  states c s := [legDraining c s]
  effect c s :=
    let cap : Int := (c.u32 20 * 8000000 : Nat)
    ({}, updLeg (legIdx c) (fun l => { l with shaper :=
      { l.shaper with rate := some (c.u32 16), burst := c.u32 20, credit := if cap < l.shaper.credit then cap else l.shaper.credit } })
      (refillShaper false (legIdx c) s))

def execShaperSet (c : Cmd) (s : State) : Host.Outcome State Fault Refusal := issue ruleShaperSet c s

/-- ESTIMATOR_SET (R153). -/
def ruleEstimatorSet : CmdRule where
  op := 0x0903
  logged := true
  plen := .fixed 16
  types := [tyLeg]
  zeroFields c _ := [zeroAt c 16 4, zeroAt c 20 4, zeroAt c 24 4]
  fields c _ := [rangeAt c 16 4 32 200000000, rangeAt c 20 4 (c.u32 16) 200000000, rangeAt c 24 4 (c.u32 16) (c.u32 20), reservedAt c 28 4 4,
    failIf (bit (c.u32 28) 2 && !bit (c.u32 28) 1) stRange 28]
  states c s := [legDraining c s]
  effect c s :=
    ({}, updLeg (legIdx c) (fun l => { l with est :=
      { l.est with minimum := c.u32 16, maximum := some (c.u32 20), start := c.u32 24, flags := BitVec.ofNat 4 (c.u32 28) } }) s)

def execEstimatorSet (c : Cmd) (s : State) : Host.Outcome State Fault Refusal := issue ruleEstimatorSet c s

/-- SCHED_WEIGHT_SET (R169). -/
def ruleSchedWeightSet : CmdRule where
  op := 0x0904
  logged := true
  plen := .fixed 4
  types := [tyLeg, tyTrunk, tyTenant]
  fields c _ := [rangeAt c 16 2 1 1000, padAt c 18 2]
  states c s := [legBusy c s]
  effect c s :=
    let w := c.u16 16
    let i := hIndex c.object
    ({}, if hType c.object = tyLeg then updLeg i (fun l => { l with weight := w }) s
      else if hType c.object = tyTrunk then updTrunk i (fun t => { t with weight := w }) s
      else updTenant i (fun t => { t with weight := w }) s)

def execSchedWeightSet (c : Cmd) (s : State) : Host.Outcome State Fault Refusal := issue ruleSchedWeightSet c s

/-- The DSCP map of the block; green is unlisted. -/
def mapAt (c : Cmd) : Tbl Nat := ((List.range 64).map fun i => (i, c.u8 (64 + i))).filter fun kv => decide (kv.2 ≠ 0)

/-- DSCP_MAP_SET (R151). -/
def ruleDscpMapSet : CmdRule where
  op := 0x0906
  logged := true
  plen := .ext 64
  types := [tyTenant]
  fields c _ := (List.range 64).map fun i => rangeAt c (64 + i) 1 0 2
  effect c s := ({}, updTenant (hIndex c.object) (fun t => { t with dscp := mapAt c }) s)

def execDscpMapSet (c : Cmd) (s : State) : Host.Outcome State Fault Refusal := issue ruleDscpMapSet c s

end Sys2Proof.Machine
end

