-- ==== Sys2Proof/Machine/Estimate.lean ====
section
/-! DEFINITION. The egress estimator of a leg or trunk: feedback, the decision of Table 06-3, the halving without feedback, and the note
selection that each logged decision runs (R153-R160, R165, R179). -/

namespace Sys2Proof.Machine

/-! ### Feedback (R154, R156) -/

/-- A packet's report joins its 5 ms group; a new group closes the one before it and adds to the accumulated delay variation (R156). -/
def Estimator.arrive (e : Estimator) (p : SentRtp) (arrival : Int) : Estimator :=
  let g := p.at_ / 5000000
  let at_ : Int := p.at_
  match e.group with
  | none => { e with group := some (g, at_, arrival) }
  | some (n, eg, ar) =>
    if n = g then { e with group := some (g, if eg < at_ then at_ else eg, if ar < arrival then arrival else ar) }
    else
      let e := match e.before with
        | none => e
        | some (eg0, ar0) =>
          let acc := ((e.delays.head?).map fun (d : Int × Int) => d.2).getD 0 + ((ar - ar0) - (eg - eg0))
          { e with delays := ((ar, acc) :: e.delays).take 16 }
      { e with before := some (eg, ar), group := some (g, at_, arrival) }

/-- One packet was reported: received at a time, with or without CE, or lost. -/
def Estimator.report (e : Estimator) (hit : SentRtp → Bool) (arrival : Option Int) (ce : Bool) : Estimator :=
  match e.log.find? hit with
  | none => e
  | some p =>
    let e := { e with reported := e.reported + 1, log := e.log.filter fun q => !hit q }
    match arrival with
    | none => { e with lost := e.lost + 1 }
    | some t =>
      let e := { e with received := e.received + p.bytes, ect := e.ect + b2n p.ect, ce := e.ce + b2n (p.ect && ce) }
      e.arrive p t

/-- Symbols of the chunks of a transport-wide feedback message (run length, or status vectors of one or two bits), and the octets after them. The
format is PRESUMED (log entry 42). -/
def twccSymbols : Nat → Nat → List Byte → List Nat × List Byte
  | 0, _, bs => ([], bs)
  | fuel + 1, left, bs =>
    if left = 0 then ([], bs)
    else
      let w := beAt bs 0 2
      let got := if w < 2 ^ 15 then List.replicate (w % 2 ^ 13) (w / 2 ^ 13 % 4)
        else if w < 2 ^ 15 + 2 ^ 14 then (List.range 14).map fun i => b2n (bit w (13 - i))
        else (List.range 7).map fun i => w / 2 ^ (12 - 2 * i) % 4
      let got := got.take left
      let (r, rest) := twccSymbols fuel (left - got.length) (bs.drop 2)
      (got ++ r, rest)

/-- The reports of a transport-wide feedback message: sequence number and arrival time, ns. -/
def twccReports : Nat → Int → List Nat → List Byte → List (Nat × Option Int)
  | _, _, [], _ => []
  | seq, t, y :: ys, ds =>
    if y = 1 then
      let t := t + (beAt ds 0 1 : Int) * 250000
      (seq, some t) :: twccReports ((seq + 1) % 65536) t ys (ds.drop 1)
    else if y = 2 then
      let t := t + sext 16 (beAt ds 0 2) * 250000
      (seq, some t) :: twccReports ((seq + 1) % 65536) t ys (ds.drop 2)
    else (seq, none) :: twccReports ((seq + 1) % 65536) t ys ds

/-- A transport-wide feedback message (RTCP 205, format 15). -/
def takeTwcc (m : List Byte) (e : Estimator) : Estimator :=
  let n := beAt m 14 2
  let (syms, deltas) := twccSymbols (n + 1) n (m.drop 20)
  (twccReports (beAt m 12 2) (sext 24 (beAt m 16 3) * 64000000) syms deltas).foldl
    (fun e (r : Nat × Option Int) => e.report (fun p => decide (p.twsn = r.1)) r.2 false) e

/-- The report blocks of an RFC 8888 message: SSRC, first number, and the metrics. -/
def ccfbBlocks : Nat → List Byte → List (Nat × Nat × Nat)
  | 0, _ => []
  | fuel + 1, bs =>
    if bs.length < 8 then []
    else
      let ssrc := beAt bs 0 4
      let n := beAt bs 6 2
      let mine := (List.range n).map fun i => (ssrc, (beAt bs 4 2 + i) % 65536, beAt bs (8 + 2 * i) 2)
      mine ++ ccfbBlocks fuel (bs.drop (8 + ceilDiv n 2 * 4))

/-- An RFC 8888 report (RTCP 205, format 11): arrival offsets count back from the report's timestamp. -/
def takeCcfb (m : List Byte) (e : Estimator) : Estimator :=
  let rts : Int := (beAt m (m.length - 4) 4 * 1000000000 / 65536 : Nat)
  (ccfbBlocks m.length ((m.take (m.length - 4)).drop 8)).foldl (fun e (r : Nat × Nat × Nat) =>
    let (ssrc, seq, x) := r
    let ato := x % 8192
    let arrival : Option Int := if bit x 15 then some (rts - ((ato * 1000000000 / 1024 : Nat) : Int)) else none
    e.report (fun p => decide (p.ssrc.toNat = ssrc) && decide (p.seq = seq)) arrival (decide (x / 8192 % 4 = 3))) e

/-- A report block: its loss fraction counts for the packets that it newly covers, at least one (log entry 42). -/
def takeBlock (b : List Byte) (e : Estimator) : Estimator :=
  let ssrc := beAt b 0 4
  let high := beAt b 8 4
  let n := match tget e.heard ssrc with
    | some h => (high + 2 ^ 32 - h) % 2 ^ 32
    | none => 1
  let n := if 0 < n ∧ n < 2 ^ 31 then n else 1
  { e with loss := (e.loss.1 + beAt b 4 1 * n, e.loss.2 + n), heard := tput e.heard ssrc high }

/-- The report blocks of a receiver or sender report. -/
def takeReport (m : List Byte) (e : Estimator) : Estimator :=
  let at_ := if beAt m 1 1 = 200 then 28 else 8
  (List.range (beAt m 0 1 % 32)).foldl (fun e k => takeBlock (m.drop (at_ + 24 * k)) e) e

/-- The messages of a compound RTCP packet. -/
def rtcpParts : Nat → List Byte → List (List Byte)
  | 0, _ => []
  | fuel + 1, bs =>
    let n := 4 * (beAt bs 2 2 + 1)
    if bs.length < 8 ∨ bs.length < n then [] else bs.take n :: rtcpParts fuel (bs.drop n)

/-- One RTCP message at the estimator. Feedback of a kind that the flags select restarts the timeout of R157. -/
def takeFeedback (trunk : Bool) (i : Nat) (m : List Byte) (s : State) : State :=
  let tick := s.media.tick
  let pt := beAt m 1 1
  let fmt := beAt m 0 1 % 32
  if pt = 205 ∧ fmt = 15 then modEst trunk i (fun e => if e.flags.getLsbD 0 then { takeTwcc m e with feedbackAt := tick } else e) s
  else if pt = 205 ∧ fmt = 11 then modEst trunk i (fun e => if e.flags.getLsbD 1 then { takeCcfb m e with feedbackAt := tick } else e) s
  else if pt = 200 ∨ pt = 201 then modEst trunk i (takeReport m) s
  else s

/-! ### The decision (Table 06-3) -/

/-- Delay overuse over the last 16 groups: the least-squares slope exceeds 0.02 and the accumulated delay rose by more than 4 ms (R156). -/
def Estimator.overuse (e : Estimator) : Bool :=
  let n : Int := e.delays.length
  let sx := totalI (e.delays.map (·.1))
  let sy := totalI (e.delays.map (·.2))
  let sxy := totalI (e.delays.map fun d => d.1 * d.2)
  let sxx := totalI (e.delays.map fun d => d.1 * d.1)
  let num := n * sxy - sx * sy
  let den := n * sxx - sx * sx
  let rise := ((e.delays.head?).map (·.2)).getD 0 - ((e.delays.getLast?).map (·.2)).getD 0
  decide (0 < den) && decide (den < 50 * num) && decide (4000000 < rise)

/-- q of R156 as a fraction: losses of the transport feedback, else of the receiver reports; none while nothing was reported (log entry 42). -/
def Estimator.q (e : Estimator) : Option (Nat × Nat) :=
  if 0 < e.reported then some (e.lost, e.reported) else if 0 < e.loss.2 then some (e.loss.1, 256 * e.loss.2) else none

/-- The first matching row of Table 06-3 at tick n, before the clamp: kb/s, truncated. -/
def Estimator.row (e : Estimator) (n : Nat) : Nat :=
  let past := e.overuse
  let quiet : Bool := match e.overuseAt with
    | some t => decide (t + 250 ≤ n)
    | none => true
  if e.flags.getLsbD 3 then e.start
  else if e.flags.getLsbD 2 ∧ 0 < e.ce then e.target * (2 * e.ect - e.ce) / (2 * e.ect)
  else if past then e.received * 8 * 85 / 5000
  else match e.q with
    | none => e.target
    | some (a, b) =>
      if b < 10 * a then e.target * (2 * b - a) / (2 * b)
      else if 50 * a < b ∧ quiet ∧ 250 ≤ e.since then
        least (e.target * 103 / 100) ((e.received * 8 * 3 + 6400) / 100)
      else e.target

/-- A target clamped to the estimator's range and to the shaper rate, on a port of line rate `line` (R153, R156, R170). -/
def Estimator.clamp (e : Estimator) (shaper : Option Nat) (line x : Nat) : Nat :=
  least (clampN e.minimum (e.maximum.getD line) x) (shaper.getD line)

/-- The decision at tick n halves the target: no feedback of a selected kind has come for 500 ms, nor was there a halving in them (R157). -/
def Estimator.halves (e : Estimator) (n : Nat) : Bool :=
  !e.flags.getLsbD 3 && decide (e.feedbackAt + 500 ≤ n) && e.halvedAt.all fun t => decide (t + 500 ≤ n)

/-- The target that a decision at tick n gives (R156, R157). -/
def Estimator.decide_ (e : Estimator) (shaper : Option Nat) (line n : Nat) : Nat := e.clamp shaper line (if e.halves n then e.target / 2 else e.row n)

/-- The estimator after a decision: a new interval begins. -/
def Estimator.fresh (e : Estimator) (target n : Nat) : Estimator :=
  { e with
    target := target, decidedAt := some n, halvedAt := if e.halves n then some n else e.halvedAt
    overuseAt := if e.overuse then some n else e.overuseAt, since := e.since + (if 0 < e.reported then 50 else 0)
    received := 0, reported := 0, lost := 0, ect := 0, ce := 0, loss := (0, 0) }

/-! ### Note selection (R158-R160, R179) -/

/-- A step of a ladder as one number: 3 × note + temporal layer. -/
def stepNote (k : Int) : Nat := k.toNat / 3
def stepTl (k : Int) : Nat := k.toNat % 3

/-- Frame bytes of a source that arrived in the last 500 ms and belong to a step (R159). -/
def stepBytes (x : InStream) (now step : Nat) : Nat :=
  total (x.encs.flatMap fun e => (e.arrivals.filter fun (a : Nat × Nat × Nat × Nat) =>
    decide (now < a.1 + 500000000) && decide (a.2.1 ≤ step % 3) &&
    (if x.decl.form = 1 then decide (a.2.2.1 = step / 3) else decide (a.2.2.1 ≤ step / 3))).map (·.2.2.2))

/-- The source has a step: T0 of each note that is declared, and each layer of it that arrived in the last 500 ms (DEDUCED, log entry 44). -/
def hasStep (x : InStream) (now step : Nat) : Bool :=
  x.decl.present.contains (step / 3) &&
  (decide (step % 3 = 0) || x.encs.any fun e => e.arrivals.any fun a =>
    decide (now < a.1 + 500000000) && decide (a.2.1 = step % 3) && decide (a.2.2.1 = step / 3))

/-- The ladder of a source: its steps with their costs in bit/s, rising (R159). -/
def ladder (x : InStream) (now : Nat) : List (Nat × Nat) :=
  ((List.range 9).filter (hasStep x now)).map fun k => (k, stepBytes x now k * 16)

/-- The place of a slot's current step on the ladder; −1 for none. -/
def placeOf (l : List (Nat × Nat)) (cur : Int) : Int := ((l.filter fun k => decide ((k.1 : Int) ≤ cur)).length : Int) - 1

/-- A slot's ladder; none while it is not assigned. -/
def slotLadder (s : State) (f : FwdSlot) : Option (List (Nat × Nat)) :=
  ((liveIndex s tyIn f.source).bind s.obj.ins.at?).map fun x => ladder x (logNs s)

def upOk (f : FwdSlot) (n : Nat) : Bool := match f.lastUp with
  | some t => decide (t + 500 ≤ n)
  | none => true

/-- Pass 1 of R160: base notes in slot order; what is left, and the place that each slot gets. -/
def passOne (n : Nat) : List (FwdSlot × Option (List (Nat × Nat))) → Int → Int × List Int
  | [], rem => (rem, [])
  | (f, l) :: r, rem =>
    match l with
    | none | some [] => let (m, w) := passOne n r rem; (m, -1 :: w)
    | some ((k, cost) :: more) =>
      let cur := placeOf ((k, cost) :: more) f.cur
      let need : Nat := if 0 ≤ cur then cost * 4 / 5 else cost * 11 / 10
      if (0 ≤ cur ∨ upOk f n) ∧ (need : Int) ≤ rem then let (m, w) := passOne n r (rem - cost); (m, 0 :: w)
      else let (m, w) := passOne n r rem; (m, -1 :: w)

/-- The climb of one slot in pass 2 of R160: the steps above `want`, with the cost of the step below. A simulcast step may cost less than the one
below it: its incremental cost is negative (R159), and the percentages truncate toward zero. -/
def climbSlot (f : FwdSlot) (n : Nat) (cur : Int) : List (Nat × Nat) → Nat → Int → Int → Int × Int
  | [], _, want, rem => (want, rem)
  | (_, cost) :: r, below, want, rem =>
    let inc : Int := (cost : Int) - below
    let ok : Bool :=
      if want + 1 ≤ cur then decide ((inc * 4).tdiv 5 ≤ rem)
      else if want + 1 = cur + 1 ∧ upOk f n ∧ cur ≤ want then decide ((inc * 11).tdiv 10 ≤ rem)
      else false
    if ok then climbSlot f n cur r cost (want + 1) (rem - inc) else (want, rem)

/-- Pass 2 of R160: climbs in slot order. -/
def passTwo (n : Nat) : List (FwdSlot × Option (List (Nat × Nat)) × Int) → Int → List Int
  | [], _ => []
  | (f, l, w) :: r, rem =>
    match l with
    | some ((k, cost) :: more) =>
      if 0 ≤ w then
        let (w, rem) := climbSlot f n (placeOf ((k, cost) :: more) f.cur) more cost w rem
        w :: passTwo n r rem
      else w :: passTwo n r rem
    | _ => w :: passTwo n r rem

/-- The target steps of the slots at tick n with a budget of `budget` bit/s: −1, or the step itself. -/
def selectNotes (s : State) (n budget : Nat) (fs : List FwdSlot) : List Int :=
  let ls := fs.map fun f => (f, slotLadder s f)
  let (rem, base) := passOne n ls budget
  let places := passTwo n ((ls.zip base).map fun x => (x.1.1, x.1.2, x.2)) rem
  (ls.zip places).map fun (x : (FwdSlot × Option (List (Nat × Nat))) × Int) =>
    if x.2 < 0 then -1 else ((x.1.2.bind fun l => l[x.2.toNat]?).map fun k => ((k.1 : Nat) : Int)).getD (-1)

/-- The video budget of a leg, bit/s (R158); of a trunk its target (log entry 43). -/
def budgetOf (s : State) (trunk : Bool) (i target : Nat) : Nat :=
  if trunk then target * 1000
  else match s.obj.legs.at? i with
    | none => 0
    | some l =>
      let mine := l.sent.filter fun (x : Nat × Nat × Nat) => decide (logNs s < x.1 + 500000000) && [0, 1, 2, 6].contains x.2.1
      target * 1000 - 16 * total (mine.map (·.2.2))

/-- Sources of a conference that a trunk may carry: of ranked legs first, best first, then the others by global leg ID (R179). -/
def confSources (s : State) (trunk conf : Nat) (c : Conf) : List Handle :=
  let video := fun (is : List Nat) => is.filter fun i => ((s.obj.ins.at? i).map fun x => decide (x.decl.kind = 1)).getD false
  let ofLeg := fun (leg : Nat) => ((s.obj.legs.at? leg).map fun l => video l.ins).getD []
  let ofRemote := fun (g : Nat) => (s.obj.ins.live.filter fun kv =>
    kv.2.onTrunk && decide (kv.2.gleg = g) && decide (kv.2.gconf = c.gconf) && decide (kv.2.owner ≠ trunk)).map (·.1)
  let ranked := (videoRanking s c).map (·.gleg)
  let locals := ((s.obj.legs.live.filter fun kv => decide (kv.2.conf = conf) && !(kv.2.state == .draining))).map fun kv => globalLeg s kv.1
  let remotes := (s.obj.ins.live.filter fun kv => kv.2.onTrunk && decide (kv.2.gconf = c.gconf) && decide (kv.2.owner ≠ trunk)).map (·.2.gleg)
  let rest := (distinct (locals ++ remotes)).filter fun g => !ranked.contains g
  (ranked ++ rest).flatMap fun g =>
    (if g / 8192 = s.media.deviceId.toNat then ofLeg (g % 8192) else ofRemote g).map fun i => handleOf s tyIn i

/-- The implicit slots of a trunk, filled anew; a source that stays keeps its slot's state (R179, log entry 43). -/
def fillTrunk (i : Nat) (s : State) : State :=
  match s.obj.trunks.at? i with
  | none => s
  | some t =>
    let hs := (s.obj.confs.live.filter fun kv => decide (kv.2.tenant = t.tenant) && kv.2.globalId.isSome).flatMap fun kv =>
      confSources s i kv.1 kv.2
    let slots := (List.range 32).map fun k => match hs[k]? with
      | none => implicitSlot
      | some h => (t.slots.find? fun f => f.source == h).getD { implicitSlot with source := h }
    updTrunk i (fun t => { t with slots := slots }) s

def slotsOfOwner (s : State) (trunk : Bool) (i : Nat) : List FwdSlot :=
  if trunk then ((s.obj.trunks.at? i).map (·.slots)).getD [] else ((s.obj.legs.at? i).map (·.slots)).getD []

def putSlots (trunk : Bool) (i : Nat) (fs : List FwdSlot) : State → State :=
  if trunk then updTrunk i fun t => { t with slots := fs } else updLeg i fun l => { l with slots := fs }

/-- The tenant of a leg or trunk. -/
def ownerTenant (s : State) (trunk : Bool) (i : Nat) : Nat := (objTenant s (if trunk then tyTrunk else tyLeg) i).getD 0

/-- A move that only a key picture permits (Table 06-4): any move to another note upward, and a simulcast source's move downward. -/
def needsKey (x : InStream) (f : FwdSlot) : Bool :=
  decide (0 ≤ f.want) && decide (f.cur ≠ f.want) &&
  (decide (f.cur < 0) || decide (stepNote f.cur < stepNote f.want) || (decide (x.decl.form = 1) && decide (stepNote f.cur ≠ stepNote f.want)))

/-- Ask for the key picture that a slot's pending move needs, at tick n: at once, and again every 1 s (R161). -/
def askForMove (trunk : Bool) (i n k : Nat) (s : State) : State :=
  match (slotsOfOwner s trunk i)[k]? with
  | none => s
  | some f =>
    match (liveIndex s tyIn f.source).bind fun j => (s.obj.ins.at? j).map fun x => (j, x) with
    | none => s
    | some (j, x) =>
      let due : Bool := match f.askedAt with
        | some t => decide (t + 1000 ≤ n)
        | none => true
      if needsKey x f ∧ due then
        let s := putSlots trunk i (modAt (slotsOfOwner s trunk i) k fun f => { f with askedAt := some n }) s
        countObj 0x0901 (handleOf s (if trunk then tyTrunk else tyLeg) i) 7 1 (requestKey j (encOfNote x (stepNote f.want)) f.askedAt.isNone s)
      else s

/-- A slot takes its target: at −1 it forwards nothing from now on. -/
def aimSlot (f : FwdSlot) (w : Int) : FwdSlot :=
  { f with want := w, cur := if w < 0 then -1 else f.cur, askedAt := if w = f.want then f.askedAt else none }

/-! ### Composites at a decision (R247, R260) -/

/-- Bc, kb/s: the share of the target less the audio, control and retransmission rates; the arithmetic is in bit/s (DEDUCED, log entry 51). -/
def compBudget (s : State) (l : Leg) (d : StreamRec) (target : Nat) : Nat :=
  let mine := l.sent.filter fun (x : Nat × Nat × Nat) => decide (logNs s < x.1 + 500000000) && decide (x.2.1 < 3)
  clampN (d.blk 8 4) (d.blk 12 4) ((target * 1000 - 16 * total (mine.map (·.2.2))) * d.blk 22 1 / 100 / 1000)

/-- Cost of a temporal ceiling, bit/s: the slices of the tile streams in use over the last 500 ms (R260; log entry 51). -/
def ceilingCost (s : State) (tiles : List (Option (Nat × Nat))) (u : Nat) : Nat :=
  16 * total (tiles.flatMap fun x => match x with
    | none => []
    | some (t, m) => match (s.obj.tilesets.at? t).bind fun ts => ts.members[m]? with
      | none => []
      | some b => (b.hist.filter fun (h : Nat × Nat × Nat) => decide (logNs s < h.1 + 500000000) && decide (h.2.1 ≤ u)).map (·.2.2))

/-- The temporal ceiling that a decision selects; none when even T0 is over budget (R260). -/
def chooseCeiling (s : State) (c : Comp) (bc layers n : Nat) : Option Nat :=
  let fits := fun (u : Nat) =>
    let x := ceilingCost s c.tiles u
    if u ≤ c.ceiling then decide (x * 4 / 5 ≤ bc * 1000)
    else decide (u = c.ceiling + 1) && decide (x * 11 / 10 ≤ bc * 1000) && (match c.ceilUp with
      | some t => decide (t + 500 ≤ n)
      | none => true)
  (((List.range layers).reverse).find? fits)

/-- A decision at one composite stream. -/
def decideComp (i n target : Nat) (l : Leg) (s : State) : State :=
  match s.obj.outs.at? i with
  | none => s
  | some o =>
    match o.comp with
    | none => s
    | some _ =>
      let bc := compBudget s l o.decl target
      let s := updComp i (fun c => { c with bc := some bc }) s
      match (s.obj.outs.at? i).bind (·.comp) with
      | none => s
      | some c =>
        if c.stitcher.isNone then s
        else match chooseCeiling s c bc (o.decl.blk 2 1) n with
          | some u => updComp i (fun c => { c with ceiling := u, ceilUp := if c.ceiling < u then some n else c.ceilUp }) s
          | none => countObj 0x0502 (outHandle s i) 12 1 (updComp i (fun c => { c with ceiling := 0 }) s)

/-- A decision at its log position, on both twins: the target, the retransmission allowance and the slots' target steps (R155, R160, R165). -/
def applyDecision (trunk : Bool) (i target n : Nat) (s : State) : State :=
  let h := handleOf s (if trunk then tyTrunk else tyLeg) i
  let s := if trunk then fillTrunk i s else s
  let s := modEst trunk i (fun e => { e with target := target, decided := true, allowance := target * 25 / 16 }) s
  let s := countObj 0x0901 h 4 1 (putObj 0x0901 h 3 target s)
  let fs := slotsOfOwner s trunk i
  let ws := selectNotes s n (budgetOf s trunk i target) fs
  let new := (fs.zip ws).map fun x => aimSlot x.1 x.2
  let paused := (new.filter fun f => decide (f.want < 0)).length
  let dropped := ((fs.zip new).filter fun (x : FwdSlot × FwdSlot) => decide (0 ≤ x.1.cur) && decide (x.2.cur < 0)).length
  let s := putSlots trunk i new s
  let t := ownerTenant s trunk i
  let s := countObj 0x0901 h 6 dropped (count t (slgCtr t 0x30) paused s)
  let s := (List.range new.length).foldl (fun s k => askForMove trunk i n k s) s
  match trunk, s.obj.legs.at? i with
  | false, some l => l.outs.foldl (fun s o => decideComp o n target l s) s
  | _, _ => s

/-! ### ESTIMATOR_DECISION and FEEDBACK_TIMEOUT_HALVING (R155, R157) -/

/-- The leg or trunk that decides at tick n: ACTIVE's own, on its turn, once, with its estimator and shaper rate. -/
def decides (s : State) (h : Handle) (n : Nat) : Option (Bool × Nat × Estimator × Option Nat) :=
  let turn := fun (i : Nat) (e : Estimator) => decide ((n + 50 * 8192 - i) % 50 = 0) && decide (e.decidedAt ≠ some n)
  if ¬ drivesPorts s ∨ logBusy s ∨ n ≠ s.media.tick then none
  else match liveIndex s tyLeg h with
    | some i => (s.obj.legs.at? i).bind fun l => if l.state = .active ∧ turn i l.est then some (false, i, l.est, l.shaper.rate) else none
    | none => (liveIndex s tyTrunk h).bind fun i => (s.obj.trunks.at? i).bind fun t => if turn i t.est then some (true, i, t.est, t.shaper.rate) else none

/-- Place a decision in the log and apply it. -/
def logDecision (trunk : Bool) (i target n : Nat) (s : State) : State :=
  applyDecision trunk i target n (logInput (.estimate (handleOf s (if trunk then tyTrunk else tyLeg) i) target)
    (modEst trunk i (fun e => e.fresh target n) s))

/-- The decision of a leg or trunk at tick n, where a test of its estimator holds. -/
def decideAt (leg : Handle) (n : Nat) (test : Estimator → Bool) (s : State) : State :=
  match decides s leg n with
  | some (trunk, i, e, rate) =>
    if test e then inInput (logDecision trunk i (e.decide_ rate (ownerLine s trunk i) n) n) s else s
  | none => s

/-- ESTIMATOR_DECISION (R155, R156). -/
def execEstimatorDecision (leg : Handle) (n : Nat) (s : State) : Host.Outcome State Fault Refusal := done s (decideAt leg n (fun _ => true) s)

/-- FEEDBACK_TIMEOUT_HALVING (R157): the decision at tick n, where it halves the target, down to the minimum. -/
def execFeedbackTimeoutHalving (leg : Handle) (n : Nat) (s : State) : Host.Outcome State Fault Refusal := done s (decideAt leg n (·.halves n) s)

end Sys2Proof.Machine
end

