-- ==== Sys2Proof/Machine/Forward.lean ====
section
/-! DEFINITION. Note forwarding: switch points, the rewriting of forwarded packets, trunks and relays, and retransmission on NACK (R161-R165,
R168, R178-R181). -/

namespace Sys2Proof.Machine

/-- A source packet that may be forwarded. -/
structure SrcPkt where
  /-- Inbound stream index and encoding. -/
  stream : Nat
  enc : Nat
  /-- Authenticated RTP packet. -/
  rtp : List Byte
  /-- Logged arrival, ns. -/
  arrival : Nat
  /-- Note and temporal layer. -/
  note : Nat
  tl : Nat
  /-- First packet of a picture, key picture, temporal switch point, spatial switch-up point, last packet of a picture. -/
  first : Bool
  key : Bool
  tsw : Bool
  up : Bool
  last : Bool
  /-- Hops that it has left, and the trunk that it arrived on. -/
  hops : Nat
  from_ : Option Nat
  /-- Originating device and picture tick of its trunk header, when it came by one (Table 02-13). -/
  origin : Option (Nat × Nat)
  /-- It keeps its sender's inner protection: FLAGS[20] of a trunk header (R129). -/
  inner : Bool
  deriving DecidableEq, Repr

/-- What the payload format says of a packet of a local source (Table 02-10; log entry 40). -/
def localPkt (x : InStream) (inner : Bool) (i k : Nat) (rtp : List Byte) (arrival : Nat) : SrcPkt :=
  let (sid, tl, fl) := Config.packetLayer (x.decl.blk 0 1) (rtpData rtp)
  let note := if x.decl.form = 1 then ((x.encs[k]?).map (·.note)).getD 0
    else if x.decl.form = 2 then ([0, 1, 2].find? fun n => decide (x.decl.layers.getD n 0xFF = sid)).getD 0 else 0
  { stream := i, enc := k, rtp := rtp, arrival := arrival, note := note, tl := if tl < 3 then tl else 2, first := bit fl 0, key := bit fl 1,
    tsw := bit fl 2, up := bit fl 3, last := bit fl 4, hops := 8, from_ := none, origin := none, inner := inner }

/-- What the trunk header says of a packet of a remote source: FLAGS[22] is its switch point, and the payload is not parsed (R180). -/
def remotePkt (i k : Nat) (h : TrunkHdr) (rtp : List Byte) (arrival trunk : Nat) : SrcPkt :=
  let sw := bit h.flags 6
  { stream := i, enc := k, rtp := rtp, arrival := arrival, note := h.note, tl := h.tl, first := sw, key := sw, tsw := sw, up := sw,
    last := bit h.flags 5, hops := h.hops - 1, from_ := some trunk, origin := h.dev.map fun d => (d, h.tick), inner := bit h.flags 4 }

/-- Move a slot from its current step toward its target where Table 06-4 permits it on this packet; `newPic` says that the packet begins another
picture than the last one forwarded. -/
def moveStep (form : Nat) (p : SrcPkt) (newPic : Bool) (cur want : Int) : Int :=
  let first := p.first || (p.from_.isSome && newPic)
  if cur = want ∨ want < 0 ∨ ¬ first then cur
  else
    let nw := stepNote want
    let keyed := p.key && decide (if form = 1 then p.note = nw else p.note ≤ nw)
    if cur < 0 then (if keyed || (decide (form ≠ 1) && p.up && decide (p.note = nw)) then want else cur)
    else
      let nc := stepNote cur
      let up := p.tsw || decide (p.tl = 0)
      let mine := decide (form ≠ 1) || decide (p.note = nc)
      let tl := if mine && (decide (stepTl want ≤ stepTl cur) || up) then stepTl want else stepTl cur
      if nw = nc then ((3 * nc + tl : Nat) : Int)
      else if form = 1 then (if keyed then want else cur)
      else if nw < nc then ((3 * nw + tl : Nat) : Int)
      else if keyed || (p.up && decide (p.note = nw)) then want else cur

/-- A packet belongs to a step. -/
def inStep (form : Nat) (p : SrcPkt) (cur : Int) : Bool :=
  decide (0 ≤ cur) && decide (p.tl ≤ stepTl cur) && decide (if form = 1 then p.note = stepNote cur else p.note ≤ stepNote cur)

/-- The slot after it took a packet of its source at tick n: its move, and for a packet that it forwards the timestamp offset of R162. True when
it forwards the packet. -/
def takeSlot (form : Nat) (p : SrcPkt) (n : Nat) (f : FwdSlot) : FwdSlot × Bool :=
  let src := beAt p.rtp 8 4
  let ts := beAt p.rtp 4 4
  let same := decide (f.lastEnc = some (BitVec.ofNat 32 src))
  let newPic := !(same && decide ((ts + f.tsOff.toNat) % 2 ^ 32 = f.lastTs.toNat))
  let cur := moveStep form p newPic f.cur f.want
  let f := { f with lastUp := if f.cur < cur then some n else f.lastUp, askedAt := if cur = f.want then none else f.askedAt, cur := cur }
  if inStep form p cur then
    let off := if same ∨ f.lastEnc = none then f.tsOff
      else f.lastTs + BitVec.ofNat 32 (((p.arrival - f.lastArr) * 9 + 50000) / 100000) - BitVec.ofNat 32 ts
    ({ f with tsOff := off, lastEnc := some (BitVec.ofNat 32 src), lastTs := BitVec.ofNat 32 ts + off,
              lastSeq := beAt p.rtp 2 2, lastArr := if newPic then p.arrival else f.lastArr }, true)
  else (f, false)

/-- The class of a note (Table 06-5). -/
def noteClass (want : Int) : EgClass := match stepNote want with
  | 0 => .base
  | 1 => .heart
  | _ => .top

/-- The class of an SSRC's next packet: that of the packets of it that wait, else the target's (R168). -/
def classFor (s : State) (leg : Nat) (f : FwdSlot) : EgClass :=
  match s.media.egress.find? fun q => !q.onTrunk && decide (q.owner = leg) && q.ssrc == f.ssrc with
  | some q => q.cls
  | none => noteClass f.want

/-- Count a slot's moves (Table 06-11). -/
def countMove (h : Handle) (old new : FwdSlot) (s : State) : State :=
  if old.cur < new.cur then countObj 0x0901 h 5 1 s else if new.cur < old.cur then countObj 0x0901 h 6 1 s else s

/-- An RTP packet with another payload type. -/
def withType (pt : Nat) (rtp : List Byte) : List Byte := patch rtp 1 [BitVec.ofNat 8 (beAt rtp 1 1 / 128 * 128 + pt % 128)]

/-- One packet at one slot of a leg (R161, R162). -/
def forwardSlot (leg k : Nat) (x : InStream) (p : SrcPkt) (s : State) : State :=
  match s.obj.legs.at? leg with
  | none => s
  | some l =>
    match l.slots[k]? with
    | none => s
    | some f =>
      let (g, out) := takeSlot x.decl.form p s.media.tick f
      let s := countMove (handleOf s tyLeg leg) f g (updLeg leg (fun l => { l with slots := modAt l.slots k fun _ => g }) s)
      if out ∧ l.sends then
        let q := patch (patch p.rtp 4 (beBytes 4 g.lastTs.toNat)) 8 (beBytes 4 f.ssrc.toNat)
        let q := match typesFor s l x with
          | some d => withType d.pt q
          | none => q
        enterTx { legPkt leg l (classFor s leg g) f.ssrc f.slot false q with
          orig := if p.inner then some (beAt p.rtp 1 1 % 128, beAt p.rtp 2 2, BitVec.ofNat 32 (beAt p.rtp 8 4)) else none } s
      else s

/-- The packets of a local source keep the sender's inner protection (R129, Table 02-13). -/
def isInner (s : State) (x : InStream) : Bool :=
  (((slotAt s (hIndex x.decl.slot)).bind (·.key)).map fun k => isDouble k.profile.toNat).getD false

/-- TICK of a TYPE 0 packet: the picture tick that its picture belongs to, by the rate that its source declares. The manual names no picture clock of
a source; a relayed packet keeps its own (DESIGN CHOICE, log entry 148). -/
def pktTick (x : InStream) (p : SrcPkt) : Nat := (p.origin.map (·.2)).getD (p.arrival * x.decl.blk 8 2 / 1000000000)

/-- One packet at one implicit slot of a trunk: TYPE 0 with NOTE and TL, and FLAGS[22] where a switch is permitted (R178, R179, R181). HOPS is one
less than it arrived with (R59). -/
def forwardTrunk (trunk k : Nat) (x : InStream) (gconf gleg : Nat) (p : SrcPkt) (s : State) : State :=
  match s.obj.trunks.at? trunk with
  | none => s
  | some t =>
    match t.slots[k]? with
    | none => s
    | some f =>
      let (g, out) := takeSlot x.decl.form p s.media.tick f
      let s := countMove (handleOf s tyTrunk trunk) f g (updTrunk trunk (fun t => { t with slots := modAt t.slots k fun _ => g }) s)
      if out then
        let sw := p.first && (p.key || p.tsw || p.up || decide (p.tl = 0))
        sendTrunk trunk { ty := 0, flags := b2n sw * 64 + b2n p.last * 32 + b2n p.inner * 16, hops := p.hops, dev := p.origin.map (·.1), gconf := gconf,
                          gleg := gleg, note := p.note, tl := p.tl, tick := pktTick x p } p.rtp s
      else s

/-- Slots of a list that hold a source. -/
def slotsFor (h : Handle) (fs : List FwdSlot) : List Nat := ((indexed fs).filter fun kf => kf.2.source == h).map (·.1)

/-- A conference forwards video: its media mode is 1 or 2 (R35, Table 02-5). -/
def forwards (s : State) (conf : Nat) : Bool := ((s.obj.confs.at? conf).map fun c => decide (1 ≤ c.mode)).getD false

/-- Forward a video packet of a source to every slot of its conference that names it, and to the trunks that select it, never to the one it
arrived on (R35, R161, R178, R181). -/
def forwardPkt (p : SrcPkt) (s : State) : State :=
  match s.obj.ins.at? p.stream with
  | none => s
  | some x =>
    let h := handleOf s tyIn p.stream
    let conf := if x.onTrunk then confOfGconf s x.gconf else confOfIn s x
    if ¬ ((conf.map (forwards s)).getD false) then s else
    let legs := s.obj.legs.live.filter fun kv => decide (some kv.2.conf = conf)
    let s := legs.foldl (fun s (kv : Nat × Leg) => (slotsFor h kv.2.slots).foldl (fun s k => forwardSlot kv.1 k x p s) s) s
    let gconf := if x.onTrunk then x.gconf else ((conf.bind s.obj.confs.at?).map (·.gconf)).getD 0
    let gleg := if x.onTrunk then x.gleg else globalLeg s x.owner
    let trunks := s.obj.trunks.live.filter fun kv => decide (some kv.1 ≠ p.from_)
    trunks.foldl (fun s (kv : Nat × Trunk) => (slotsFor h kv.2.slots).foldl (fun s k => forwardTrunk kv.1 k x gconf gleg p s) s) s

/-! ### Retransmission (R164, R165) -/

/-- Sequence numbers that a generic NACK names. -/
def nackNumbers : Nat → List Byte → List Nat
  | 0, _ => []
  | fuel + 1, bs =>
    if bs.length < 4 then []
    else
      let pid := beAt bs 0 2
      let blp := beAt bs 2 2
      (pid :: ((List.range 16).filter (bit blp)).map fun i => (pid + 1 + i) % 65536) ++ nackNumbers fuel (bs.drop 4)

/-- An RFC 4588 packet: the original with the RTX SSRC and payload type, and the original sequence number before the payload. -/
def rtxPacket (e : RtxEntry) : List Byte :=
  let n := rtpHeadLen e.plain
  let h := patch (e.plain.take n) 8 (beBytes 4 e.rtxSsrc.toNat)
  patch h 1 [BitVec.ofNat 8 (beAt h 1 1 / 128 * 128 + e.rtxPt % 128)] ++ beBytes 2 e.seq.toNat ++ e.plain.drop n

/-- The first entry of the cache for a packet, with its place. -/
def findCache (leg : Nat) (ssrc : Word) (seq : Nat) (l : List RtxEntry) : Option (Nat × RtxEntry) :=
  (indexed l).find? fun kv => decide (kv.2.owner = leg) && kv.2.ssrc == ssrc && decide (kv.2.seq.toNat = seq)

/-- The slot of a leg that forwards a remote source under an SSRC, with that source. -/
def remoteOf (s : State) (l : Leg) (ssrc : Word) : Option (FwdSlot × Nat) :=
  (l.slots.find? fun f => f.ssrc == ssrc).bind fun f => (liveIndex s tyIn f.source).bind fun i =>
    (s.obj.ins.at? i).bind fun x => if x.onTrunk then some (f, i) else none

/-- How far a number lies ahead of the last one that a slot's packets have, or will have once those that wait are encrypted; none behind it. -/
def numberAhead (s : State) (leg : Nat) (f : FwdSlot) (seq : Nat) : Option Nat :=
  let waits := ((s.media.egress ++ s.media.outQ).filter fun p =>
    !p.onTrunk && decide (p.owner = leg) && p.ssrc == f.ssrc && !p.rtcp && !p.cipher.isSome).length
  let next := ((slotAt s (hIndex f.slot)).map (·.next)).getD 0 + waits
  let d := (seq + 65536 - next % 65536) % 65536
  if d < 32768 then some d else none

/-- A NACK for a packet that never came to the device, because a trunk lost it, goes on to the origin as TYPE 3 with the source's own SSRC and number
(R164). Attar has assigned such a packet no number: its number lies ahead of the slot's (DEDUCED, log entry 150). -/
def relayNack (leg : Nat) (l : Leg) (ssrc : Word) (seq : Nat) (s : State) : State :=
  match remoteOf s l ssrc with
  | none => s
  | some (f, i) =>
    match numberAhead s leg f seq, f.lastEnc with
    | some d, some x => feedback i (fun me => rtcpFb 205 1 me x (beBytes 2 ((f.lastSeq + 1 + d) % 65536) ++ [0, 0])) s
    | _, _ => s

/-- One sequence number that an authenticated NACK of a leg names, at log time t (R164, R165). -/
def nackOne (leg : Nat) (ssrc : Word) (t seq : Nat) (s : State) : State :=
  match s.obj.legs.at? leg with
  | none => s
  | some l =>
    let h := handleOf s tyLeg leg
    let s := countObj 0x0901 h 8 1 s
    let miss := fun (s : State) => count l.tenant (slgCtr l.tenant 0x20) 1 s
    match findCache leg ssrc seq s.media.cache with
    | none => relayNack leg l ssrc seq (miss s)
    | some (k, e) =>
      if e.at_ + 1000000000 < t then miss s
      else if 0 < e.times ∧ t < e.lastAt + 40000000 then s
      else if 3 ≤ e.times then miss s
      else
        let pkt := { legPkt leg l .rtx e.rtxSsrc e.rtxSlot false (rtxPacket e) with born := t }
        let len := pkt.frameLen s
        if l.est.allowance < len then count l.tenant (slgCtr l.tenant 0x28) 1 s
        else if l.sends then
          let s := { s with media := { s.media with cache := modAt s.media.cache k fun e => { e with times := e.times + 1, lastAt := t } } }
          let s := updLeg leg (fun l => { l with est := { l.est with allowance := l.est.allowance - len } }) s
          enterTx pkt (countObj 0x0901 h 9 1 (count l.tenant (slgCtr l.tenant 0x24) 1 s))
        else s

/-- A generic NACK from a leg (R164). -/
def takeNack (leg : Nat) (m : List Byte) (t : Nat) (s : State) : State :=
  (nackNumbers m.length (m.drop 12)).foldl (fun s q => nackOne leg (BitVec.ofNat 32 (beAt m 8 4)) t q s) s

/-! ### Key requests from receivers -/

/-- A PLI or FIR for an outbound SSRC of a leg: a request on its composite (R251), or, for a forwarded slot, a request toward the source for the
encoding it forwards (DEDUCED from Tables 02-14 and 06-5, log entry 44). -/
def takeKeyRequest (leg : Nat) (ssrc : Word) (fir : Option Byte) (s : State) : State :=
  match s.obj.legs.at? leg with
  | none => s
  | some l =>
    match l.outs.find? fun i => ((s.obj.outs.at? i).map fun o => decide (o.decl.kind = 3) && o.decl.ssrcs.getD 0 0 == ssrc).getD false with
    | some i =>
      let known := (((s.obj.outs.at? i).bind (·.comp)).map fun c => c.lastFir.isSome && decide (c.lastFir = fir)).getD false
      if fir.isSome ∧ known then s
      else requestComposite i (updComp i (fun c => { c with lastFir := if fir.isSome then fir else c.lastFir }) s)
    | none =>
      match l.slots.find? fun f => f.ssrc == ssrc with
      | none => s
      | some f =>
        match liveIndex s tyIn f.source with
        | none => s
        | some i => ((s.obj.ins.at? i).map fun x => requestKey i (encOfNote x (stepNote (if f.cur < 0 then f.want else f.cur))) false s).getD s

/-- The FIR items of a message: SSRC and sequence number (RFC 5104). -/
def firItems : Nat → List Byte → List (Word × Byte)
  | 0, _ => []
  | fuel + 1, bs => if bs.length < 8 then [] else (BitVec.ofNat 32 (beAt bs 0 4), BitVec.ofNat 8 (beAt bs 4 1)) :: firItems fuel (bs.drop 8)

/-- One message of an authenticated RTCP packet of a leg, at log time t. -/
def takeRtcpPart (leg : Nat) (m : List Byte) (t : Nat) (s : State) : State :=
  let pt := beAt m 1 1
  let fmt := beAt m 0 1 % 32
  if pt = 205 ∧ fmt = 1 then takeNack leg m t s
  else if pt = 206 ∧ fmt = 1 then takeKeyRequest leg (BitVec.ofNat 32 (beAt m 8 4)) none s
  else if pt = 206 ∧ fmt = 4 then
    (firItems m.length (m.drop 12)).foldl (fun s (r : Word × Byte) => takeKeyRequest leg r.1 (some r.2) s) s
  else takeFeedback false leg m s

/-- An authenticated RTCP packet of a leg (R154, R164, R251). -/
def takeRtcp (leg : Nat) (plain : List Byte) (t : Nat) (s : State) : State :=
  (rtcpParts plain.length plain).foldl (fun s m => takeRtcpPart leg m t s) s

/-- Feedback that a trunk relays (TYPE 3): transport feedback is the trunk's own; a NACK, PLI or FIR goes to the sender of the local source it
names, or on to the trunk of a remote source, with its originating device and one hop less, never back (R59, R164, R205; log entry 26). -/
def takeTrunkFeedback (trunk : Nat) (h : TrunkHdr) (m : List Byte) (s : State) : State :=
  let pt := beAt m 1 1
  let fmt := beAt m 0 1 % 32
  if pt = 205 ∧ fmt ≠ 1 then takeFeedback true trunk m s
  else
    let ssrc := BitVec.ofNat 32 (if pt = 206 ∧ fmt = 4 then beAt m 12 4 else beAt m 8 4)
    let hit := fun (x : InStream) => (indexed x.encs).findSome? fun ke => if ke.2.ssrc == ssrc then some ke.1 else none
    let owner := fun (x : InStream) => if x.onTrunk then decide (x.gleg = h.gleg) else decide (globalLeg s x.owner = h.gleg)
    match s.obj.ins.live.findSome? fun kv => if owner kv.2 then (hit kv.2).map fun k => (kv.1, k) else none with
    | none => s
    | some (i, k) =>
      match (s.obj.ins.at? i).filter (·.onTrunk) with
      | some x => if x.owner = trunk then s else sendTrunk x.owner { h with hops := h.hops - 1 } m s
      | none => if pt = 205 then feedback i (fun me => patch m 4 (beBytes 4 me.toNat)) s else requestKey i k (decide (fmt = 4)) s

end Sys2Proof.Machine
end

