-- ==== Sys2Proof/Machine/Sched.lean ====
section
/-! DEFINITION. Time gates and the egress scheduler: GATE_SET, the gate instants, the audio override, shaper credit, and the pick of the next
packet by port, tenant, leg and class (R106, R166-R177). -/

namespace Sys2Proof.Machine

/-! ### Gate schedules (R172-R175) -/

/-- Bytes of a gate list entry that break R173: the reserved bits, a duration below 8 ns, or a window that does not end within its period. -/
def gateEntries (bs : List Byte) : List (Byte × Nat) :=
  (List.range (bs.length / 8)).map fun i => (BitVec.ofNat 8 (leAt bs (8 * i + 4) 1), leAt bs (8 * i) 4)

/-- The first entry that violates R173; a sum other than the period is charged to the last entry (DESIGN CHOICE, log entry 45). -/
def gateListFault (mode : Bool) (period : Nat) (es : List (Byte × Nat)) : Option Nat :=
  match (indexed es).find? fun e => decide (e.2.2 < 8) || (!mode && decide (period ≤ e.2.2)) with
  | some e => some e.1
  | none => if mode ∧ total (es.map (·.2)) ≠ period then some (es.length - 1) else none

/-- The schedule that GATE_SET describes, with its start (R174). -/
def gatePlanOf (c : Cmd) (s : State) : GatePlan :=
  let x := portOf s (c.u8 16)
  let now := nowNs s
  let oldEnd := match x.gatePlan with
    | some g => g.cycleEnd now
    | none => now
  let from_ := if oldEnd < now + 100000 then now + 100000 else oldEnd
  if c.u16 36 = 0 then { mode := decide (c.u8 17 = 1), fixed := decide (c.u8 18 = 1), base := 0, period := 1, entries := [], start := from_, oldEnd := oldEnd }
  else
    let base := c.u64 24
    let period := c.u32 32
    { mode := decide (c.u8 17 = 1), fixed := decide (c.u8 18 = 1), base := base, period := period, entries := gateEntries (c.data.getD [])
      start := if from_ ≤ base then base else base + ceilDiv (from_ - base) period * period, oldEnd := oldEnd }

/-- GATE_SET (R172-R174). -/
def ruleGateSet : CmdRule where
  op := 0x0905
  t0 := true
  logged := true
  plen := .fixed 32
  lengths c _ := [failIf (decide (c.u16 36 ≠ 0) && decide (c.u16 36 ≤ 1024) && decide (c.u64 40 % 8 = 0) && c.data.isNone) stDmaFault 0]
  zeroFields c _ := [if c.u16 36 = 0 then none else zeroAt c 32 4]
  fields c _ :=
    let n := c.u16 36
    let es := gateEntries (c.data.getD [])
    let bad := (indexed es).find? fun e => decide (leAt (c.data.getD []) (8 * e.1 + 5) 3 ≠ 0)
    [rangeAt c 16 1 0 7, rangeAt c 17 1 0 1, rangeAt c 18 1 0 1, padAt c 19 5] ++
    (if n = 0 then [padAt c 38 2]
     else [rangeAt c 32 4 1000 1000000000, rangeAt c 36 2 1 (if c.u8 17 = 1 then 1024 else 1), padAt c 38 2, alignAt c 40 8,
       bad.map fun e => ⟨stFormat, BitVec.ofNat 32 (64 + 8 * e.1)⟩,
       (gateListFault (decide (c.u8 17 = 1)) (c.u32 32) es).map fun i => ⟨stRange, BitVec.ofNat 32 (64 + 8 * i)⟩])
  states c s := [failIf (!portExists s (c.u8 16)) stState 16]
  effect c s := ({}, modPort (c.u8 16) (fun x => { x with gateNext := some (gatePlanOf c s) }) s)

def execGateSet (c : Cmd) (s : State) : Host.Outcome State Fault Refusal := issue ruleGateSet c s

/-- GATE_SCHEDULE_SWITCH: the waiting schedule replaces the old one at its start (R174). -/
def switchGates (p : Nat) (s : State) : State :=
  match (portOf s p).gateNext with
  | none => s
  | some g => modPort p (fun x => { x with gatePlan := some g, gateNext := none, gates := g.openAt g.start }) s

def execGateScheduleSwitch (port : PortNo) (s : State) : Host.Outcome State Fault Refusal := done s (switchGates port.val s)

/-- GATE_INSTANT: the gates as the schedule has them now (R173). -/
def execGateInstant (port : PortNo) (s : State) : Host.Outcome State Fault Refusal :=
  done s (modPort port.val (fun x => { x with gates := x.gatesAt (nowNs s) }) s)

/-! ### Eligibility (R166, R171, R175, R176) -/

/-- Priority of a packet: the PCP of its leg or trunk, 0 for an untagged one (R173). -/
def EgPkt.prio (s : State) (p : EgPkt) : Nat := ((transportOf s p.onTrunk p.owner).map (·.prio)).getD 0

/-- The packet's gate admits it now, with the guard of its port (R175). -/
def gateAdmits (s : State) (p : EgPkt) : Bool := portAdmits s p.port.val (p.prio s) (p.frameLen s)

/-- A queue head may be sent now. -/
def eligible (s : State) (p : EgPkt) : Bool :=
  p.wait.isNone && !isPaused s p.port.val (p.prio s) && (p.overGate || gateAdmits s p) && decide (p.notBefore ≤ nowNs s) &&
  (decide (p.cls = .audio) || ((shaperNow s p.onTrunk p.owner).map fun h => decide (0 ≤ h.credit)).getD true)

/-- The queue that a packet waits in: its leg and class, or its trunk. -/
def EgPkt.queue (p : EgPkt) : Nat × Nat := if p.onTrunk then (8192 + p.owner, 0) else (p.owner, p.cls.num)

/-- The heads of the class queues of a port, in admission order. -/
def headsOf (seen : List (Nat × Nat)) : List EgPkt → List EgPkt
  | [] => []
  | p :: r => if seen.contains p.queue then headsOf seen r else p :: headsOf (p.queue :: seen) r

def portHeads (s : State) (port : Nat) : List EgPkt := headsOf [] (s.media.egress.filter fun p => decide (p.port.val = port))

/-- A packet of the same queue entry. -/
def EgPkt.same (p q : EgPkt) : Bool := p.queue == q.queue && decide (p.streamId = q.streamId) && decide (p.number = q.number)

/-! ### Byte deficit round robin (R167) -/

/-- One level: the entry that is served, and the deficits after it. The entry whose turn it is is served while its deficit lasts; the next entry in
cyclic order then gets its quantum. -/
def drr (quantum size : Nat → Nat) (keys : List Nat) : Nat → Nat → Tbl Nat → Option (Nat × Tbl Nat)
  | 0, _, _ => none
  | fuel + 1, turn, defs =>
    if keys.contains turn ∧ size turn ≤ tgetD defs turn 0 then some (turn, tput defs turn (tgetD defs turn 0 - size turn))
    else match (after turn keys).orElse fun _ => keys.head? with
      | none => none
      | some k => drr quantum size keys fuel k (tput defs k (tgetD defs k 0 + quantum k))

/-- Turns enough for the longest frame at the smallest quantum. -/
def drrFuel (keys : List Nat) : Nat := keys.length * 40 + 40

/-- The weight of a leg (key below 8,192) or trunk. -/
def weightOf (s : State) (k : Nat) : Nat :=
  if k < 8192 then ((s.obj.legs.at? k).map (·.weight)).getD 1 else ((s.obj.trunks.at? (k - 8192)).map (·.weight)).getD 1

/-- The class head that a leg or trunk offers: strict priority among its eligible heads. -/
def offer (heads : List EgPkt) (k : Nat) : Option EgPkt :=
  (heads.filter fun p => decide (p.queue.1 = k)).foldl (fun a p => match a with
    | none => some p
    | some q => if p.cls.num < q.cls.num then some p else some q) none

/-- The leg or trunk that a tenant would serve, with the deficits of its level. -/
def legChoice (s : State) (x : Port) (heads : List EgPkt) (t : Nat) : Option (EgPkt × Nat × Tbl Nat) :=
  let mine := heads.filter fun p => decide (p.tenant = t)
  let keys := distinct (mine.map (·.queue.1))
  let size := fun k => ((offer mine k).map (·.frameLen s)).getD 0
  let defs := (x.deficits.filter fun kv => decide (64 ≤ kv.1)).map fun kv => (kv.1 - 64, kv.2)
  match drr (fun k => weightOf s k * 256) size keys (drrFuel keys) (tgetD x.legTurn t 0) defs with
  | some (k, defs) => (offer mine k).map fun p => (p, k, defs)
  | none => none

/-- The packet that a port sends next, and the port with its turns and deficits; an entry whose queue becomes empty loses its deficit. -/
def choose (s : State) (port : Nat) : Option (EgPkt × Port) :=
  let x := portOf s port
  let heads := (portHeads s port).filter (eligible s)
  let keys := distinct (heads.map (·.tenant))
  let size := fun t => ((legChoice s x heads t).map fun (c : EgPkt × Nat × Tbl Nat) => c.1.frameLen s).getD 0
  let tenants := x.deficits.filter fun kv => decide (kv.1 < 64)
  match drr (fun _ => 16384) size keys (drrFuel keys) x.tenantTurn tenants with
  | none => none
  | some (t, tenants) =>
    match legChoice s x heads t with
    | none => none
    | some (p, k, legs) =>
      let rest := s.media.egress.filter fun q => decide (q.port.val = port) && !q.same p
      let tenants := if rest.any fun q => decide (q.tenant = t) then tenants else tdel tenants t
      let legs := if rest.any fun q => decide (q.queue.1 = k) then legs else tdel legs k
      some (p, { x with tenantTurn := t, legTurn := tput x.legTurn t k, deficits := tenants ++ legs.map fun kv => (kv.1 + 64, kv.2) })

/-! ### EGRESS_SCHEDULE -/

/-- Take a packet out of Sillage. -/
def takeEgress (p : EgPkt) (s : State) : State :=
  { s with media := { s.media with egress := s.media.egress.filter fun q => !q.same p } }

/-- The handle of a packet's leg or trunk. -/
def EgPkt.ownerHandle (s : State) (p : EgPkt) : Handle := handleOf s (if p.onTrunk then tyTrunk else tyLeg) p.owner

/-- Heads that only their gate holds are counted once each (Table 06-11 index 10). -/
def countHolds (port : Nat) (s : State) : State :=
  let mine := (portHeads s port).filter fun p => !p.held && !p.overGate && !gateAdmits s p && eligible s { p with overGate := true }
  let s := mine.foldl (fun s (p : EgPkt) => countObj 0x0901 (p.ownerHandle s) 10 1 s) s
  { s with media := { s.media with egress := s.media.egress.map fun q => if mine.any q.same then { q with held := true } else q } }

/-- EV_PRECEDENCE at most once per second per port; `last` is when it was posted last. -/
def oncePerSec (last : Option Nat) (now : Nat) : Bool := match last with
  | some t => decide (t + 1000000000 ≤ now)
  | none => true

/-- A leg that closed gates keep backlogged beyond 50 ms of its committed rate: EV_PRECEDENCE with levels 4 and 5 (R177). -/
def noteBacklog (port : Nat) (s : State) : State :=
  let bytes := fun (i : Nat) => total ((s.media.egress.filter fun p => !p.onTrunk && decide (p.owner = i) && decide (p.port.val = port)).map (·.frameLen s))
  match tfind s.obj.legs.live fun i l => decide (l.transport.port.val = port) && !(portOf s port).gates.getLsbD l.transport.prio &&
      decide (25 * least (l.shaper.rate.getD (lineRate s port)) l.est.target < 4 * bytes i) with
  | none => s
  | some (i, _) =>
    if oncePerSec (portOf s port).precRate (nowNs s) then
      postPrecedence 4 5 (handleOf s tyLeg i).toNat false (modPort port (fun x => { x with precRate := some (nowNs s) }) s)
    else s

/-- Charge the shaper with a frame and its 20 bytes on the line (R171). -/
def charge (p : EgPkt) (s : State) : State :=
  let cost : Int := ((p.frameLen s + 20) * 8000000 : Nat)
  modShaper p.onTrunk p.owner (fun h => { h with credit := h.credit - cost }) (refillShaper p.onTrunk p.owner s)

/-- One pick at a port that the device drives. A frame longer than MAC_MAXLEN is discarded here, before it has an index (R106). -/
def schedule (port : Nat) (s : State) : State :=
  let s := noteBacklog port (countHolds port s)
  match choose s port with
  | none => s
  | some (p, x) =>
    let s := takeEgress p s
    if x.maxLen < p.frameLen s then consumed p (count1 (portCtr port 0x22C) s)
    else
      let s := charge p (modPort port (fun _ => x) s)
      let s := if p.overGate then countObj 0x0901 (p.ownerHandle s) 11 1 s else s
      { s with media := { s.media with outQ := s.media.outQ ++ [p] } }

/-- A device that follows a log takes its packets in admission order: the port's conditions are ACTIVE's (R433, Table 06-9). -/
def scheduleShadow (port : Nat) (s : State) : State :=
  match s.media.egress.find? fun p => decide (p.port.val = port) && p.wait.isNone with
  | none => s
  | some p =>
    let s := takeEgress p s
    if (portOf s port).maxLen < p.frameLen s then s else { s with media := { s.media with outQ := s.media.outQ ++ [p] } }

/-- EGRESS_SCHEDULE (R166, R167). -/
def execEgressSchedule (port : PortNo) (s : State) : Host.Outcome State Fault Refusal :=
  done s (if followsLog s then scheduleShadow port.val s else if drivesPorts s then schedule port.val s else s)

/-! ### AUDIO_GATE_OVERRIDE (R176) -/

/-- The first audio packet of a leg that waited more than 10 ms only because its gate is closed becomes eligible regardless of the gate. -/
def overrideGate (leg : Nat) (s : State) : State :=
  match (s.media.egress.find? fun p => !p.onTrunk && decide (p.owner = leg) && decide (p.cls = .audio) && !p.overGate) with
  | none => s
  | some p =>
    if nowNs s ≤ p.born + 10000000 ∨ gateAdmits s p ∨ ¬ eligible s { p with overGate := true } ∨ ¬ drivesPorts s then s
    else
      let s := { s with media := { s.media with egress := s.media.egress.map fun q => if q.same p then { q with overGate := true } else q } }
      if oncePerSec (portOf s p.port.val).precAudio (nowNs s) then
        postPrecedence 3 4 (handleOf s tyLeg leg).toNat false (modPort p.port.val (fun x => { x with precAudio := some (nowNs s) }) s)
      else s

def execAudioGateOverride (leg : Nat) (s : State) : Host.Outcome State Fault Refusal := done s (overrideGate leg s)

end Sys2Proof.Machine
end

