-- ==== Sys2Proof/Machine/Video.lean ====
section
/-! DEFINITION. Video decode: assembly and loss, the decode of a picture, references that never arrived, key requests, and the picture that a tick
hands over (chapter 7). What a decode context produces is fixed at the log position that completes or releases the picture (R208, log entry 160). The
codecs' syntax and arithmetic are open (log entry 6). -/

namespace Sys2Proof.Machine

/-! ### Counters (R209, R210) -/

/-- Count a decode event of a source and of its home cluster. -/
def countDec (i idx off : Nat) (s : State) : State :=
  let s := countObj 0x0501 (handleOf s tyIn i) idx 1 s
  match (s.obj.ins.at? i).bind (·.dec) with
  | some d => if off = 0 then s else count1 (vidCtr d.home.val off) s
  | none => s

/-- An encoding of an inbound source. -/
def encOf (s : State) (i k : Nat) : Option Encoding := (s.obj.ins.at? i).bind fun x => x.encs[k]?

def modEnc (i k : Nat) (f : Encoding → Encoding) : State → State := updIn i fun x => { x with encs := modAt x.encs k f }

def modDec (i : Nat) (f : DecCtx → DecCtx) : State → State := updIn i fun x => { x with dec := x.dec.map f }

/-! ### Assembly (R196) -/

/-- The encoding is assembled for decoding: that of the decode note, and of the note that a pending change moves to. -/
def isDecoded (k : Nat) (x : InStream) : Bool :=
  match x.dec with
  | none => false
  | some d => !(d.state == .idle) && (decide (encOfNote x d.note = k) || decide (encOfNote x (d.target.getD d.note) = k))

/-- Restore an RTX packet to its original sequence number and SSRC (RFC 4588): the media SSRC that pairs with it. -/
def restoreRtx (d : StreamRec) (rtp : List Byte) : Option (List Byte) :=
  let ssrc := BitVec.ofNat 32 (beAt rtp 8 4)
  match ((indexed d.rtx).find? fun r => r.2 == ssrc && r.2 != 0) with
  | none => none
  | some (j, _) =>
    let n := rtpHeadLen rtp
    let h := patch (patch (rtp.take n) 2 (slice rtp n 2)) 8 (beBytes 4 (d.ssrcs.getD j 0).toNat)
    some (patch h 1 [BitVec.ofNat 8 (beAt rtp 1 1 / 128 * 128 + d.pt)] ++ rtp.drop (n + 2))

/-- A packet into the held list, by rising sequence number. -/
def insertHeld (p : HeldPkt) : List HeldPkt → List HeldPkt
  | [] => [p]
  | q :: r => if p.seq < q.seq then p :: q :: r else q :: insertHeld p r

/-- Missing numbers between the highest and a new one, at most 1,024 of them. -/
def newMissing (highest seq : Nat) : List Nacked :=
  let from_ := if seq < highest + 1025 then highest + 1 else seq - 1024
  (List.range (seq - from_)).map fun i => { seq := from_ + i, tick := 0, times := 0 }

/-- A packet into the assembly of its encoding. What is not assembled is passed over, to the end of its picture. Until a first picture has been taken
out, the lowest number held begins it. -/
def Encoding.hold (e : Encoding) (decoded : Bool) (p : HeldPkt) : Encoding :=
  if ¬ decoded then
    { e with held := [], passing := if p.marker then none else some p.ts, synced := p.marker, next := if p.marker then p.seq + 1 else e.next }
  else if e.passing = some p.ts then
    if p.marker then { e with passing := none, synced := true, next := p.seq + 1 } else e
  else if e.synced then { e with held := if e.next ≤ p.seq then insertHeld p e.held else e.held }
  else { e with passing := none, held := insertHeld p e.held, next := if e.held.isEmpty ∨ p.seq < e.next then p.seq else e.next }

/-- A packet at its encoding: none for a number that has been received, or that lies 1,024 or more behind (R196). A gap is kept for R197. -/
def Encoding.take (e : Encoding) (decoded : Bool) (rtp : List Byte) (arrival : Nat) : Option Encoding :=
  let seq := estimate 16 e.highest (beAt rtp 2 2)
  let pkt : HeldPkt := { seq := seq, ts := BitVec.ofNat 32 (beAt rtp 4 4), marker := decide (128 ≤ beAt rtp 1 1), arrival := arrival,
                         head := (rtp.take (rtpHeadLen rtp)).drop 12, data := rtpData rtp }
  match e.highest with
  | none => some ({ e with highest := some seq, got := 1 }.hold decoded pkt)
  | some h =>
    if h < seq then
      some ({ e with
        highest := some seq, got := (e.got * 2 ^ least (seq - h) 1024 + 1) % 2 ^ 1024
        nacks := (e.nacks ++ newMissing h seq).filter fun n => decide (seq < n.seq + 1025) }.hold decoded pkt)
    else if 1024 ≤ h - seq ∨ bit e.got (h - seq) then none
    else some ({ e with got := e.got + 2 ^ (h - seq), nacks := e.nacks.filter fun n => decide (n.seq ≠ seq) }.hold decoded pkt)

/-- The packets of the picture that begins at number n: complete when every number through the marker is held, with one timestamp (R186, R196). -/
def headPackets (ts : Option Word) : Nat → List HeldPkt → Option (List HeldPkt)
  | _, [] => none
  | n, p :: r =>
    if p.seq ≠ n ∨ (ts.getD p.ts != p.ts) then none
    else if p.marker then some [p]
    else (headPackets (some p.ts) (n + 1) r).map (p :: ·)

/-- The next picture begins at number n: what lies before it is neither held nor asked for. -/
def Encoding.startAt (e : Encoding) (n : Nat) : Encoding :=
  { e with next := n, synced := true, passing := none, held := e.held.filter fun p => decide (n ≤ p.seq),
           nacks := e.nacks.filter fun q => decide (n ≤ q.seq) }

/-- Take the oldest picture out when it is complete. -/
def Encoding.popPicture (e : Encoding) : Option (List HeldPkt × Encoding) :=
  (headPackets none e.next e.held).map fun ps => (ps, e.startAt (e.next + ps.length))

/-! ### Limits (R185, R190, R191) -/

/-- A key picture (R201). -/
def isKey (p : PicInfo) : Bool := p.kind == .idr || p.kind == .cra

/-- Table 07-1: profile, highest level, bit depth and chroma format. -/
def inTable (codec : Nat) (p : PicInfo) : Bool :=
  match codec, p.profile with
  | 1, .h264Baseline | 1, .h264Main | 1, .h264High => decide (p.level ≤ 52) && decide (p.depth = 8) && decide (p.chroma ≤ 1)
  | 2, .hevcMain => decide (p.level ≤ 51) && decide (p.depth = 8) && decide (p.chroma = 1)
  | 2, .hevcMain10 => decide (p.level ≤ 51) && (p.depth == 8 || p.depth == 10) && decide (p.chroma = 1)
  | 3, .vp9P0 => decide (p.depth = 8) && decide (p.chroma = 1)
  | 3, .vp9P2 => decide (p.depth = 10) && decide (p.chroma = 1)
  | 4, .av1Main | 5, .vvcMain10 => decide (p.level ≤ 51) && (p.depth == 8 || p.depth == 10) && decide (p.chroma ≤ 1)
  | _, _ => false

/-- The layers of a picture that a decode note takes in: those up to the note's layer for a spatial SVC source, else all (R192). -/
def layersOf (d : StreamRec) (note : Nat) (p : PicInfo) : List PicLayer :=
  if d.form = 2 then p.layers.filter fun l => decide (l.spatial ≤ d.layers.getD note 0) else p.layers

/-- The layer that comes out: the highest that was received whole, up to the decode note (R204). -/
def outLayer (d : StreamRec) (note : Nat) (p : PicInfo) : Option PicLayer := (layersOf d note p).getLast?

/-- The decode note's layer is missing from a spatial SVC picture (R204). -/
def isReduced (d : StreamRec) (note : Nat) (p : PicInfo) : Bool :=
  decide (d.form = 2) && decide (((outLayer d note p).map (·.spatial)) ≠ some (d.layers.getD note 0))

/-- The sequence exceeds the declared limits (R191). -/
def overLimit (d : StreamRec) (note : Nat) (p : PicInfo) : Bool :=
  (layersOf d note p).any (fun l => decide (d.blk 4 2 < l.w) || decide (d.blk 6 2 < l.h)) || (decide (p.depth = 10) && !bit (d.blk 3 1) 2) ||
  !inTable (d.blk 0 1) p || decide (d.blk 2 1 - 2 < p.refsRequired)

/-- The charge of a picture, 10^-9 pixel (R190, R195). -/
def picCharge (d : StreamRec) (note : Nat) (p : PicInfo) : Nat :=
  let a := total ((layersOf d note p).map fun l => area64 l.w l.h)
  ((if a < 8000 then 8000 else a) + 2000) * 1000000000

/-- The bucket at a logged time (R195). -/
def DecCtx.refill (d : DecCtx) (t : Nat) : DecCtx :=
  { d with bucket := least (4 * d.charge * 1000000000) (d.bucket + d.rate * (t - d.last)), last := if d.last < t then t else d.last }

/-! ### The reference pool (R200) -/

/-- The samples of a picture: 10-bit, an 8-bit sample multiplied by 4 (R224); chroma of a monochrome picture is at mid-range (R185). -/
def picOf (token : Nat) (l : PicLayer) (p : PicInfo) : Picture :=
  let v := fun (pl x y : Nat) =>
    if pl ≠ 0 ∧ p.chroma = 0 then 512 else if p.depth = 10 then Config.pictureSample token pl x y % 1024 else Config.pictureSample token pl x y % 256 * 4
  let plane := fun (pl w h : Nat) => (List.range h).flatMap fun y => (List.range w).map fun x => v pl x y
  { w := l.outW, h := l.outH, y := plane 0 l.outW l.outH, cb := plane 1 ((l.outW + 1) / 2) ((l.outH + 1) / 2),
    cr := plane 2 ((l.outW + 1) / 2) ((l.outH + 1) / 2) }

/-- A buffer that may serve as a reference. -/
def FrameBuf.isRef (b : FrameBuf) : Bool := b.st == .short || b.st == .long

/-- A buffer that the codec unmarks: OUTPUT_PENDING until a newer picture was handed over (Table 07-5). -/
def unmark (handed : Option Nat) (b : FrameBuf) : FrameBuf :=
  let past : Bool := match handed with
    | some o => decide (b.seq < o)
    | none => false
  { b with st := if past then .unused else .outputPending, longIdx := none }

/-- Unmark the references that a test selects. -/
def unmarkWhere (handed : Option Nat) (f : FrameBuf → Bool) (bufs : List FrameBuf) : List FrameBuf :=
  bufs.map fun b => if b.isRef ∧ f b then unmark handed b else b

/-- The references in force as a picture is decoded: HEVC and VVC keep those of the picture's sets (R200). -/
def keepSets (handed : Option Nat) (m : Marking) (bufs : List FrameBuf) : List FrameBuf :=
  match m with
  | .sets sh lo => (unmarkWhere handed (fun b => !(sh.contains b.order || lo.contains b.order)) bufs).map fun b =>
      if b.isRef ∧ lo.contains b.order then { b with st := .long } else b
  | _ => bufs

/-- One memory management control operation on the buffers held before the picture. -/
def mmco (handed : Option Nat) (bufs : List FrameBuf) : Mmco → List FrameBuf
  | .unmark o => unmarkWhere handed (fun b => decide (b.order = o) && b.st == .short) bufs
  | .unmarkLong i => unmarkWhere handed (fun b => decide (b.longIdx = some i)) bufs
  | .makeLong o i => (unmarkWhere handed (fun b => decide (b.longIdx = some i) && decide (b.order ≠ o)) bufs).map fun b =>
      if b.isRef ∧ b.order = o then { b with st := .long, longIdx := some i } else b
  | .longLimit n => unmarkWhere handed (fun b => decide (b.longIdx.isSome) && decide (n ≤ b.longIdx.getD 0)) bufs
  | .unmarkAll => unmarkWhere handed (fun _ => true) bufs
  | .selfLong i => unmarkWhere handed (fun b => decide (b.longIdx = some i)) bufs

/-- The short-term reference decoded first goes while a sliding window is full. -/
def slide (handed : Option Nat) (most : Nat) (bufs : List FrameBuf) : List FrameBuf :=
  if (bufs.filter (·.isRef)).length < most then bufs
  else match (bufs.filter fun b => b.st == .short).foldl (fun (a : Option Nat) b => match a with
    | none => some b.count
    | some c => some (least b.count c)) none with
  | none => bufs
  | some c => unmarkWhere handed (fun b => b.st == .short && decide (b.count = c)) bufs

/-- The slots after a picture that refreshes some of them. -/
def refreshSlots (count : Nat) (rs : List Nat) (slots : List (Option Nat)) : List (Option Nat) :=
  (indexed slots).map fun x => if rs.contains x.1 then some count else x.2

/-- The buffers held before a picture as its marking leaves them (R200). -/
def markOthers (d : DecCtx) (count : Nat) (m : Marking) (bufs : List FrameBuf) : List FrameBuf :=
  match m with
  | .none | .sets _ _ => bufs
  | .sliding most => slide d.handed most bufs
  | .control ops => ops.foldl (mmco d.handed) bufs
  | .slots rs => let held := refreshSlots count rs d.slots; unmarkWhere d.handed (fun b => !held.contains (some b.count)) bufs

/-- State of the picture's own buffer, and its long-term index. -/
def markSelf : Marking → BufState × Option Nat
  | .none => (.outputPending, none)
  | .sliding _ | .sets _ _ => (.short, none)
  | .control ops => match ops.findSome? fun o => match o with
      | .selfLong i => some i
      | _ => none with
    | some i => (.long, some i)
    | none => (.short, none)
  | .slots rs => (if rs.isEmpty then .outputPending else .short, none)

/-- The newest CLEAN picture that is eligible at time t, ns: the frozen clean picture (R207). -/
def frozen (bufs : List FrameBuf) (t : Nat) : Option FrameBuf :=
  (bufs.filter fun b => b.st != .unused && b.clean && b.shown && decide (b.eligible ≤ t)).foldl (fun a b => match a with
    | none => some b
    | some c => if c.seq < b.seq then some b else some c) none

/-- A place for the next picture: an UNUSED buffer, else the OUTPUT_PENDING one with the oldest picture, never the frozen clean one. The flag says
that an output was skipped (R200). -/
def freeBuf (bufs : List FrameBuf) (t : Nat) : Option (Nat × Bool) :=
  match (indexed bufs).find? fun b => b.2.st == .unused with
  | some b => some (b.1, false)
  | none =>
    let keep := (frozen bufs t).map (·.seq)
    ((indexed bufs).filter fun b => b.2.st == .outputPending && decide (keep ≠ some b.2.seq)).foldl (fun a b => match a with
      | none => some (b.1, true)
      | some (j, _) => if b.2.seq < ((bufs[j]?).map (·.seq)).getD 0 then some (b.1, true) else a) none

/-! ### References that never arrived (R202, R203) -/

/-- VP9 and AV1 name references by slot. -/
def bySlots (codec : Nat) : Bool := codec == 3 || codec == 4

/-- The buffer that a picture names; none when it is not held, or its slot counts as missing. -/
def namedRef (codec : Nat) (d : DecCtx) (n : RefName) : Option FrameBuf :=
  if bySlots codec then
    if d.missing.contains n.slot then none
    else (d.slots.getD n.slot none).bind fun c => d.bufs.find? fun b => b.isRef && decide (b.count = c)
  else d.bufs.find? fun b => b.isRef && decide (b.order = n.order)

/-- The distance of two output orders. -/
def apart (a b : Nat) : Nat := a - b + (b - a)

/-- The substitute for a missing reference: the nearest of the same note in output order, ties to the earlier; in VP9 the nearest in decode order
before the picture (R203). -/
def substitute (codec : Nat) (d : DecCtx) (note : Nat) (n : RefName) : Option FrameBuf :=
  (d.bufs.filter fun b => b.isRef && decide (b.note = note)).foldl (fun a b => match a with
    | none => some b
    | some c =>
      let nearer : Bool := if codec = 3 then decide (c.count < b.count) else
        decide (apart b.order n.order < apart c.order n.order) || (decide (apart b.order n.order = apart c.order n.order) && decide (b.seq < c.seq))
      if nearer then some b else some c) none

/-- The references of a picture, each held or substituted; none when a substitute is lacking. The flag says that one was missing. -/
def references (codec : Nat) (d : DecCtx) (note : Nat) : List RefName → Option (List FrameBuf × Bool)
  | [] => some ([], false)
  | n :: r =>
    match namedRef codec d n, references codec d note r with
    | some b, some (bs, m) => some (b :: bs, m)
    | none, some (bs, _) => (substitute codec d note n).map fun b => (b :: bs, true)
    | _, none => none

/-- An H.264 frame_num gap where gaps are not allowed: the reference before the picture is missing (R202). -/
def frameGap (codec : Nat) (d : DecCtx) (p : PicInfo) : Bool :=
  decide (codec = 1) && !isKey p && !p.gapsAllowed && (match d.frameNum with
    | some n => decide (p.frameNum ≠ n) && decide (p.frameNum ≠ (n + 1) % p.maxFrameNum)
    | none => false)

/-- The references that a picture names. -/
def refNames (p : PicInfo) : List RefName := if isKey p ∨ p.kind = .intraAll then [] else p.refs

/-- The slots that count as missing at a picture after losses: those of a descriptor, or all (R202). -/
def missingAt (codec : Nat) (d : DecCtx) (p : PicInfo) : List Nat :=
  if bySlots codec ∧ d.gap ∧ ¬ isKey p then distinct (d.missing ++ p.lostSlots.getD (List.range 8)) else d.missing

/-- A picture whose headers were read is treated as never received: the slots that it would have refreshed are missing (R195, R202, R203). -/
def DecCtx.lose (d : DecCtx) (p : PicInfo) : DecCtx :=
  match p.marking with
  | .slots rs => { d with missing := distinct (d.missing ++ rs) }
  | _ => d

/-! ### Decoding (R191-R206) -/

/-- A picture taken out of assembly: its encoding, that encoding's note, the logged arrival that completed it, the tick that released it in ns (0 when
R198 did not hold it), and its packets. -/
structure WholePic where
  enc : Nat
  note : Nat
  arrival : Nat
  released : Nat
  pkts : List HeldPkt
  deriving DecidableEq, Repr

/-- The time at which a picture is there to be decoded: the later of its completion and its release. -/
def WholePic.ready (r : WholePic) : Nat := if r.arrival < r.released then r.released else r.arrival

/-- The RTP timestamp that a picture's packets share (R196). -/
def WholePic.ts (r : WholePic) : Nat := ((r.pkts.head?).map (·.ts.toNat)).getD 0

/-- The note at which a picture would be decoded: the chosen one where the picture permits the change (R192, Table 06-4): a simulcast source at a key
picture of the new encoding, spatial SVC downward at any picture, upward at a key picture or spatial switch-up point. -/
def noteFor (x : InStream) (d : DecCtx) (r : WholePic) (p : PicInfo) : Nat :=
  let t := d.target.getD d.note
  let may : Bool := if x.decl.form = 1 then decide (r.note = t) && isKey p else decide (t < d.note) || isKey p || p.switchUp
  if may then t else d.note

/-- A decoded picture's context enters CLEAN or TAINTED: CLEAN ends the requests of its encoding, TAINTED owes one (R205). -/
def enterState (i k : Nat) (clean : Bool) (s : State) : State :=
  match (s.obj.ins.at? i).bind (·.dec) with
  | none => s
  | some d => updIn i (fun x => { x with
      dec := some { d with state := if clean then .clean else .tainted }
      encs := if clean then modAt x.encs k fun e => { e with episode := none, owed := false }
        else if d.state = .tainted then x.encs else oweKey k x.encs }) s

/-- The picture's Orgue task on its context's flow (R194); a picture that was not decoded completes empty (R386). -/
def decodeTask (i ts : Nat) (home : ClusterNo) (empty : Bool) (s : State) : Nat × State :=
  produceFor (objRef 4 i) .decode home 28 empty [] { work := .decode i, tick := ts } s

/-- A key picture starts a sequence: an IDR picture or key frame, and a CRA at which decoding starts (R201). -/
def DecCtx.begins (d : DecCtx) (p : PicInfo) : Bool := p.kind == .idr || (p.kind == .cra && (d.state == .waitKey || d.state == .overLimit))

/-- The context as it decodes a picture: a picture that starts a sequence leaves no reference behind, and reference sets apply. -/
def DecCtx.prepare (d : DecCtx) (codec : Nat) (p : PicInfo) : DecCtx :=
  let d := { d with missing := missingAt codec d p, gap := false }
  if d.begins p then
    { d with epoch := d.epoch + 1, skipRasl := decide (p.kind = .cra), frameNum := none, recovery := none, bufs := unmarkWhere d.handed (fun _ => true) d.bufs }
  else { d with skipRasl := d.skipRasl && !isKey p, bufs := keepSets d.handed p.marking d.bufs }

/-- The recovery point that a context waits for after a picture, and whether the picture is it (R201). -/
def recoveryAt (codec : Nat) (d : DecCtx) (p : PicInfo) (missing : Bool) : Option Nat × Bool :=
  match (if missing then none else p.recovery.orElse fun _ => d.recovery) with
  | none => (none, false)
  | some t =>
    let there : Bool := if codec = 1 then decide (p.frameNum = t) else decide (t ≤ p.order)
    (if there then none else some t, there)

/-- Store a decoded picture (R200, R201, R204, R206); `d` is the context as it decoded it. -/
def storePic (i n : Nat) (x : InStream) (d : DecCtx) (r : WholePic) (data : List Byte) (p : PicInfo) (l : PicLayer) (refs : List FrameBuf) (missing : Bool)
    (s : State) : State :=
  let codec := x.decl.blk 0 1
  match freeBuf d.bufs r.ready with
  | none => countDec i 5 0x30 (decodeTask i r.ts d.home true (modDec i (fun _ => d.lose p) s)).2
  | some (j, skipped) =>
    let count := d.count + 1
    let (recovery, recovered) := recoveryAt codec d p missing
    let fresh := isKey p || p.kind == .intraAll || recovered
    let clean := fresh || (!missing && refs.all (·.clean))
    let token := Config.decodeToken codec data (refs.map (·.token)) d.newest
    let e := r.ready + x.decl.blk 10 2 * 1000000
    let (task, s) := decodeTask i r.ts d.home false s
    let (st, longIdx) := markSelf p.marking
    let reduced := isReduced x.decl n p
    let buf : FrameBuf := { st := st, longIdx := longIdx, clean := clean, concealed := missing && !fresh, reduced := reduced, order := p.order,
                            seq := d.epoch * 2 ^ 33 + p.order, count := count, eligible := e, shown := p.outputs.contains p.order, note := n,
                            token := token, task := some task, pic := picOf token l p }
    let others := (indexed (markOthers d count p.marking (modAt d.bufs j fun _ => freshBuf))).map fun x => if x.1 = j then buf else x.2
    let bufs := others.map fun b =>
      if b.st != .unused && !b.shown && p.outputs.contains b.order then { b with shown := true, eligible := if b.eligible < e then e else b.eligible } else b
    let slots := match p.marking with
      | .slots rs => refreshSlots count rs d.slots
      | _ => d.slots
    let still := match p.marking with
      | .slots rs => d.missing.filter fun m => !rs.contains m
      | _ => d.missing
    let again := match p.marking with
      | .control ops => ops.contains .unmarkAll
      | _ => false
    let s := modDec i (fun _ => { d with
      note := n, bufs := bufs, newest := token, count := count, slots := slots, missing := still, recovery := recovery,
      epoch := if again then d.epoch + 1 else d.epoch, frameNum := if st = .outputPending then d.frameNum else some (if again then 0 else p.frameNum) }) s
    let s := if skipped then countDec i 7 0 s else s
    let s := if missing ∧ ¬ fresh then countDec i 1 0x24 s else s
    let s := if reduced then countDec i 2 0 s else s
    enterState i r.enc clean s

/-- Decode a picture of a source, whose headers say `p` (R190-R206). -/
def decodeOne (i : Nat) (r : WholePic) (data : List Byte) (p : PicInfo) (s : State) : State :=
  match s.obj.ins.at? i, (s.obj.ins.at? i).bind (·.dec) with
  | some x, some d =>
    let codec := x.decl.blk 0 1
    let n := noteFor x d r p
    let nothing := fun (f : DecCtx → DecCtx) (s : State) => (decodeTask i r.ts d.home true (modDec i f s)).2
    if d.state = .idle ∨ (x.decl.form = 1 ∧ r.note ≠ n) then s
    else if p.valid ∧ overLimit x.decl n p then
      countDec i 6 0x34 (nothing (fun d => { (d.lose p) with state := if n = d.note then .overLimit else d.state }) s)
    else if d.state = .overLimit ∧ ¬ isKey p then countDec i 6 0x34 (nothing id s)
    else if (d.state = .waitKey ∧ ¬ isKey p) ∨ (p.kind = .rasl ∧ d.skipRasl) then nothing id s
    else
      let full := d.refill r.arrival
      let c := picCharge x.decl n p
      if full.bucket < c then countDec i 4 0x2C (nothing (fun _ => full.lose p) s)
      else
        let paid := { full with bucket := full.bucket - c }
        match (if p.valid then outLayer x.decl n p else none) with
        | none => countDec i 5 0x30 (nothing (fun _ => { paid with gap := true }) s)
        | some l =>
          let d := paid.prepare codec p
          let gap := frameGap codec d p
          match references codec d n (refNames p) with
          | none => countDec i 1 0x24 (nothing (fun _ => paid.lose p) s)
          | some (refs, missing) =>
            if gap ∧ (substitute codec d n ⟨0, p.order⟩).isNone then countDec i 1 0x24 (nothing (fun _ => paid.lose p) s)
            else storePic i n x d r data p l refs (missing || gap) s
  | _, _ => s

/-- A picture that left assembly is decoded at that log position (R194, R208). -/
def decodeWhole (i : Nat) (r : WholePic) (s : State) : State :=
  match s.obj.ins.at? i, (s.obj.ins.at? i).bind (·.dec) with
  | some x, some d =>
    let codec := x.decl.blk 0 1
    let u := depacketise codec (r.pkts.map (·.data))
    let data := codedUnits codec u
    let p := Config.pictureSyntax codec data (u.notes ++ r.pkts.flatMap (·.head)) d.newest
    decodeOne i r data { p with valid := p.valid && !u.bad } s
  | _, _ => s

/-- A complete picture goes to its context. -/
def pushReady (i k : Nat) (ps : List HeldPkt) (released : Nat) (s : State) : State :=
  let arrival := ps.foldl (fun a p => if a < p.arrival then p.arrival else a) 0
  decodeWhole i { enc := k, note := ((encOf s i k).map (·.note)).getD 0, arrival := arrival, released := released, pkts := ps } s

/-- Release the complete pictures at the head of an encoding (R198). -/
def releaseHeads (i k released : Nat) : Nat → State → State
  | 0, s => s
  | fuel + 1, s =>
    match (encOf s i k).bind (·.popPicture) with
    | none => s
    | some (ps, e) => releaseHeads i k released fuel (pushReady i k ps released (modEnc i k (fun _ => e) s))

/-- A packet of a video source: into its encoding, and the oldest picture to its context when the packet completes it (R196). A picture that was complete
before waits for the tick (R198). False for a duplicate. -/
def assemble (i k : Nat) (rtp : List Byte) (arrival : Nat) (s : State) : Bool × State :=
  match s.obj.ins.at? i, encOf s i k with
  | some x, some e =>
    match e.take (isDecoded k x) rtp arrival with
    | none => (false, s)
    | some e =>
      let s := modEnc i k (fun _ => e) s
      let mine := fun (p : HeldPkt) => decide (p.seq % 65536 = beAt rtp 2 2)
      (true, match e.popPicture with
        | some (ps, e) => if ps.any mine then pushReady i k ps 0 (modEnc i k (fun _ => e) s) else s
        | none => s)
  | _, _ => (false, s)

/-- Note an arrival for the ladder costs (R159). -/
def noteArrival (i k now note tl len : Nat) : State → State := modEnc i k fun e => { e with
  arrivals := (e.arrivals.filter fun (a : Nat × Nat × Nat × Nat) => decide (now < a.1 + 500000000)) ++ [(now, tl, note, len)] }

/-- An authenticated RTP packet of a video source, from its leg or as TYPE 0 of a trunk: `mk` says what is known of it (R161, R180, R196). -/
def takeVideo (i len arrival : Nat) (rtp : List Byte) (mk : Nat → List Byte → SrcPkt) (s : State) : State :=
  match s.obj.ins.at? i with
  | none => s
  | some x =>
    let rtp := (restoreRtx x.decl rtp).getD rtp
    match (indexed x.encs).find? fun ke => decide (ke.2.ssrc.toNat = beAt rtp 8 4) with
    | none => s
    | some (k, _) =>
      let (fresh, s) := assemble i k rtp arrival s
      if fresh then
        let p := mk k rtp
        forwardPkt p (noteArrival i k arrival p.note p.tl len s)
      else s

/-! ### Abandonment and requests at a tick (R197, R198, R205) -/

/-- The oldest incomplete picture is abandoned: loss wait has passed since its first packet that arrived, and a later picture has begun (R198).
The next picture starts after its marker, or where its marker is missing at the first packet of the later picture (DEDUCED, log entry 48). -/
def Encoding.abandon (e : Encoding) (wait now : Nat) : Option Encoding :=
  match e.held with
  | [] => none
  | p :: _ =>
    let mine := e.held.filter fun q => q.ts == p.ts
    let later := e.held.filter fun q => q.ts != p.ts
    let first := mine.foldl (fun a q => if q.arrival < a then q.arrival else a) p.arrival
    match later with
    | [] => none
    | q :: _ =>
      if first + wait * 1000000 ≤ now then
        some (e.startAt (match (mine.filter (·.marker)).getLast? with
          | some m => m.seq + 1
          | none => q.seq))
      else none

/-- Abandon at the present tick, for each decoded encoding of a source, and release what it held. -/
def abandonSource (i : Nat) (s : State) : State :=
  match s.obj.ins.at? i with
  | none => s
  | some x =>
    (List.range x.encs.length).foldl (fun s k =>
      if ¬ isDecoded k x then s
      else match encOf s i k with
        | none => s
        | some e =>
          if (e.popPicture).isSome then s
          else match e.abandon (x.decl.blk 12 2) (s.media.tick * 1000000) with
            | none => s
            | some e' =>
              let s := countDec i 3 0x28 (modDec i (fun d => { d with gap := true }) (modEnc i k (fun _ => e') s))
              releaseHeads i k (s.media.tick * 1000000) e.held.length s) s

/-- Pictures that waited behind another and are complete are released at a tick (R198). -/
def releaseAt (i : Nat) (s : State) : State :=
  match s.obj.ins.at? i with
  | none => s
  | some x => (List.range x.encs.length).foldl (fun s k =>
      if isDecoded k x then releaseHeads i k (logNs s) (((encOf s i k).map (·.held.length)).getD 0) s else s) s

/-- One generic NACK for the missing numbers of an encoding that `pick` selects, at tick n (R197). -/
def sendNack (i k n : Nat) (pick : Nacked → Bool) (s : State) : State :=
  match s.obj.ins.at? i, encOf s i k with
  | some x, some e =>
    let due := e.nacks.filter pick
    if due.isEmpty ∨ ¬ bit (x.decl.blk 3 1) 0 then s
    else
      let s := modEnc i k (fun e => { e with nacks := e.nacks.map fun q => if pick q then { q with tick := n, times := q.times + 1 } else q }) s
      let s := countObj 0x0501 (handleOf s tyIn i) 11 due.length s
      feedback i (fun me => rtcpFb 205 1 me e.ssrc (nackItems due.length (due.map (·.seq)))) s
  | _, _ => s

/-- The first request of every missing number, at the tick after the gap. -/
def firstNacks (i n : Nat) (s : State) : State :=
  (List.range (((s.obj.ins.at? i).map (·.encs.length)).getD 0)).foldl (fun s k => sendNack i k n (fun q => decide (q.times = 0)) s) s

/-- Each missing number again every 20 ms, at most twice more (R197). -/
def repeatNacks (stream n : Nat) (s : State) : State :=
  (List.range (((s.obj.ins.at? stream).map (·.encs.length)).getD 0)).foldl (fun s k =>
    sendNack stream k n (fun q => decide (0 < q.times) && decide (q.times < 3) && decide (q.tick + 20 ≤ n)) s) s

/-- NACK_REPEAT, at its tick. -/
def execNackRepeat (stream n : Nat) (s : State) : Host.Outcome State Fault Refusal := done s (if taskRuns s n then repeatNacks stream n s else s)

/-- Requests that the 200 ms interval held back are sent at the tick that ends it (R205). -/
def owedRequests (i : Nat) (s : State) : State :=
  (List.range (((s.obj.ins.at? i).map (·.encs.length)).getD 0)).foldl (fun s k =>
    if ((encOf s i k).map (·.owed)).getD false then requestKey i k false s else s) s

/-- PICTURE_ABANDON: at its tick, with the request that what it releases calls for (R198, R205). -/
def execPictureAbandon (stream n : Nat) (s : State) : Host.Outcome State Fault Refusal :=
  done s (if taskRuns s n then owedRequests stream (abandonSource stream s) else s)

/-- The context waits for a CLEAN picture of its encoding (Table 07-4), or for a key picture of another note. -/
def wantsKey (s : State) (i : Nat) : Option Nat :=
  match s.obj.ins.at? i with
  | none => none
  | some x =>
    match x.dec with
    | none => none
    | some d =>
      let t := d.target.getD d.note
      match d.state with
      | .waitKey | .tainted => some (encOfNote x t)
      | .clean => if noteNeedsKey x d.note t then some (encOfNote x t) else none
      | _ => none

/-- A key request is sent again every 1 s until a CLEAN picture of the encoding is decoded (R205). -/
def repeatKey (stream : Nat) (s : State) : State :=
  match wantsKey s stream with
  | none => s
  | some k => match (encOf s stream k).bind (·.askedAt) with
    | some t => if logNs s < t + 1000000000 then s else requestKey stream k false s
    | none => requestKey stream k false s

/-- KEY_REQUEST_REPEAT, at its tick. -/
def execKeyRequestRepeat (stream n : Nat) (s : State) : Host.Outcome State Fault Refusal := done s (if taskRuns s n then repeatKey stream s else s)

/-! ### The picture handed over at a tick (R207, R208) -/

/-- The picture of a source for a tick at network time t, ns: the newest eligible one when it is CLEAN, else the frozen clean picture. Both are
the newest CLEAN eligible picture. Its decode task comes with it while that is in flight. -/
def pictureFor (s : State) (i t : Nat) : Option (Picture × Option Nat) :=
  ((s.obj.ins.at? i).bind (·.dec)).bind fun d => if d.state = .idle then none else (frozen d.bufs t).map fun b => (b.pic, b.task)

/-- A picture of the context was handed over at a tick: older OUTPUT_PENDING pictures become UNUSED (Table 07-5). -/
def handOver (i t : Nat) : State → State := modDec i fun d =>
  match frozen d.bufs t with
  | none => d
  | some f => { d with
      handed := some f.seq
      bufs := d.bufs.map fun b => if b.st = .outputPending ∧ b.seq < f.seq then { b with st := .unused } else b }

end Sys2Proof.Machine
end

