-- ==== Sys2Proof/Machine/Compose.lean ====
section
/-! DEFINITION. Composition: layouts, flips and fences, scaler banks, the exact arithmetic of scaling and blending, layout pictures and tile scaling,
and the Absolute cache (chapter 8). -/

namespace Sys2Proof.Machine

/-! ### Scaler banks (R220, R221) -/

/-- A tap's value: two's complement in 10 bits, but 0x200 is +512. -/
def tapOf (x : Nat) : Int := if x = 512 then 512 else sext 10 x

/-- The taps of a phase of the linear set: 8 luma, then 4 chroma. -/
def linearTaps (p : Nat) : List Int := [0, 0, 0, 512 - 8 * p, 8 * p, 0, 0, 0, 0, 512 - 8 * p, 8 * p, 0]

/-- The 768 taps of a bank of a conference. -/
def bankOf (s : State) (conf bank : Nat) : List Int :=
  match (s.obj.confs.at? conf).bind fun c => tget c.banks bank with
  | some b => b
  | none => (List.range 64).flatMap linearTaps

/-- The first n 16-bit words of a block, little-endian, 0 beyond its end. -/
def tapWords : Nat → List Byte → List Nat
  | 0, _ => []
  | n + 1, bs => leAt bs 0 2 :: tapWords n (bs.drop 2)

/-- The taps that a coefficient block holds. -/
def tapsOf (bs : List Byte) : List Int := (tapWords 768 bs).map fun w => tapOf (w % 1024)

/-- The first word with bits above its code. -/
def tapReserved (bs : List Byte) : Option Nat := ((indexed (tapWords 768 bs)).find? fun w => decide (1024 ≤ w.2)).map (·.1)

/-- The first word of the first phase whose luma or chroma taps do not sum to 512. -/
def tapSum (ts : List Int) : Option Nat :=
  (List.range 64).findSome? fun p =>
    if totalI ((ts.drop (12 * p)).take 8) ≠ 512 then some (12 * p)
    else if totalI ((ts.drop (12 * p + 8)).take 4) ≠ 512 then some (12 * p + 8) else none

/-! ### Scaling (R219, R222, R223) -/

/-- n / d rounded half up to an even integer (R219). -/
def evenOf (n d : Nat) : Nat := 2 * ((n + d) / (2 * d))

/-- Which part of a picture is drawn and where: crop x, y, w, h, then the drawn offset and size in the rectangle (Table 08-4). -/
structure Fit where
  cx : Nat
  cy : Nat
  cw : Nat
  ch : Nat
  dx : Nat
  dy : Nat
  dw : Nat
  dh : Nat
  deriving DecidableEq, Repr

/-- Table 08-4 for a picture of ws × hs in a rectangle of w × h. -/
def fitOf (mode ws hs w h : Nat) : Fit :=
  match mode with
  | 1 =>
    if hs * w ≤ ws * h then let d := evenOf (w * hs) ws; { cx := 0, cy := 0, cw := ws, ch := hs, dx := 0, dy := evenOf (h - d) 2, dw := w, dh := d }
    else let d := evenOf (h * ws) hs; { cx := 0, cy := 0, cw := ws, ch := hs, dx := evenOf (w - d) 2, dy := 0, dw := d, dh := h }
  | 2 =>
    if hs * w < ws * h then let c := evenOf (hs * w) h; { cx := evenOf (ws - c) 2, cy := 0, cw := c, ch := hs, dx := 0, dy := 0, dw := w, dh := h }
    else let c := evenOf (ws * h) w; { cx := 0, cy := evenOf (hs - c) 2, cw := ws, ch := c, dx := 0, dy := 0, dw := w, dh := h }
  | _ => { cx := 0, cy := 0, cw := ws, ch := hs, dx := 0, dy := 0, dw := w, dh := h }

/-- Integer position and phase of an output position (R222). -/
def tapPos (x ws wd : Nat) : Int × Nat :=
  let p64 : Int := (((2 * x + 1) * ws * 65536) / (2 * wd) : Nat) - 32768
  let q := (p64 + 512) / 1024
  (q / 64, wrapInt 6 q)

/-- One pass (R223): taps over samples at clamped positions, `first` taps before the position. -/
def pass (taps : List Int) (first : Int) (at_ : Int) (size : Nat) (sample : Nat → Nat) : Nat :=
  let v := totalI ((indexed taps).map fun kt => kt.2 * (sample (clampI 0 ((size : Int) - 1) (at_ - first + kt.1)).toNat : Int))
  (clampI 0 1023 ((v + 256) / 512)).toNat

/-- The taps of a phase of a bank: luma and alpha, or chroma. -/
def phaseTaps (bank : List Int) (luma : Bool) (ph : Nat) : List Int :=
  if luma then (bank.drop (12 * ph)).take 8 else (bank.drop (12 * ph + 8)).take 4

/-- Scale a region (x0, y0, ws, hs) of a plane of width `stride` to wd × hd: horizontal, then vertical. -/
def scalePlane (bank : List Int) (luma : Bool) (plane : List Nat) (stride x0 y0 ws hs wd hd : Nat) : List Nat :=
  let first : Int := if luma then 3 else 1
  let row := fun (y : Nat) => (List.range wd).map fun x =>
    let (i, ph) := tapPos x ws wd
    pass (phaseTaps bank luma ph) first i ws fun j => plane.getD ((y0 + y) * stride + x0 + j) 0
  let rows := (List.range hs).map row
  (List.range hd).flatMap fun y =>
    let (i, ph) := tapPos y hs hd
    (List.range wd).map fun x => pass (phaseTaps bank luma ph) first i hs fun j => (rows.getD j []).getD x 0

/-! ### Blending (R225-R227) -/

/-- Blend a sample with alpha a over the canvas (R226). -/
def blend (a f b : Nat) : Nat := (a * f + (255 - a) * b + 127) / 255

/-- A plane with a w × h block blended at (x0, y0): `alpha` and `value` by position in the block. -/
def blendPlane (plane : List Nat) (stride x0 y0 w h : Nat) (alpha value : Nat → Nat → Nat) : List Nat :=
  (indexed plane).map fun (i, b) =>
    let x := i % stride
    let y := i / stride
    if x0 ≤ x ∧ x < x0 + w ∧ y0 ≤ y ∧ y < y0 + h then blend (alpha (x - x0) (y - y0)) (value (x - x0) (y - y0)) b else b

/-- A picture with an 8-bit alpha plane, or none: full alpha. -/
structure Content where
  pic : Picture
  alpha : Option (List Nat)
  deriving DecidableEq, Repr

/-- A drawn block: scaled samples and the alpha of its luma positions before the layer's alpha. -/
structure Block where
  w : Nat
  h : Nat
  y : List Nat
  cb : List Nat
  cr : List Nat
  alpha : List Nat
  deriving DecidableEq, Repr

/-- Scale a content by a fit (R219, R222-R224). -/
def scaleContent (bank : List Int) (f : Fit) (c : Content) : Block :=
  let p := c.pic
  let cs := (p.w + 1) / 2
  let cw := if f.cw = p.w then cs else f.cw / 2
  let ch := if f.ch = p.h then (p.h + 1) / 2 else f.ch / 2
  let chroma := fun (pl : List Nat) => scalePlane bank false pl cs (f.cx / 2) (f.cy / 2) cw ch (f.dw / 2) (f.dh / 2)
  { w := f.dw, h := f.dh, y := scalePlane bank true p.y p.w f.cx f.cy f.cw f.ch f.dw f.dh, cb := chroma p.cb, cr := chroma p.cr
    alpha := match c.alpha with
      | none => List.replicate (f.dw * f.dh) 255
      | some a => (scalePlane bank true a p.w f.cx f.cy f.cw f.ch f.dw f.dh).map fun v => least 255 ((v + 2) / 4) }

/-- A solid block. -/
def solid (w h : Nat) (c : Nat × Nat × Nat) : Block :=
  { w := w, h := h, y := List.replicate (w * h) c.1, cb := List.replicate (w / 2 * (h / 2)) c.2.1, cr := List.replicate (w / 2 * (h / 2)) c.2.2,
    alpha := List.replicate (w * h) 255 }

/-- Draw a block at (x, y) with a layer's alpha (R225, R226). -/
def drawBlock (x y layerAlpha : Nat) (b : Block) (c : Picture) : Picture :=
  let a := fun (u v : Nat) => if u < b.w ∧ v < b.h then (layerAlpha * b.alpha.getD (v * b.w + u) 0 + 127) / 255 else 0
  let ac := fun (u v : Nat) => (a (2 * u) (2 * v) + a (2 * u + 1) (2 * v) + a (2 * u) (2 * v + 1) + a (2 * u + 1) (2 * v + 1) + 2) / 4
  let chroma := fun (pl val : List Nat) => blendPlane pl (c.w / 2) (x / 2) (y / 2) (b.w / 2) (b.h / 2) ac fun u v => val.getD (v * (b.w / 2) + u) 0
  { c with y := blendPlane c.y c.w x y b.w b.h a (fun u v => b.y.getD (v * b.w + u) 0), cb := chroma c.cb b.cb, cr := chroma c.cr b.cr }

/-- An even canvas of one colour. -/
def canvas (w h : Nat) (c : Nat × Nat × Nat) : Picture :=
  { w := w, h := h, y := List.replicate (w * h) c.1, cb := List.replicate (w / 2 * (h / 2)) c.2.1, cr := List.replicate (w / 2 * (h / 2)) c.2.2 }

/-- Narrow a canvas of 8-bit depth once, after its last layer (R227). -/
def narrowPic (ten : Bool) (p : Picture) : Picture :=
  let f := fun (v : Nat) => least 255 ((v + 2) / 4)
  if ten then p else { p with y := p.y.map f, cb := p.cb.map f, cr := p.cr.map f }

/-! ### Layer content (R216, R217, R229) -/

/-- The content of an image layer as the engine takes it: planes Y, Cb, Cr and A; the alpha of format 1 enters as it stands (DEDUCED, log entry
49). -/
def imageContent (a : Layer) (bs : List Byte) : Content :=
  let n := a.imgW * a.imgH
  let q := a.imgW / 2 * (a.imgH / 2)
  let v := fun (i : Nat) => if a.fmt = 0 then beAt bs i 1 * 4 else leAt bs (2 * i) 2 % 1024
  let plane := fun (off k : Nat) => (List.range k).map fun i => v (off + i)
  { pic := { w := a.imgW, h := a.imgH, y := plane 0 n, cb := plane n q, cr := plane (n + q) q }, alpha := some (plane (n + 2 * q) n) }

/-- The source that a layer shows at a tick (R216): its own, or the first video source of the leg at its rank without one leg. -/
def layerSource (s : State) (conf : Nat) (skip : Option Nat) (a : Layer) : Option Nat :=
  if a.kind = 0 then sourceLive s conf a.source
  else ((videoRanks s conf skip)[a.rank]?).bind (firstVideo s conf)

/-- Draw one layer at time t, ns, over a canvas. -/
def drawLayer (s : State) (l : Layout) (skip : Option Nat) (t : Nat) (c : Picture) (a : Layer) : Picture :=
  let bank := bankOf s l.conf a.bank
  let put := fun (x : Content) =>
    let f := fitOf a.fit x.pic.w x.pic.h a.w a.h
    drawBlock (a.x + f.dx) (a.y + f.dy) a.alpha (scaleContent bank f x) c
  match a.kind with
  | 2 => match a.content with
    | none => c
    | some bs => put (imageContent a bs)
  | 3 => drawBlock a.x a.y a.alpha (solid a.w a.h a.fill) c
  | _ => match (layerSource s l.conf skip a).bind fun i => pictureFor s i t with
    | some (p, _) => put { pic := p, alpha := none }
    | none => drawBlock a.x a.y a.alpha (solid a.w a.h l.emptyFill) c

/-- The decode tasks in flight whose pictures a layout shows at time t (R208, R213). -/
def layoutWaits (s : State) (l : Layout) (skip : Option Nat) (t : Nat) : List Nat :=
  (l.layers.filter fun a => decide (a.kind < 2)).filterMap fun a => ((layerSource s l.conf skip a).bind fun i => pictureFor s i t).bind (·.2)

/-- Layers by rising z. -/
def insertZ (a : Layer) : List Layer → List Layer
  | [] => [a]
  | b :: r => if a.z < b.z then a :: b :: r else b :: insertZ a r

def byZ (ls : List Layer) : List Layer := ls.foldr insertZ []

/-- The base of a layout (R232). -/
def basePic (s : State) (l : Layout) : Picture :=
  (byZ l.baseRun).foldl (fun c a => drawLayer s l none 0 c a) (canvas l.w l.h l.background)

/-- The layers above the base run. -/
def Layout.above (l : Layout) : List Layer := byZ (l.layers.filter fun a => !(l.baseRun.any fun b => decide (b.z = a.z)))

/-- The layout picture for time t (R228); `skip` is the leg that its talker-rank layers leave out. -/
def composePic (s : State) (l : Layout) (skip : Option Nat) (t : Nat) : Picture :=
  narrowPic l.tenBit (l.above.foldl (fun c a => drawLayer s l skip t c a) (basePic s l))

/-! ### The Absolute cache (R232-R235) -/

/-- The full description that decides whether two base runs are identical (R234). -/
def baseDesc (s : State) (l : Layout) : List Nat :=
  [l.w, l.h, l.background.1, l.background.2.1, l.background.2.2] ++ (byZ l.baseRun).flatMap fun a =>
    [a.kind, a.x, a.y, a.w, a.h, a.alpha, a.fit, b2n a.isStatic] ++ (bankOf s l.conf a.bank).map (fun t => (t + 512).toNat) ++
    (if a.kind = 3 then [a.fill.1, a.fill.2.1, a.fill.2.2] else (a.content.getD []).map (·.toNat))

/-- Bytes of a base entry, whole 64 KiB granules (R233). -/
def baseBytes (l : Layout) : Nat := ceilDiv (r64 l.w * r64 l.h * 2) 65536 * 65536

/-- Bytes of the region that image contents reserve: twice each layer's content. -/
def contentOf (ls : List Layer) : Nat := total (ls.map fun a => 2 * a.contentSize)

/-- Absolute cache bytes reserved for image contents over the device (Table 08-8 index 1). -/
def contentUsed (s : State) : Nat := total (s.obj.layouts.live.map fun kv => kv.2.content)

/-- Size of the Absolute cache region. -/
def cacheSize (s : State) : Nat := s.mem.partition.getD 4 0 * 1048576

/-- Bytes that base entries hold. -/
def baseHeld (bs : List BaseEntry) : Nat := total (bs.map (·.bytes))

/-- Evict the least recently used entries that are not kept, until n further bytes fit; `held` counts what is left. -/
def evict (keep : BaseEntry → Bool) (room n : Nat) : Nat → List BaseEntry → List BaseEntry
  | _, [] => []
  | held, b :: r =>
    if held + n ≤ room then b :: r
    else if keep b then b :: evict keep room n held r
    else evict keep room n (held - b.bytes) r

/-- A task that has been admitted refers to the entry (R234). -/
def baseInUse (s : State) (b : BaseEntry) : Bool :=
  (s.orgue.tasks.map (·.2.job) ++ s.orgue.stalled.map (·.job)).any fun (j : Option Job) => match j.map (·.work) with
    | some (Work.layout _ _ x) => decide (x.desc = b.desc)
    | _ => false

/-- The base entries after an eviction, its entries counted (R234). -/
def setBases (bs : List BaseEntry) (s : State) : State :=
  { s with video := { s.video with evictions := s.video.evictions + (s.video.bases.length - bs.length), bases := bs } }

/-- Room that image contents leave to base entries. -/
def baseRoom (s : State) : Nat := cacheSize s - contentUsed s

/-- Content that has been reserved takes its room from base entries (R233); tasks that use an entry keep its samples. -/
def trimBases (s : State) : State := setBases (evict (fun _ => false) (baseRoom s) 0 (baseHeld s.video.bases) s.video.bases) s

/-- The granules of a new entry: the highest free ones of the region (DESIGN CHOICE, log entry 161). -/
def baseGranules (s : State) (n : Nat) : List Nat :=
  let used := s.video.bases.flatMap (·.granules)
  ((List.range (cacheSize s / 65536)).reverse.filter fun g => !used.contains g).take n

/-- A layout whose base run is no longer that of the entry it refers to leaves it (R235). -/
def refreshBase (i : Nat) (s : State) : State :=
  match s.obj.layouts.at? i with
  | none => s
  | some l => if s.video.bases.any fun b => b.users.contains i && decide (b.desc ≠ baseDesc s l) then unlinkBase i s else s

/-- Count a base event: layout index, cluster register, device total. -/
def countBase (i idx off : Nat) (home : ClusterNo) (s : State) : State :=
  countObj 0x0801 (handleOf s tyLayout i) idx 1 (count1 (vidCtr home.val off) s)

/-- A layout picture task finds its base, builds it, or uses it uncached (R234, R236). -/
def useBase (i : Nat) (b : BaseEntry) (home : ClusterNo) (s : State) : State :=
  match s.video.bases.find? fun x => decide (x.desc = b.desc) with
  | some x =>
    let x := { x with users := if x.users.contains i then x.users else x.users ++ [i] }
    { s with video := { s.video with hits := s.video.hits + 1, bases := (s.video.bases.filter fun y => decide (y.desc ≠ b.desc)) ++ [x] } }
  | none =>
    let kept := evict (baseInUse s) (baseRoom s) b.bytes (baseHeld s.video.bases) s.video.bases
    let s := countBase i 4 0x12C home { s with video := { s.video with builds := s.video.builds + 1 } }
    if baseHeld kept + b.bytes ≤ baseRoom s then
      let s := setBases kept s
      { s with video := { s.video with bases := s.video.bases ++ [{ b with granules := baseGranules s (b.bytes / 65536) }] } }
    else countBase i 5 0x130 home { s with video := { s.video with uncached := s.video.uncached + 1 } }

/-- The base that the layout starts from now. -/
def baseOf (s : State) (i : Nat) (l : Layout) : BaseEntry := { desc := baseDesc s l, pic := basePic s l, bytes := baseBytes l, users := [i] }

/-- An uncorrectable error in the Absolute cache region, at a granule, makes the entry there invalid for every layout (R235). -/
def spoilBase (granule : Nat) (s : State) : State :=
  { s with video := { s.video with bases := s.video.bases.filter fun b => !b.granules.contains granule } }

/-! ### LAYOUT_CREATE, LAYOUT_MODIFY, LAYOUT_DESTROY (R212, R214, R215, R233) -/

/-- Offset of a layer entry from the start of the descriptor. -/
def layerAt (j : Nat) : Nat := 96 + 32 * j

/-- A layer entry. -/
def readLayer (c : Cmd) (j : Nat) : Layer :=
  let b := layerAt j
  let k := c.u8 b
  { kind := k, z := c.u8 (b + 1), isStatic := bit (c.u8 (b + 2)) 0, fit := bits (c.u8 (b + 2)) 1 2, alpha := c.u8 (b + 3), x := c.u16 (b + 4),
    y := c.u16 (b + 6), w := c.u16 (b + 8), h := c.u16 (b + 10), bank := c.u8 (b + 12), fmt := c.u8 (b + 13),
    source := if k = 0 then c.hdl (b + 16) else 0, rank := if k = 1 then c.u8 (b + 16) else 0,
    fill := if k = 3 then (c.u16 (b + 16), c.u16 (b + 18), c.u16 (b + 20)) else (0, 0, 0), imgW := if k = 2 then c.u16 (b + 20) else 0,
    imgH := if k = 2 then c.u16 (b + 22) else 0, content := none, pending := none }

def layerCount (c : Cmd) : Nat := c.u8 70

/-- A fill at an offset. -/
def fillAt (c : Cmd) (o : Nat) : Nat × Nat × Nat := (c.u16 o, c.u16 (o + 2), c.u16 (o + 4))

/-- The description in the block. -/
def readLayout (c : Cmd) (tenant conf : Nat) : Layout :=
  { tenant := tenant, conf := conf, w := c.u16 64, h := c.u16 66, rate := c.u8 68, tenBit := decide (c.u8 69 = 1), excl := bit (c.u8 71) 0,
    background := fillAt c 72, emptyFill := fillAt c 78, fenceLimit := c.u16 84, exclLeg := c.hdl 88,
    layers := (List.range (layerCount c)).map (readLayer c), signalled := [], timedOut := [], home := 0, reserved := 0, content := 0,
    output := none, changed := true }

def layoutLengths (c : Cmd) : List Check :=
  [failIf (decide (c.plen.toNat < 32) || decide (c.plen.toNat ≠ 32 + 32 * layerCount c)) stLength 0]

def layoutZeros (c : Cmd) : List Check :=
  [zeroAt c 64 2, zeroAt c 66 2, zeroAt c 68 1, zeroAt c 70 1, zeroAt c 84 2] ++ (List.range (layerCount c)).flatMap fun j =>
    let b := layerAt j
    [zeroAt c (b + 8) 2, zeroAt c (b + 10) 2] ++ if c.u8 b = 2 then [zeroAt c (b + 20) 2, zeroAt c (b + 22) 2] else []

def layoutHandles (s : State) (c : Cmd) : List Check :=
  [if bit (c.u8 71) 0 then handleAt s c [tyLeg] 88 else noHandle c 88] ++ (List.range (layerCount c)).map fun j =>
    let b := layerAt j
    if c.u8 b = 0 then handleAt s c [tyIn] (b + 16) else if c.u8 b = 2 then noHandle c (b + 16) else none

/-- A 2-byte field of even values in a range. -/
def evenRange (c : Cmd) (off lo hi : Nat) : Check := failIf (decide (c.u16 off < lo) || decide (hi < c.u16 off) || decide (c.u16 off % 2 ≠ 0)) stRange off

/-- Fields of layer entry j in a canvas of w × h. -/
def layerFields (c : Cmd) (j : Nat) : List Check :=
  let b := layerAt j
  let k := c.u8 b
  let f := c.u8 (b + 2)
  let inside := fun (o so room : Nat) => failIf (decide (c.u16 so < 16) || decide (c.u16 so % 2 ≠ 0) || decide (room < c.u16 o + c.u16 so)) stRange so
  [rangeAt c b 1 0 3, failIf (decide (63 < c.u8 (b + 1)) || (List.range j).any fun i => decide (c.u8 (layerAt i + 1) = c.u8 (b + 1))) stRange (b + 1),
   failIf (decide (8 ≤ f)) stFormat (b + 2), failIf ((bit f 0 && decide (k < 2)) || decide (bits f 1 2 = 3) || (decide (k = 3) && decide (bits f 1 2 ≠ 0))) stRange (b + 2),
   evenRange c (b + 4) 0 65535, evenRange c (b + 6) 0 65535, inside (b + 4) (b + 8) (c.u16 64), inside (b + 6) (b + 10) (c.u16 66),
   rangeAt c (b + 12) 1 0 15, rangeAt c (b + 13) 1 0 (if k = 2 then 1 else 0), padAt c (b + 14) 2] ++
  (match k with
    | 0 => [rangeAt c (b + 20) 2 0 0, rangeAt c (b + 22) 2 0 0]
    | 1 => [rangeAt c (b + 16) 1 0 63, padAt c (b + 17) 3, rangeAt c (b + 20) 2 0 0, rangeAt c (b + 22) 2 0 0]
    | 2 => [evenRange c (b + 20) 16 4096, evenRange c (b + 22) 16 2304]
    | _ => [rangeAt c (b + 16) 2 0 1023, rangeAt c (b + 18) 2 0 1023, rangeAt c (b + 20) 2 0 1023, rangeAt c (b + 22) 2 0 0]) ++
  [padAt c (b + 24) 8]

def layoutFields (c : Cmd) : List Check :=
  let mul8 := fun (o hi : Nat) => failIf (decide (c.u16 o < 128) || decide (hi < c.u16 o) || decide (c.u16 o % 8 ≠ 0)) stRange o
  [mul8 64 4096, mul8 66 2304, rangeAt c 68 1 1 60, rangeAt c 69 1 0 1, rangeAt c 70 1 1 64, reservedAt c 71 1 1] ++
  ([72, 74, 76, 78, 80, 82].map fun o => rangeAt c o 2 0 1023) ++ [rangeAt c 84 2 1 1000, padAt c 86 2, padAt c 92 4] ++
  (List.range (layerCount c)).flatMap (layerFields c)

/-- A source that a layout or tile set may not name: of another conference, no video source, or of a leg in DRAINING (R46, Table 02-9); a remote source
belongs to every cascade conference of its tenant (log entry 47). -/
def notShown (s : State) (conf : Nat) (h : Handle) : Bool :=
  match s.obj.ins.at? (hIndex h) with
  | none => false
  | some x => decide (x.decl.kind ≠ 1) || !(confsOfIn s x).contains conf || (!x.onTrunk && ((s.obj.legs.at? x.owner).map fun l => l.state == .draining).getD false)

/-- A leg or source of another conference, or in DRAINING (R46). -/
def layoutStates (s : State) (c : Cmd) (conf : Nat) : List Check :=
  [if bit (c.u8 71) 0 then stateFail (((s.obj.legs.at? (hIndex (c.hdl 88))).map fun l => decide (l.conf ≠ conf) || l.state == .draining).getD true)
    (c.hdl 88) else none] ++
  (List.range (layerCount c)).map fun j =>
    let h := c.hdl (layerAt j + 16)
    if c.u8 (layerAt j) = 0 then stateFail (notShown s conf h) h else none

/-- Image contents fit the Absolute cache (R233). -/
def contentFits (s : State) : Bool := decide (contentUsed s ≤ cacheSize s)

/-- Every reservation of LAYOUT_CREATE: table entry, compose rate and content (0x0105), the layout's flow, and the paths of the conference's
composites (R246). -/
def tryLayout (c : Cmd) (s : State) : Except Nat (Nat × State) := do
  let conf := hIndex c.object
  let l := readLayout c c.fn.val conf
  match s.obj.layouts.next (tableSize tyLayout), homeFor (cmpUsed s) 4000000000 (l.cost * l.rate) with
  | some i, some home =>
    let l := { l with home := home, reserved := l.cost * l.rate, content := contentOf l.layers }
    let s := setLayouts (·.alloc (tableSize tyLayout) l) s
    need (contentFits s) 0x0105
    let s := trimBases s
    let s ← evalConf conf (placeAll conf (reserveFor (objRef 6 i) [] 1 s))
    let s ← settled [] s
    .ok (i, s)
  | _, _ => .error 0x0105

def ruleLayoutCreate : CmdRule where
  op := 0x0801
  logged := true
  plen := .block
  types := [tyConf]
  lengths c _ := layoutLengths c
  zeroFields c _ := layoutZeros c
  handles c s := layoutHandles s c
  fields c _ := layoutFields c
  states c s := confClosing s c.object :: layoutStates s c (hIndex c.object)
  resources c s := [Adm.check (tryLayout c s)]
  effect c s :=
    match tryLayout c s with
    | .ok (i, t) => ({ res := [handleOf t tyLayout i] }, t)
    | .error _ => ({}, s)

def execLayoutCreate (c : Cmd) (s : State) : Host.Outcome State Fault Refusal := issue ruleLayoutCreate c s

/-- A layer that keeps its content and pending flip: an image layer of the same size and format before and after (R215). -/
def carryLayer (old : List Layer) (j : Nat) (a : Layer) : Layer :=
  match old[j]? with
  | some b => if a.kind = 2 ∧ b.kind = 2 ∧ a.imgW = b.imgW ∧ a.imgH = b.imgH ∧ a.fmt = b.fmt then { a with content := b.content, pending := b.pending } else a
  | none => a

/-- Pending flips of a layout. -/
def flipCount (ls : List Layer) : Nat := (ls.filter (·.pending.isSome)).length

/-- LAYOUT_MODIFY: the new description with what carries over; a higher compose rate is reserved on the same cluster (R212, R215). -/
def tryRelayout (c : Cmd) (s : State) : Adm := do
  let i := hIndex c.object
  match s.obj.layouts.at? i with
  | none => .ok s
  | some old =>
    let l := readLayout c old.tenant old.conf
    let d := l.cost * l.rate
    let ls := (indexed l.layers).map fun x => carryLayer old.layers x.1 x.2
    need (decide (cmpUsed s old.home.val - old.reserved + d ≤ 4000000000) || decide (d ≤ old.reserved)) 0x0105
    let l := { l with home := old.home, reserved := if old.reserved < d then d else old.reserved, content := contentOf ls, layers := ls,
                      signalled := old.signalled, timedOut := old.timedOut, output := old.output }
    let s := updLayout i (fun _ => l) s
    need (contentFits s) 0x0105
    let s := trimBases s
    let s := countObj 0x0801 c.object 2 (flipCount old.layers - flipCount ls) s
    let s ← evalConf old.conf (placeAll old.conf (refreshBase i s))
    settled [] s

def ruleLayoutModify : CmdRule where
  op := 0x0802
  logged := true
  plen := .block
  types := [tyLayout]
  lengths c _ := layoutLengths c
  zeroFields c _ := layoutZeros c
  handles c s := layoutHandles s c
  fields c _ := layoutFields c
  states c s := match s.obj.layouts.at? (hIndex c.object) with
    | some l => layoutStates s c l.conf
    | none => []
  resources c s := [Adm.check (tryRelayout c s)]
  effect c s :=
    match tryRelayout c s with
    | .ok t => ({}, t)
    | .error _ => ({}, s)

def execLayoutModify (c : Cmd) (s : State) : Host.Outcome State Fault Refusal := issue ruleLayoutModify c s

/-- LAYOUT_DESTROY (R215): sources that nothing places any more go IDLE (R193). -/
def ruleLayoutDestroy : CmdRule where
  op := 0x0803
  logged := true
  types := [tyLayout]
  states c s := [stateFail (layoutNamed s (hIndex c.object)) c.object]
  effect c s :=
    match s.obj.layouts.at? (hIndex c.object) with
    | some l => ({}, placeAll l.conf (freeLayout (hIndex c.object) s))
    | none => ({}, s)

def execLayoutDestroy (c : Cmd) (s : State) : Host.Outcome State Fault Refusal := issue ruleLayoutDestroy c s

/-! ### Flips and fences (R229-R231) -/

def modLayer (i n : Nat) (f : Layer → Layer) : State → State := updLayout i fun l => { l with layers := modAt l.layers n f }

/-- LAYER_FLIP (R229): the content is read at admission; it replaces a pending flip. -/
def ruleLayerFlip : CmdRule where
  op := 0x0804
  logged := true
  plen := .fixed 16
  types := [tyLayout]
  lengths c s := [failIf (((flipLayer s c.object (c.u16 16)).map fun a => decide (a.kind = 2)).getD false && c.data.isNone) stDmaFault 0]
  fields c s := [failIf (decide ((((s.obj.layouts.at? (hIndex c.object)).map (·.layers.length)).getD 0) ≤ c.u16 16)) stRange 16, padAt c 18 2]
  states c s := [stateFail (((flipLayer s c.object (c.u16 16)).map fun a => decide (a.kind ≠ 2)).getD true) c.object]
  effect c s :=
    let i := hIndex c.object
    let n := c.u16 16
    match flipLayer s c.object n with
    | none => ({}, s)
    | some a =>
      let fence := c.hdl 20
      let s := if a.pending.isSome then countObj 0x0801 c.object 2 1 s else s
      let s := updLayout i (fun l => { l with timedOut := l.timedOut.filter fun x => x != fence }) s
      ({}, modLayer i n (fun a => { a with pending := some { fence := fence, miss := 0, content := slice (c.data.getD []) 0 a.contentSize } }) s)

def execLayerFlip (c : Cmd) (s : State) : Host.Outcome State Fault Refusal := issue ruleLayerFlip c s

/-- FENCE_SIGNAL (R230). -/
def ruleFenceSignal : CmdRule where
  op := 0x0805
  logged := true
  plen := .fixed 4
  types := [tyLayout]
  zeroFields c _ := [zeroAt c 16 4]
  states c s := [failIf (((s.obj.layouts.at? (hIndex c.object)).map fun l => l.timedOut.contains (c.hdl 16)).getD false) stFenceTimeout 0]
  effect c s :=
    let i := hIndex c.object
    match s.obj.layouts.at? i with
    | none => ({}, s)
    | some l =>
      let id := c.hdl 16
      if l.signalled.contains id then ({ status := stNoop }, s)
      else if l.signalled.length < 16 then ({}, updLayout i (fun l => { l with signalled := l.signalled ++ [id] }) s)
      else ({}, updLayout i (fun l => { l with signalled := l.signalled.drop 1 ++ [id] })
        { s with video := { s.video with fenceDrops := s.video.fenceDrops + 1 } })

def execFenceSignal (c : Cmd) (s : State) : Host.Outcome State Fault Refusal := issue ruleFenceSignal c s

/-- One pending flip at a picture tick: it applies, or it misses. -/
def Layer.tick (signalled : List Word) (a : Layer) : Layer :=
  match a.pending with
  | none => a
  | some f => if f.fence = 0 ∨ signalled.contains f.fence then { a with content := some f.content, pending := none }
    else { a with pending := some { f with miss := f.miss + 1 } }

/-- The flips of a layout at one of its picture ticks (R230). -/
def tickFlips (i : Nat) (s : State) : State :=
  match s.obj.layouts.at? i with
  | none => s
  | some l =>
    let hit := (l.layers.filterMap (·.pending)).filter fun f => f.fence == 0 || l.signalled.contains f.fence
    let used := hit.map (·.fence)
    let s := updLayout i (fun l => { l with
      layers := l.layers.map (Layer.tick l.signalled), signalled := l.signalled.filter fun x => !used.contains x }) s
    let s := countObj 0x0801 (handleOf s tyLayout i) 1 hit.length (count 0 (vidCtr l.home.val 0x134) hit.length s)
    refreshBase i s

/-- FENCE_TIMEOUT: a flip that missed FENCE_LIMIT ticks is discarded, and its ID timed out (R231). -/
def timeoutFence (i n : Nat) (s : State) : State :=
  match (s.obj.layouts.at? i), (s.obj.layouts.at? i).bind fun l => (l.layers[n]?).bind (·.pending) with
  | some l, some f =>
    if f.miss < l.fenceLimit then s
    else
      let h := handleOf s tyLayout i
      let s := modLayer i n (fun a => { a with pending := none }) s
      let s := updLayout i (fun l => { l with timedOut := lastN 16 ((l.timedOut.filter fun x => x != f.fence) ++ [f.fence]) }) s
      let s := countObj 0x0801 h 3 1 (count1 (vidCtr l.home.val 0x138) s)
      postEvent l.tenant evFenceTimeout h n f.fence.toNat 0 s
  | _, _ => s

/-- The flips of a layout whose FENCE_TIMEOUT row has not come by the next picture tick time out before it (log entry 36). -/
def dueTimeouts (i : Nat) (s : State) : State :=
  (List.range (((s.obj.layouts.at? i).map (·.layers.length)).getD 0)).foldl (fun s n => timeoutFence i n s) s

def execFenceTimeout (layout layer : Nat) (s : State) : Host.Outcome State Fault Refusal := done s (timeoutFence layout layer s)

/-! ### SCALER_BANK_LOAD (R221) -/

def ruleScalerBankLoad : CmdRule where
  op := 0x0808
  logged := true
  plen := .fixed 16
  types := [tyConf]
  lengths c _ := [failIf c.data.isNone stDmaFault 0]
  fields c _ :=
    let bs := c.data.getD []
    [rangeAt c 16 1 0 15, padAt c 17 7, (tapReserved bs).map fun i => ⟨stFormat, BitVec.ofNat 32 (64 + 2 * i)⟩,
     (tapSum (tapsOf bs)).map fun i => ⟨stRange, BitVec.ofNat 32 (64 + 2 * i)⟩]
  states c s := [confClosing s c.object]
  effect c s :=
    let k := hIndex c.object
    let s := updConf k (fun f => { f with banks := tput f.banks (c.u8 16) (tapsOf (c.data.getD [])) }) s
    ({}, (s.obj.layouts.live.filter fun kv => decide (kv.2.conf = k)).foldl (fun s (kv : Nat × Layout) => refreshBase kv.1 s) s)

def execScalerBankLoad (c : Cmd) (s : State) : Host.Outcome State Fault Refusal := issue ruleScalerBankLoad c s

/-! ### Layout pictures and tile scaling (R211, R228, R243) -/

/-- Network time of tick k of a picture clock of rate F, ns (R243). -/
def pictureTime (rate k : Nat) : Nat := k * 1000000000 / rate

/-- A task's work at tick k of a clock of rate F. -/
def tickJob (rate k : Nat) (w : Work) : Job := { work := w, tick := k, due := pictureTime rate k, period := 1000000000 / rate }

/-- Sources that a layout shows hand a picture over at the tick. -/
def handOverLayout (l : Layout) (skip : Option Nat) (t : Nat) (s : State) : State :=
  (l.layers.filter fun a => decide (a.kind < 2)).foldl (fun s a => match layerSource s l.conf skip a with
    | some i => handOver i t s
    | none => s) s

/-- A composite on the compose-then-encode path names the layout without SELF: it is in use (R243). -/
def inUse (s : State) (i : Nat) : Bool :=
  s.obj.outs.live.any fun kv => decide (liveIndex s tyLayout kv.2.decl.layout = some i) && !kv.2.decl.self &&
    ((kv.2.comp.map fun c => c.path == .compose && c.priv.isSome)).getD false

/-- Admit a layout picture of tick k: what it shows is fixed here, and it waits for the pictures it uses (R213, R243). Its samples and its task's number
come first. -/
def layoutTask (i k : Nat) (l : Layout) (home : ClusterNo) (own skip : Option Nat) (s : State) : (Picture × Nat) × State :=
  let t := pictureTime l.rate k
  let p := composePic s l skip t
  let (n, s) := produceFor (objRef 6 i) .compose home 28 false (layoutWaits s l skip t) (tickJob l.rate k (.layout i own (baseOf s i l))) s
  ((p, n), handOverLayout l skip t s)

/-- The layout picture of tick k that the composites of a layout in use share. -/
def layoutPic (i k : Nat) (s : State) : State :=
  match s.obj.layouts.at? i with
  | none => s
  | some l =>
    if ¬ inUse s i ∨ ¬ composes s l.conf then s
    else
      let ((p, n), s) := layoutTask i k l l.home none (if l.excl then some (hIndex l.exclLeg) else none) s
      updLayout i (fun l => { l with output := some (k, p, n), changed := false }) s

/-- The leg whose source a member shows: the holder of its rank (R253). -/
def memberHolder (s : State) (conf : Nat) (m : Member) : Option Nat := if m.isRank then (videoRanks s conf none)[m.rank]? else none

/-- The source that a member shows. -/
def memberSource (s : State) (conf : Nat) (m : Member) : Option Nat :=
  if m.isRank then (memberHolder s conf m).bind (firstVideo s conf) else sourceLive s conf m.source

/-- The scaling of member j of a tile set for tick k: one draw of its source over the empty-tile fill (R228, R253). -/
def scaleTile (i j k : Nat) (s : State) : State :=
  match s.obj.tilesets.at? i with
  | none => s
  | some t =>
    match t.members[j]? with
    | none => s
    | some m =>
      if m.ctx.isNone ∨ ¬ composes s t.conf then s
      else
        let at_ := pictureTime t.rate k
        let src := memberSource s t.conf m
        let holder := memberHolder s t.conf m
        let shown := src.bind fun x => pictureFor s x at_
        let p := match shown with
          | some (p, _) =>
            let f := fitOf t.fit p.w p.h t.w t.h
            drawBlock f.dx f.dy 255 (scaleContent (bankOf s t.conf t.bank) f { pic := p, alpha := none }) (canvas t.w t.h t.fill)
          | none => canvas t.w t.h t.fill
        let (n, s) := produceFor (objRef 8 i) .compose t.home 28 false (shown.bind (·.2)).toList (tickJob t.rate k (.scale i j)) s
        let s := match src with
          | some x => handOver x at_ s
          | none => s
        updTileset i (fun t => { t with members := modAt t.members j fun m =>
          { m with scaled := some (k, narrowPic t.tenBit p, n), holder := holder, intra := m.intra || (m.isRank && decide (holder ≠ m.holder)) } }) s

end Sys2Proof.Machine
end

