-- ==== Sys2Proof/Machine/Encode.lean ====
section
/-! DEFINITION. Encoding and stitching: tile sets, picture ticks, bridges, the per-picture budget, coded pictures and their RTP packets, and stitched
pictures (chapter 9). The bits of a coded picture are open (log entry 7). -/

namespace Sys2Proof.Machine

/-! ### TILESET_CREATE and TILESET_DESTROY (R252-R254, R266) -/

/-- Offset of a member entry from the start of the descriptor. -/
def memberAt (j : Nat) : Nat := 96 + 8 * j

def tileMembers (c : Cmd) : Nat := c.u16 88

/-- The tile set in the block, before its contexts. -/
def readTileset (c : Cmd) (tenant conf : Nat) : TileSet :=
  { tenant := tenant, conf := conf, codec := c.u8 64, tenBit := decide (c.u8 65 = 1), layers := c.u8 66, fit := c.u8 67 % 4, w := c.u16 68, h := c.u16 70,
    rate := c.u8 72, bank := c.u8 73, girPeriod := c.u16 74, tileRate := c.u32 76, minQp := c.u8 80, maxQp := c.u8 81, capMult := c.u8 83,
    bridgeW := c.u16 84, bridgeH := c.u16 86, fill := fillAt c 90,
    members := (List.range (tileMembers c)).map fun j =>
      let b := memberAt j
      { isRank := decide (c.u8 b = 1), rank := c.u8 (b + 1), source := c.hdl (b + 4), ctx := none, holder := none, scaled := none, slice := none }
    bridges := [], home := 0, reserved := tileMembers c * (c.u16 68 * c.u16 70) * c.u8 72 }

/-- A range of multiples of m. -/
def multAt (c : Cmd) (off lo hi m : Nat) : Check := failIf (decide (c.u16 off < lo) || decide (hi < c.u16 off) || decide (c.u16 off % m ≠ 0)) stRange off

def tileFields (s : State) (c : Cmd) : List Check :=
  let codec := c.u8 64
  let first := (tilesetsOf s (hIndex c.object) codec).isEmpty
  [failIf (decide (codec ≠ 3) && decide (codec ≠ 5)) stRange 64, rangeAt c 65 1 0 (if codec = 5 then 1 else 0), rangeAt c 66 1 1 3,
   failIf (decide (4 ≤ c.u8 67)) stFormat 67, rangeAt c 67 1 0 2, multAt c 68 64 4096 8, multAt c 70 64 2304 8, rangeAt c 72 1 1 60,
   rangeAt c 73 1 0 15, multAt c 74 8 256 (2 ^ (c.u8 66 - 1)), rangeAt c 76 4 16 100000, rangeAt c 80 1 0 (topQp codec),
   rangeAt c 81 1 (c.u8 80) (topQp codec), rangeAt c 82 1 (if first then 1 else 0) 64, rangeAt c 83 1 2 16, multAt c 84 128 4096 8,
   multAt c 86 128 2304 8, rangeAt c 88 2 1 256, rangeAt c 90 2 0 1023, rangeAt c 92 2 0 1023, rangeAt c 94 2 0 1023] ++
  (List.range (tileMembers c)).flatMap fun j =>
    let b := memberAt j
    [rangeAt c b 1 0 1, rangeAt c (b + 1) 1 0 (if c.u8 b = 1 then 63 else 0), padAt c (b + 2) 2,
     failIf ((List.range j).any fun i => decide (c.raw (memberAt i) 8 = c.raw b 8)) stRange b]

/-- State checks: the stitch clock's F, L and P, and sources of another conference. -/
def tileStates (s : State) (c : Cmd) : List Check :=
  let conf := hIndex c.object
  [confClosing s c.object, match tilesetsOf s conf (c.u8 64) with
    | [] => none
    | (i, t) :: _ => stateFail (decide (t.rate ≠ c.u8 72) || decide (t.layers ≠ c.u8 66) || decide (t.girPeriod ≠ c.u16 74)) (handleOf s tyTileset i)] ++
  (List.range (tileMembers c)).map fun j =>
    let h := c.hdl (memberAt j + 4)
    if c.u8 (memberAt j) = 0 then stateFail (notShown s conf h) h else none

/-- The tile streams of the members: one encode context each (R241). -/
def addTiles (i : Nat) (t : TileSet) : Nat → Nat → State → Adm
  | 0, _, s => .ok s
  | n + 1, j, s => do
    let (e, s) ← addEnc (.tile i j) t.tenant t.w t.h t.tenBit t.rate t.layers t.codec t.capMult s
    addTiles i t n (j + 1) (updTileset i (fun t => { t with members := modAt t.members j fun m => { m with ctx := some e } }) s)

/-- The bridges: a context and compose rate each. -/
def addBridges (i : Nat) (t : TileSet) : Nat → Nat → State → Adm
  | 0, _, s => .ok s
  | n + 1, j, s => do
    let (e, s) ← addEnc (.bridge i j) t.tenant t.bridgeW t.bridgeH t.tenBit t.rate t.layers t.codec t.capMult s
    match homeFor (cmpUsed s) 4000000000 t.bridgeRate with
    | none => .error 0x0105
    | some h => addBridges i t n (j + 1) (updTileset i (fun t => { t with bridges := t.bridges ++ [{ ctx := e, holder := none, home := h }] }) s)

/-- Every reservation of TILESET_CREATE (R252), then the paths of the conference's composites (R246). -/
def tryTileset (c : Cmd) (s : State) : Except Nat (Nat × State) := do
  let conf := hIndex c.object
  let t := readTileset c c.fn.val conf
  match s.obj.tilesets.next (tableSize tyTileset), homeFor (cmpUsed s) 4000000000 t.reserved with
  | some i, some home =>
    let t := { t with home := home }
    let s := setTilesets (·.alloc (tableSize tyTileset) t) s
    let s ← addTiles i t t.members.length 0 s
    let s ← addBridges i t (c.u8 82) 0 s
    let s ← evalConf conf (placeAll conf (reserveFor (objRef 8 i) [] 1 s))
    let s ← settled [] s
    .ok (i, s)
  | _, _ => .error 0x0105

def ruleTilesetCreate : CmdRule where
  op := 0x0806
  logged := true
  plen := .block
  types := [tyConf]
  lengths c _ := [failIf (decide (c.plen.toNat < 32) || decide (c.plen.toNat ≠ 32 + 8 * tileMembers c)) stLength 0]
  zeroFields c _ := [zeroAt c 66 1, zeroAt c 68 2, zeroAt c 70 2, zeroAt c 72 1, zeroAt c 74 2, zeroAt c 76 4, zeroAt c 83 1, zeroAt c 84 2, zeroAt c 86 2,
    zeroAt c 88 2]
  handles c s := (List.range (tileMembers c)).map fun j =>
    let b := memberAt j
    if c.u8 b = 0 then handleAt s c [tyIn] (b + 4) else if c.u8 b = 1 then noHandle c (b + 4) else none
  fields c s := tileFields s c
  states c s := tileStates s c
  resources c s := [Adm.check (tryTileset c s)]
  effect c s :=
    match tryTileset c s with
    | .ok (i, t) => ({ res := [handleOf t tyTileset i] }, t)
    | .error _ => ({}, s)

def execTilesetCreate (c : Cmd) (s : State) : Host.Outcome State Fault Refusal := issue ruleTilesetCreate c s

/-- Destroying the tile set would leave its stitch clock without bridges (R266). -/
def lastBridges (s : State) (i : Nat) : Bool :=
  match s.obj.tilesets.at? i with
  | none => false
  | some t =>
    let rest := (tilesetsOf s t.conf t.codec).filter fun x => decide (x.1 ≠ i)
    !rest.isEmpty && rest.all fun x => x.2.bridges.isEmpty

/-- Destroying a tile set; the conference's composites are evaluated again, since one may need a stream that it did not use (R246, R257). -/
def tryUntile (i : Nat) (s : State) : Adm :=
  match s.obj.tilesets.at? i with
  | some t => evalConf t.conf (placeAll t.conf (freeTileset i s))
  | none => .ok s

def ruleTilesetDestroy : CmdRule where
  op := 0x0807
  logged := true
  types := [tyTileset]
  states c s := [stateFail (tilesetUsed s (hIndex c.object) || lastBridges s (hIndex c.object)) c.object]
  resources c s := [Adm.check (tryUntile (hIndex c.object) s)]
  effect c s :=
    match tryUntile (hIndex c.object) s with
    | .ok t => ({}, t)
    | .error _ => ({}, s)

def execTilesetDestroy (c : Cmd) (s : State) : Host.Outcome State Fault Refusal := issue ruleTilesetDestroy c s

/-! ### Temporal structure (R248, R256) -/

/-- Temporal layer of tick k (Table 09-3). -/
def layerOf (l k : Nat) : Nat :=
  match l with
  | 2 => k % 2
  | 3 => if k % 4 = 0 then 0 else if k % 4 = 2 then 1 else 2
  | _ => 0

/-- Reference tick of tick k (Table 09-3). -/
def refTick (l k : Nat) : Nat :=
  match l with
  | 2 => if k % 2 = 0 then k - 2 else k - 1
  | 3 => if k % 4 = 0 then k - 4 else if k % 4 = 2 then k - 2 else k - 1
  | _ => k - 1

/-- Columns that the picture of tick k codes intra, from and to, and its recovery count, 0 off a refresh boundary (R256); none above T0. -/
def refreshCols (w l p k : Nat) : Nat × Nat × Nat :=
  let step := 2 ^ (l - 1)
  let n := p / step
  let c := ceilDiv w 64
  let j := k % p / step
  if p = 0 ∨ layerOf l k ≠ 0 then (0, 0, 0) else (j * c / n, (j + 1) * c / n, if k % p = 0 then p - step else 0)

/-! ### The per-picture budget (R249) -/

/-- Nominal bits, budget and hard cap of a picture. -/
def pictureBudget (r f k : Nat) (debt : Int) (intra : Bool) : Nat × Nat × Nat :=
  let n := r * 1000 / f
  let b : Int := (n : Int) - debt.tdiv 8
  let b := if b < ((n / 4 : Nat) : Int) then n / 4 else b.toNat
  let b := if intra then 4 * b else b
  (n, b, k * b)

/-- Debt after a picture of `size` bits. -/
def nextDebt (debt : Int) (size n : Nat) : Int :=
  let v := debt + size - n
  if v < -2 * (n : Int) then -2 * (n : Int) else v

/-- Temporal layer of a context's picture: T0 for a key picture, and for one coded intra throughout (R248). -/
def picLayer (x : EncCtx) (k : Nat) (key intra : Bool) : Nat := if key ∨ intra then 0 else layerOf x.layers k

/-- Code a picture of a context at tick k (R242, R248-R250): key or intra throughout, rate, hard cap multiple, QP limits, refresh, the
settings of a bridge's picture and source. -/
def codePic (e k : Nat) (key intra : Bool) (r cap lo hi : Nat) (cols : Nat × Nat × Nat) (bridge : List Nat) (src : Picture) (s : State) : Option (Coded × State) :=
  match s.obj.encs.at? e with
  | none => none
  | some x =>
    let (n, b, top) := pictureBudget r x.f cap x.debt (key || intra)
    let ref := match x.lastKey with
      | some t => if refTick x.layers k < t then t else refTick x.layers k
      | none => refTick x.layers k
    let settings := [x.codec, b2n x.tenBit, src.w, src.h, picLayer x k key intra, k % 65536, ref, b2n key, b2n intra, lo, hi, b, top,
      cols.1, cols.2.1, cols.2.2] ++ bridge
    let token := Config.encodeToken settings (src.y ++ src.cb ++ src.cr) x.token
    let size := least (Config.codedSize token) (top / 8)
    let s := updEnc e (fun x => { x with
      debt := nextDebt x.debt (8 * size) n, lastKey := if key then some k else x.lastKey, lastPic := some k, token := token }) s
    some ({ bytes := (List.range size).map (Config.codedByte token), key := key, intra := intra, past := decide (b < 8 * size),
            flags := Config.codedFlags token % 4 }, s)

/-- Admit the encode task of a picture of tick k (R242): it waits for its source; the object that counts it. -/
def encodeTask (e k : Nat) (x : EncCtx) (c : Coded) (group : Nat) (h : Handle) (waits : List Nat) (s : State) : Nat × State :=
  produceFor (objRef tyEnc e) .encode x.home 32 false waits (tickJob x.f k (.encode e c group h)) s

/-! ### RTP packets of a picture (R244) -/

/-- The packet payloads of one NAL unit or temporal unit: whole, or fragments (Table 07-2; the formats are PRESUMED, log entry 50). -/
def fragments : Nat → (Bool → Bool → List Byte → List Byte) → Nat → Bool → List Byte → List (List Byte)
  | 0, _, _, _, _ => []
  | fuel + 1, wrap, n, first, bs =>
    if bs.length ≤ n then [wrap first true bs] else wrap first false (bs.take n) :: fragments fuel wrap n false (bs.drop n)

/-- The payloads of a unit of a codec within the maximum payload; `starts` marks the first unit of a key picture, `last` the last VCL unit of the
picture. -/
def unitPayloads (codec most : Nat) (starts last : Bool) (u : List Byte) : List (List Byte) :=
  let h0 := beAt u 0 1
  let se := fun (s e : Bool) => b2n s * 128 + b2n e * 64
  if codec = 4 then
    fragments u.length (fun s e bs => BitVec.ofNat 8 (b2n (!s) * 128 + b2n (!e) * 64 + 16 + b2n (starts && s) * 8) :: bs) (most - 1) true u
  else if u.length ≤ most then [u]
  else if codec < 3 then
    fragments u.length (fun s e bs => BitVec.ofNat 8 (h0 / 32 * 32 + 28) :: BitVec.ofNat 8 (se s e + h0 % 32) :: bs) (most - 2) true (u.drop 1)
  else if codec = 3 then
    fragments u.length (fun s e bs => BitVec.ofNat 8 (h0 / 128 * 128 + 98 + h0 % 2) :: BitVec.ofNat 8 (beAt u 1 1) ::
      BitVec.ofNat 8 (se s e + h0 / 2 % 64) :: bs) (most - 3) true (u.drop 2)
  else
    fragments u.length (fun s e bs => BitVec.ofNat 8 h0 :: BitVec.ofNat 8 (29 * 8 + beAt u 1 1 % 8) ::
      BitVec.ofNat 8 (se s e + b2n (last && e) * 32 + beAt u 1 1 / 8) :: bs) (most - 3) true (u.drop 2)

/-- The RTP timestamp of tick k (R244): O is bytes 2-5 of the block E of the stream's slot and SSRC. -/
def pictureTs (s : State) (d : StreamRec) (rate k : Nat) : Nat :=
  let o := match (slotAt s (hIndex d.slot)).bind (·.key) with
    | some key => beAt (blockE key (d.ssrcs.getD 0 0)) 2 4
    | none => 0
  (o + pictureTime rate k * 9 / 100000) % 2 ^ 32

/-- Admit a picture's packets in bitstream order, the last with the marker bit (R244). Their place in Sillage is that of the picture's tick; they wait
there for the release of its task (DESIGN CHOICE, log entry 160). -/
def sendUnits (i rate k : Nat) (key : Bool) (units : List (List Byte)) (task : Nat) (s : State) : State :=
  match s.obj.outs.at? i with
  | none => s
  | some o =>
    match s.obj.legs.at? o.leg with
    | none => s
    | some l =>
      if ¬ l.sends then s
      else
        let ssrc := o.decl.ssrcs.getD 0 0
        let ps := (indexed units).flatMap fun u =>
          unitPayloads (o.decl.blk 0 1) (o.decl.blk 24 2) (key && decide (u.1 = 0)) (decide (u.1 + 1 = units.length)) u.2
        let ts := pictureTs s o.decl rate k
        let s := (indexed ps).foldl (fun s x => enterTx { legPkt o.leg l .heart ssrc o.decl.slot false
          (rtpPacket o.decl.pt (decide (x.1 + 1 = ps.length)) 0 ts ssrc.toNat x.2) with stream := some i, wait := some task } s) s
        let h := outHandle s i
        countObj 0x0502 h 1 (b2n key) (countObj 0x0502 h 0 1 s)

/-! ### Private encodes and bridges (R251, R262-R265) -/

/-- A pending key request may be served at time t (R251). -/
def keyAllowed (c : Comp) (d : StreamRec) (t : Nat) : Bool :=
  decide (0 < c.requests) && (match c.lastKey with
    | some x => decide (x + d.blk 16 2 * 1000000 ≤ t)
    | none => true)

/-- Bc as it applies now: that of the last decision, before the first one the start target's (R247). -/
def budgetNow (s : State) (o : OutStream) (c : Comp) : Nat :=
  match c.bc, s.obj.legs.at? o.leg with
  | some b, _ => b
  | none, some l => compBudget s l o.decl (if l.est.decided then l.est.target else l.est.start)
  | none, none => o.decl.blk 8 4

/-- The settings of a composite's parameter sets: codec, depth, L, the path (0 its own encode, 1 a bridge, 2 stitched), the recovery count
that a refresh boundary's SEI message marks (R256), and the canvas, with the tile grid that a bridge or a stitched picture uses (R258, R262, R263). -/
def setsOf (o : OutStream) (c : Comp) (l : Layout) (path recovery : Nat) : List Nat :=
  [o.decl.blk 0 1, b2n l.tenBit, o.decl.blk 2 1, path, recovery] ++ (if path = 0 then [l.w, l.h] else gridOf c.geom)

/-- Code and send one picture of a composite from a layout picture and the task that makes it. A bridge's key picture is a CRA picture, and it uses the
composite's own SPS and a PPS with the same tile grid, without temporal prediction of motion vectors or filtering across tile edges (R262). -/
def encodeComposite (i e k : Nat) (x : EncCtx) (o : OutStream) (c : Comp) (l : Layout) (cols : Nat × Nat × Nat) (src : Picture × Nat) (s : State) : State :=
  let d := o.decl
  let t := pictureTime l.rate k
  let key := x.lastPic.isNone || keyAllowed c d t
  match codePic e k key false (budgetNow s o c) (d.blk 23 1) (d.blk 18 1) (d.blk 19 1) cols
      (if c.path = .bridged then gridOf c.geom else []) src.1 s with
  | none => s
  | some (y, s) =>
    let h := outHandle s i
    let (n, s) := encodeTask e k x y 0x0502 h [src.2] s
    let s := if key then countObj 0x0502 h 3 c.requests (updComp i (fun c => { c with lastKey := some t, requests := 0 }) s) else s
    let sets := if key then Config.paramSets (setsOf o c l (b2n (c.path == .bridged)) 0) else []
    sendUnits i l.rate k key (sets ++ [y.bytes]) n s

/-- The composite of an outbound stream with its layout. -/
def compOf (s : State) (i : Nat) : Option (OutStream × Comp × Layout) :=
  (s.obj.outs.at? i).bind fun o => match o.comp, (liveIndex s tyLayout o.decl.layout).bind s.obj.layouts.at? with
    | some c, some l => some (o, c, l)
    | _, _ => none

/-- The period of the stitch clock of a composite. -/
def clockPeriod (s : State) (o : OutStream) (l : Layout) : Nat :=
  match tilesetsOf s l.conf (o.decl.blk 0 1) with
  | (_, t) :: _ => t.girPeriod
  | [] => 0

/-- The encode of a stitched composite has come to a refresh boundary after its key picture: it codes no more (R262). -/
def atBoundary (s : State) (o : OutStream) (l : Layout) (e : EncCtx) (k : Nat) : Bool :=
  let p := clockPeriod s o l
  decide (p ≠ 0) && decide (k % p = 0) && (match e.lastKey with
    | some t => decide (t < k)
    | none => false)

/-- A composite's own layout picture for tick k: with SELF, or under a bridge (R243, R262). -/
def ownPicture (i k : Nat) (o : OutStream) (l : Layout) (home : ClusterNo) (s : State) : (Picture × Nat) × State :=
  match liveIndex s tyLayout o.decl.layout with
  | some j => layoutTask j k l home (some i) (excludedLeg o.leg o.decl l) s
  | none => ((composePic s l none 0, 0), s)

/-- A private encode at tick k: of the layout picture that the tick's composites share, or of its own with SELF or as a bridge (R242, R243, R265). -/
def encodePriv (i e k : Nat) (x : EncCtx) (s : State) : State :=
  match compOf s i with
  | none => s
  | some (o, c, l) =>
    let home : ClusterNo := match c.selfRate with
      | some (h, _) => Fin.ofNat 8 h
      | none => l.home
    let cols := if bit (o.decl.blk 3 1) 1 then refreshCols l.w (o.decl.blk 2 1) (o.decl.blk 20 2) k else (0, 0, 0)
    if ¬ composes s l.conf then s
    else if c.path = .bridged then
      if atBoundary s o l x k then s
      else
        let (p, s) := ownPicture i k o l home s
        encodeComposite i e k x o c l (0, 0, 0) p s
    else if o.decl.self then
      let (p, s) := ownPicture i k o l home s
      encodeComposite i e k x o c l cols p s
    else match l.output with
      | some (n, p) => if n = k then encodeComposite i e k x o c l cols p s else s
      | none => s

/-- A bridge at tick k: its holder's layout picture, from a CRA picture on (R262). -/
def encodeBridge (ts n e k : Nat) (x : EncCtx) (s : State) : State :=
  match (s.obj.tilesets.at? ts).bind fun t => t.bridges[n]? with
  | none => s
  | some b =>
    match b.holder.bind fun i => (compOf s i).map fun y => (i, y) with
    | none => s
    | some (i, o, c, l) =>
      if atBoundary s o l x k ∨ ¬ composes s l.conf then s
      else
        let (p, s) := ownPicture i k o l b.home s
        encodeComposite i e k x o c l (0, 0, 0) p s

/-- A tile stream at tick k, from the scaling output of its tick (R242, R253-R256). -/
def encodeTile (ts j e k : Nat) (x : EncCtx) (s : State) : State :=
  match s.obj.tilesets.at? ts with
  | none => s
  | some t =>
    match t.members[j]? with
    | none => s
    | some m =>
      match m.scaled with
      | none => s
      | some (n, p, task) =>
        if n ≠ k then s
        else
          let intra := m.intra || x.lastPic.isNone
          match codePic e k false intra t.tileRate t.capMult t.minQp t.maxQp (refreshCols t.w t.layers t.girPeriod k) [] p s with
          | none => s
          | some (c, s) =>
            let now := pictureTime t.rate k
            let tl := picLayer x k false intra
            let (num, s) := encodeTask e k x c 0x0803 (handleOf s tyTileset ts) [task] s
            updTileset ts (fun t => { t with members := modAt t.members j fun m => { m with
              intra := false, slice := some (k, c.bytes, num)
              hist := (m.hist.filter fun (a : Nat × Nat × Nat) => decide (now < a.1 + 500000000)) ++ [(now, tl, c.bytes.length)] } }) s

/-- The picture of tick k of an encode context: one at most. -/
def encodePic (e k : Nat) (s : State) : State :=
  match s.obj.encs.at? e with
  | none => s
  | some x =>
    if x.lastPic = some k then s
    else match x.kind with
      | .priv i => encodePriv i e k x s
      | .tile t j => encodeTile t j e k x s
      | .bridge t n => encodeBridge t n e k x s

/-! ### BRIDGE_REJOIN (R262, R265) -/

/-- The leg rejoins stitching at the first refresh boundary after its bridge's latest key picture. PICTURE_TICK does it for a composite whose row was not
sent before the tick. A key request that still waits then asks for a bridge again (R264; log entry 168). -/
def rejoin (i k : Nat) (s : State) : State :=
  match compOf s i with
  | none => s
  | some (o, c, l) =>
    let ctx := match c.bridge with
      | some (t, n) => ((s.obj.tilesets.at? t).bind fun t => t.bridges[n]?).bind fun b => s.obj.encs.at? b.ctx
      | none => c.priv.bind s.obj.encs.at?
    match ctx with
    | none => s
    | some x =>
      if c.path ≠ .bridged ∨ ¬ atBoundary s o l x k then s
      else
        let s := if c.bridge.isSome then freeBridge i s else dropPriv i s
        let s := updComp i (fun c => { c with path := .stitched, tiles := tileAssign s l.conf o.leg o.decl l, geom := geomOf l, paramsOwed := true }) s
        if c.requests = 0 then s else askBridge i s

def execBridgeRejoin (stream k : Nat) (s : State) : Host.Outcome State Fault Refusal := done s (rejoin stream k s)

/-! ### Stitched pictures (R258, R259) -/

/-- The slice of a tile stream for tick k, with its task. -/
def sliceFor (s : State) (k t m : Nat) : Option (List Byte × Nat) :=
  (((s.obj.tilesets.at? t).bind fun x => x.members[m]?).bind (·.slice)).bind fun (x : Nat × List Byte × Nat) => if x.1 = k then some x.2 else none

/-- The tile stream of a position still exists. -/
def tileLive (s : State) (t m : Nat) : Bool := (((s.obj.tilesets.at? t).bind fun x => x.members[m]?).bind (·.ctx)).isSome

/-- The numbers of position p of a geometry: x, y, w, h and the three samples of its fill. -/
def positionOf (geom : List Nat) (p : Nat) : List Nat := (geom.drop (2 + 7 * p)).take 7

/-- The colour of a fill position as one number, never 0. -/
def fillCode (g : List Nat) : Nat := 1 + g.getD 4 0 + 1024 * (g.getD 5 0 + 1024 * g.getD 6 0)

/-- The slices of a stitched picture in tile scan order; none while a tile picture is missing. Each header is rewritten and the slice data copied bit
for bit (R258); a fill tile is the stitcher's own (R259). -/
def stitchSlices (s : State) (codec k : Nat) (c : Comp) (boundary : Bool) : Nat → List (Option (Nat × Nat)) → Option (List (List Byte))
  | _, [] => some []
  | p, x :: r =>
    let g := positionOf c.geom p
    let set := [codec, p, k % 65536] ++ c.geom.take 2 ++ g
    let mine : Option (List Byte) := match x with
      | some (t, m) => if tileLive s t m then (sliceFor s k t m).map fun (b, _) =>
            let n := Config.sliceHeadLen b
            Config.stitchHeader set (b.take n) ++ b.drop n
          else some (Config.fillSlice (set ++ [b2n (boundary || decide (c.fills.getD p 0 ≠ fillCode g))]))
      | none => some (Config.fillSlice (set ++ [b2n (boundary || decide (c.fills.getD p 0 ≠ fillCode g))]))
    match mine, stitchSlices s codec k c boundary (p + 1) r with
    | some a, some b => some (a :: b)
    | _, _ => none

/-- The fill colours of a picture's positions. -/
def fillsOf (s : State) (c : Comp) : List Nat :=
  (indexed c.tiles).map fun x => match x.2 with
    | some (t, m) => if tileLive s t m then 0 else fillCode (positionOf c.geom x.1)
    | none => fillCode (positionOf c.geom x.1)

/-- The encode tasks that a stitched picture of tick k waits for. -/
def stitchWaits (s : State) (k : Nat) (c : Comp) : List Nat :=
  c.tiles.filterMap fun x => x.bind fun (t, m) => if tileLive s t m then (sliceFor s k t m).map (·.2) else none

/-- Tick k of a stitched composite, within its temporal ceiling: the task waits for every tile picture of the tick. -/
def stitchPic (i k : Nat) (s : State) : State :=
  match compOf s i with
  | none => s
  | some (o, c, l) =>
    let codec := o.decl.blk 0 1
    let p := clockPeriod s o l
    let boundary := decide (p ≠ 0) && decide (k % p = 0)
    match c.stitcher with
    | none => s
    | some n =>
      if c.path ≠ .stitched ∨ c.ceiling < layerOf (o.decl.blk 2 1) k ∨ ¬ composes s l.conf then s
      else match stitchSlices s codec k c (boundary || c.paramsOwed) 0 c.tiles with
        | none => s
        | some slices =>
          let sets := if c.paramsOwed || boundary then Config.paramSets (setsOf o c l 2 (if boundary then p - 2 ^ (o.decl.blk 2 1 - 1) else 0)) else []
          let head := if codec = 5 then [Config.pictureHead (setsOf o c l 2 (k % 65536))] else []
          let (task, s) := produceFor (objRef 3 o.leg) .stitch (Fin.ofNat 8 n) 20 false (stitchWaits s k c) (tickJob l.rate k (.stitch i)) s
          sendUnits i l.rate k false (sets ++ head ++ slices) task (updComp i (fun c => { c with paramsOwed := false, fills := fillsOf s c }) s)

/-! ### PICTURE_TICK (R230, R243, R261) -/

/-- The free bridges of a stitch clock, by rising tile set and bridge number. -/
def freeBridges (s : State) (conf codec : Nat) : List (Nat × Nat × Bridge × TileSet) :=
  (tilesetsOf s conf codec).flatMap fun x => ((indexed x.2.bridges).filter fun b => b.2.holder.isNone).map fun b => (x.1, b.1, b.2, x.2)

/-- The canvas of a composite. -/
def canvasOf (s : State) (i : Nat) : Nat × Nat := ((compOf s i).map fun x => (x.2.2.w, x.2.2.h)).getD (0, 0)

/-- A composite takes the assignment and the geometry of now (R259, R263). -/
def takeGeom (i : Nat) (o : OutStream) (l : Layout) (s : State) : State :=
  updComp i (fun c => { c with tiles := tileAssign s l.conf o.leg o.decl l, geom := geomOf l }) s

/-- Give one free bridge to the oldest waiting request whose canvas it fits; the cut that it serves applies from then on (R261, R263). -/
def giveBridge (conf codec t n : Nat) (b : Bridge) (ts : TileSet) (s : State) : State :=
  match (s.obj.confs.at? conf).bind fun c => c.bridgeWait.find? fun r =>
      decide (r.codec = codec) && decide ((canvasOf s r.stream).1 ≤ ts.bridgeW) && decide ((canvasOf s r.stream).2 ≤ ts.bridgeH) with
  | none => s
  | some r =>
    let s := updTileset t (fun x => { x with bridges := modAt x.bridges n fun b => { b with holder := some r.stream } }) s
    let s := updEnc b.ctx (fun e => { e with debt := 0, lastKey := none, lastPic := none, token := 0 }) s
    let s := updConf conf (fun c => { c with bridgeWait := c.bridgeWait.filter fun q => decide (q.stream ≠ r.stream) }) s
    let s := updComp r.stream (fun c => { c with bridge := some (t, n), path := .bridged }) s
    match compOf s r.stream with
    | some (o, _, l) => takeGeom r.stream o l s
    | none => s

/-- A stitched composite at a tick: a changed rank of the excluded leg is a cut (R263). -/
def checkCut (i : Nat) (s : State) : State :=
  match compOf s i with
  | none => s
  | some (o, c, l) =>
    if c.stitcher.isNone then s
    else
      if c.path ≠ .bridged ∧ (isCut c.tiles (tileAssign s l.conf o.leg o.decl l) ∨ gridOf c.geom ≠ gridOf (geomOf l)) then askBridge i s
      else takeGeom i o l s

/-- The stitch clock of a codec in a conference at one of its ticks: cuts, bridges, and the requests that still wait. -/
def tickClock (conf codec : Nat) (s : State) : State :=
  let mine := (s.obj.outs.live.filter fun kv => kv.2.comp.isSome && decide (kv.2.decl.blk 0 1 = codec) &&
    decide (((s.obj.legs.at? kv.2.leg).map (·.conf)) = some conf)).map (·.1)
  let s := mine.foldl (fun s i => checkCut i s) s
  let s := (freeBridges s conf codec).foldl (fun s (b : Nat × Nat × Bridge × TileSet) => giveBridge conf codec b.1 b.2.1 b.2.2.1 b.2.2.2 s) s
  (((s.obj.confs.at? conf).map (·.bridgeWait)).getD []).foldl (fun s r =>
    if r.codec = codec then countObj 0x0502 (outHandle s r.stream) 11 1 s else s) s

/-- A composite homed on a stitcher that fell out moves at the next tick: to another stitcher with room, else to its own encode, else nothing is sent
and counted (Table 16-11). -/
def rehome (i : Nat) (s : State) : State :=
  match (s.obj.outs.at? i).bind fun o => o.comp.map fun c => (o, c) with
  | none => s
  | some (o, c) =>
    match c.stitcher, (liveIndex s tyLayout o.decl.layout).bind s.obj.layouts.at? with
    | some n, some l =>
      if ¬ stitcherQuar s n then s
      else match homeFor (stitchLoad s) 40000 l.rate with
        | some n => updComp i (fun c => { c with stitcher := some n.val }) s
        | none =>
          let s := leaveStitch i s
          if privSuits s c o.decl l then freshPriv c s
          else match addPriv i o l (dropPriv i s) with
          | .ok t => t
          | .error _ => countObj 0x0502 (outHandle s i) 13 1 s
    | _, _ => s

/-- The composites whose layout runs at a rate, in stream order. -/
def compsAt (s : State) (rate : Nat) : List Nat :=
  (s.obj.outs.live.filter fun kv => ((compOf s kv.1).map fun x => decide (x.2.2.rate = rate)).getD false).map (·.1)

/-- Picture tick k of rate F: logged; flips, stitch clocks and bridges, then the tasks of the tick: layout pictures, tile scalings, encodes and stitched
pictures, each kind in index order (R230, R243, R261, R384). -/
def pictureTick (rate k : Nat) (s : State) : State :=
  let s := { s with media := { s.media with pics := tput s.media.pics rate k } }
  let s := logInput (.tick 2 rate k) s
  let s := (s.obj.layouts.live.filter fun kv => decide (kv.2.rate = rate)).foldl (fun s (kv : Nat × Layout) => dueTimeouts kv.1 s) s
  let s := (s.obj.layouts.live.filter fun kv => decide (kv.2.rate = rate)).foldl (fun s (kv : Nat × Layout) => tickFlips kv.1 s) s
  let s := (compsAt s rate).foldl (fun s i => rejoin i k (rehome i s)) s
  let s := s.obj.confs.live.foldl (fun s (kv : Nat × Conf) => [3, 5].foldl (fun s codec =>
    match tilesetsOf s kv.1 codec with
    | (_, t) :: _ => if t.rate = rate then tickClock kv.1 codec s else s
    | [] => s) s) s
  let s := (s.obj.layouts.live.filter fun kv => decide (kv.2.rate = rate)).foldl (fun s (kv : Nat × Layout) => layoutPic kv.1 k s) s
  let s := (s.obj.tilesets.live.filter fun kv => decide (kv.2.rate = rate)).foldl (fun s (kv : Nat × TileSet) =>
    (List.range kv.2.members.length).foldl (fun s j => scaleTile kv.1 j k s) s) s
  let s := (s.obj.encs.live.filter fun kv => decide (kv.2.f = rate)).foldl (fun s (kv : Nat × EncCtx) => encodePic kv.1 k s) s
  (compsAt s rate).foldl (fun s i => stitchPic i k s) s

/-- A picture clock is in use: a layout, a composite's layout or a tile set runs on it (R243). -/
def clockUsed (s : State) (rate : Nat) : Bool :=
  (s.obj.layouts.live.any fun kv => decide (kv.2.rate = rate)) || (s.obj.tilesets.live.any fun kv => decide (kv.2.rate = rate))

/-- PICTURE_TICK; a device that follows a log takes its ticks from the log (R15, R427). A clock that nothing uses has no tick (R243). -/
def execPictureTick (rate k : Nat) (s : State) : Host.Outcome State Fault Refusal :=
  done s (if ¬ drivesPorts s ∨ logBusy s ∨ rate = 0 ∨ 60 < rate ∨ ¬ clockUsed s rate then s else atPosition (pictureTime rate k) (pictureTick rate k) s)

end Sys2Proof.Machine
end

