-- ==== Sys2Proof/Machine/Sound.lean ====
section
/-! DEFINITION. Audio arithmetic: samples, gains and narrowing, the fixed tables and the functions on them, G.711, RTP audio payloads, rate
conversion and biquads (R271-R275, R284). -/

namespace Sys2Proof.Machine

/-! ### Samples and gains (R271, R272) -/

/-- Half of the last retained bit's weight is added, then an arithmetic shift right; no shift narrows nothing. -/
def rshR (x : Int) (n : Nat) : Int := if n = 0 then x else (x + (2 ^ (n - 1) : Nat)) / (2 ^ n : Nat)

/-- Saturation to 32 bits. -/
def sat32 (x : Int) : Int := satTo 32 x

/-- Unity gain, Q4.28. -/
def unity : Int := 0x10000000

/-- The narrowing of a weighted sum (R272). -/
def narrow28 (x : Int) : Int := sat32 (rshR x 28)

/-- The narrowing of a filter sum in Q2.30. -/
def narrow30 (x : Int) : Int := sat32 (rshR x 30)

/-- One sample with one gain (R272). -/
def gained (g x : Int) : Int := narrow28 (g * x)

/-- A sample by position in a list; zero outside it. -/
def at0 (l : List Int) (i : Nat) : Int := l.getD i 0

/-- The sample at position p of a list whose samples start at `base`. -/
def atPos (l : List Int) (base p : Int) : Int := if p < base then 0 else at0 l (p - base).toNat

/-- n zeros. -/
def silence (n : Nat) : List Int := List.replicate n 0

/-- A list cut or filled with zeros to n samples. -/
def toLen (n : Nat) (l : List Int) : List Int := (List.range n).map (at0 l)

/-- The last n samples, zeros before the first. -/
def lastZ (n : Nat) (l : List Int) : List Int := if l.length < n then silence (n - l.length) ++ l else l.drop (l.length - n)

/-! ### Fixed tables (R275) -/

/-- A word of a fixed table as a signed number. -/
def tab (t i : Nat) : Int := (Config.fixedTable t i).toInt

/-- Words of each fixed table (Table 10-2). -/
def tableWords : List Nat := [54, 49, 51, 49, 240, 32, 4096, 10, 1025, 1025, 4097, 20000, 262144, 901]

/-- 10 log10 2 and 20 log10 2 in 2^-24 dB (R275). -/
def dbD : Int := 50504453
def dbE : Int := 101008906

/-- One dB, and a value in tenths of a dB rounded half up, in 2^-24 dB (DEDUCED, log entry 53). -/
def tenths (x : Int) : Int := divRound (x * 16777216) 10

/-- Linear interpolation in a table with a 16-bit fraction. -/
def interp (t i f : Nat) : Int := tab t i + ((tab t (i + 1) - tab t i) * f + 32768) / 65536

/-- lg(v) = 10 log10 v for v > 0, in 2^-24 dB (R275). -/
def lg (v : Nat) : Int :=
  let e := log2Below 63 v
  let u := v * 2 ^ (63 - e) % 2 ^ 63
  e * dbD + interp 8 (u / 2 ^ 53) (u / 2 ^ 37 % 65536)

/-- The Q4.28 gain of an amplitude level in 2^-24 dB (R275). -/
def db2g (g : Int) : Int :=
  let q := g / dbE
  let r := (g - q * dbE).toNat
  let e := dbE.toNat
  let m := interp 9 (r * 1024 / e) (r * 1024 % e * 65536 / e)
  sat32 (if 2 ≤ q then m * 2 ^ (q - 2).toNat else rshR m (2 - q).toNat)

/-! ### Crossfades and ramps (R290, R294, R301) -/

/-- Weight of the leaving term of a crossfade at sample k, and of the entering one: Q1.31 narrowed to Q4.28 (DEDUCED, log entry 36). -/
def fadeOut (k : Nat) : Int := if k < 240 then rshR (tab 4 k) 3 else 0
def fadeIn (k : Nat) : Int := if k < 240 then rshR (tab 4 (239 - k)) 3 else unity

/-- r(k) of the fixed multiplexer graph (R294), and the ramp of a tone's edge (R301). -/
def ramp96 (k : Nat) : Int := k * 0x10000000 / 96
def ramp48 (k : Nat) : Int := k * 0x10000000 / 48

/-! ### G.711 (R273; the companding laws are PRESUMED from ITU-T G.711, log entry 19) -/

/-- µ-law expansion to 14 bits. -/
def ulawExpand (b : Nat) : Int :=
  let x := 255 - b % 256
  let m := ((x % 16 * 2 + 33) * 2 ^ (x / 16 % 8) : Nat) - (33 : Int)
  if 128 ≤ x then -m else m

/-- A-law expansion to 13 bits. -/
def alawExpand (b : Nat) : Int :=
  let x := (b % 256) ^^^ 0x55
  let e := x / 16 % 8
  let m : Nat := if e = 0 then x % 16 * 2 + 1 else (x % 16 * 2 + 33) * 2 ^ (e - 1)
  if 128 ≤ x then m else -m

/-- The magnitude of a 16-bit sample without its low n bits, a negative one's by its complement. -/
def magBits (x : Int) (n : Nat) : Nat := (if x < 0 then -x - 1 else x).toNat / 2 ^ n

/-- µ-law compression of a 16-bit sample. -/
def ulaw (x : Int) : Nat :=
  let m := let y := magBits x 2 + 33; if 8191 < y then 8191 else y
  let seg := log2Below 12 m - 5
  255 - (b2n (decide (x < 0)) * 128 + seg * 16 + m / 2 ^ (seg + 1) % 16)

/-- A-law compression of a 16-bit sample. -/
def alaw (x : Int) : Nat :=
  let m := magBits x 4
  let seg := if m < 16 then 0 else log2Below 10 m - 3
  let low := if m < 16 then m else m / 2 ^ (seg - 1) - 16
  (seg * 16 + low + b2n (decide (0 ≤ x)) * 128) ^^^ 0x55

/-! ### Codecs (R273, Table 10-1) -/

/-- Positions at 48 kHz between two samples of a codec. -/
def codecStep (codec : Nat) : Nat := if codec = 2 ∨ codec = 3 then 6 else if codec = 4 then 3 else 1

/-- RTP clock rate (R277). -/
def rtpClock (codec : Nat) : Nat := if codec = 1 ∨ codec = 5 then 48000 else 8000

/-- Positions that a frame of Table 10-3 covers, and its ms rounded up. -/
def frameLen (code : Nat) : Nat := [120, 240, 480, 960].getD code 960
def frameMs (code : Nat) : Nat := [3, 5, 10, 20].getD code 20

/-- Positions that an Opus packet covers, by its first bytes (RFC 6716, PRESUMED, log entry 19). -/
def opusLen (p : List Byte) : Nat :=
  let toc := beAt p 0 1
  let k := toc / 8
  let one := if k < 12 then [480, 960, 1920, 2880].getD (k % 4) 0 else if k < 16 then [480, 960].getD (k % 2) 0 else [120, 240, 480, 960].getD (k % 4) 0
  let n := match toc % 4 with
    | 0 => 1
    | 3 => beAt p 1 1 % 64
    | _ => 2
  if p.isEmpty then 0 else one * n

/-- Positions that a payload covers. -/
def payloadSpan (codec : Nat) (p : List Byte) : Nat :=
  match codec with
  | 1 => opusLen p
  | 4 => p.length * 6
  | 5 => p.length / 2
  | _ => p.length * 6

/-- Internal samples of a decoder result: 16-bit linear, or 17 bits of L + R for a stereo Opus stream (Table 10-1). -/
def tokenSamples (stereo : Bool) (token n : Nat) : List Int :=
  (List.range n).map fun i => if stereo then (Config.audioSample token i).toInt * 32768 else sext 16 (Config.audioSample token i).toNat * 65536

/-- The codec and its channels as one number. -/
def codecKey (codec channels : Nat) : Nat := codec + 8 * channels

/-- Decode a payload: the decoder's new state and the samples at the codec's rate. -/
def decodeFrame (codec channels dec : Nat) (p : List Byte) : Nat × List Int :=
  match codec with
  | 2 => (0, p.map fun b => ulawExpand b.toNat * 4 * 65536)
  | 3 => (0, p.map fun b => alawExpand b.toNat * 8 * 65536)
  | 5 => (0, (List.range (p.length / 2)).map fun i => sext 16 (beAt p (2 * i) 2) * 65536)
  | _ =>
    let t := Config.decodeAudio (codecKey codec channels) dec p
    (t, tokenSamples (decide (codec = 1) && decide (channels = 2)) t (payloadSpan codec p / codecStep codec))

/-- Conceal n missing samples: zeros for L16, else by the codec's method (R278). -/
def concealFrame (codec channels dec n : Nat) (next : List Byte) : Nat × List Int :=
  if codec = 5 then (dec, silence n)
  else
    let t := Config.concealAudio (codecKey codec channels) dec next
    (t, tokenSamples (decide (codec = 1) && decide (channels = 2)) t n)

/-- A 16-bit linear sample of an internal one (Table 10-1). -/
def linear16 (x : Int) : Int := satTo 16 (rshR x 16)

/-- Encode a frame of linear samples, by channel: the encoder's new state and the payload. -/
def encodeFrame (codec bitrate flags enc : Nat) (chans : List (List Int)) : Nat × List Byte :=
  let mono := chans.headD []
  match codec with
  | 2 => (0, mono.map fun x => BitVec.ofNat 8 (ulaw x))
  | 3 => (0, mono.map fun x => BitVec.ofNat 8 (alaw x))
  | 5 => (0, mono.flatMap fun x => beBytes 2 (wrapInt 16 x))
  | _ =>
    let t := Config.encodeAudio [codecKey codec chans.length, bitrate, flags] enc ((List.range mono.length).flatMap fun i => chans.map fun c => at0 c i)
    (t, (List.range (Config.audioSize t)).map (Config.audioByte t))

/-! ### Rate conversion (R274) -/

/-- Upsample samples of a codec by M = 6 or 3: `h` holds the samples before them, newest last; each input gives M outputs, one of each phase. -/
def upsample (m : Nat) (h xs : List Int) : List Int :=
  let table := if m = 6 then 0 else 2
  let taps := if m = 6 then 9 else 17
  let all := lastZ (taps - 1) h ++ xs
  (List.range xs.length).flatMap fun i => (List.range m).map fun ph =>
    narrow28 (totalI ((List.range taps).map fun t => tab table (ph * taps + t) * at0 all (i + taps - 1 - t)))

/-- Downsample 48 kHz samples by M: `h` holds the 48 samples before them; every M-th output is kept, from the first. -/
def downsample (m : Nat) (h xs : List Int) : List Int :=
  let table := if m = 6 then 1 else 3
  let all := lastZ 48 h ++ xs
  (List.range (xs.length / m)).map fun i =>
    narrow30 (totalI ((List.range 49).map fun t => tab table t * at0 all (m * i + 48 - t)))

/-- Samples of a codec at 48 kHz. -/
def toRate48 (codec : Nat) (h xs : List Int) : List Int := if codecStep codec = 1 then xs else upsample (codecStep codec) h xs

/-- Samples of 48 kHz at the rate of a codec. -/
def toSink (codec : Nat) (h xs : List Int) : List Int := if codecStep codec = 1 then xs else downsample (codecStep codec) h xs

/-! ### Biquads and K-weighting (R284, Table 10-7) -/

/-- One step of a biquad in direct form I: coefficients b0, b1, b2, a1, a2, state x1, x2, y1, y2. -/
def biquad (k : List Int) (z : List Int) (x : Int) : Int × List Int :=
  let y := narrow30 (at0 k 0 * x + at0 k 1 * at0 z 0 + at0 k 2 * at0 z 1 - at0 k 3 * at0 z 2 - at0 k 4 * at0 z 3)
  (y, [x, at0 z 0, y, at0 z 2])

/-- A biquad over samples. -/
def biquads (k : List Int) : List Int → List Int → List Int × List Int
  | z, [] => ([], z)
  | z, x :: r =>
    let (y, z) := biquad k z x
    let (ys, z) := biquads k z r
    (y :: ys, z)

/-- The coefficients of a K-weighting biquad (table 7). -/
def kWeight (b : Nat) : List Int := (List.range 5).map fun i => tab 7 (5 * b + i)

/-- e_b of a block, and the filter's state after it (R284). -/
def blockEnergy (z xs : List Int) : Nat × List Int :=
  let (u, z0) := biquads (kWeight 0) (toLen 4 z) xs
  let (v, z1) := biquads (kWeight 1) (toLen 4 (z.drop 4)) u
  (total (v.map fun y => (y / 4096).natAbs ^ 2) % 2 ^ 64, z0 ++ z1)

/-- M and S: the sums of the last 400 and 3,000 energies (R284). -/
def AudioIn.momentary (a : AudioIn) : Nat := total (a.energies.take 400)
def AudioIn.shortTerm (a : AudioIn) : Nat := total (a.energies.take 3000)

/-- M of a stream at or above about −45 LUFS is active (R284). -/
def loudEnough (m : Nat) : Bool := decide (195669000000 ≤ m)
def AudioIn.active (a : AudioIn) : Bool := loudEnough a.momentary

end Sys2Proof.Machine
end

