-- ==== Sys2Proof/Machine/Playout.lean ====
section
/-! DEFINITION. Inbound audio: placing packets, playout, concealment, conversion to 48 kHz, voice isolation, talker measurement and loudness
(R277, R278, R283-R285, Table 10-4 stages 1-4). -/

namespace Sys2Proof.Machine

/-! ### The audio block (Table 10-3) -/

def StreamRec.codec (d : StreamRec) : Nat := d.blk 0 1
def StreamRec.channels (d : StreamRec) : Nat := d.blk 1 1
def StreamRec.frameCode (d : StreamRec) : Nat := d.blk 2 1
def StreamRec.direct (d : StreamRec) : Bool := bit (d.blk 3 1) 0
def StreamRec.loud (d : StreamRec) : Bool := bit (d.blk 3 1) 1
def StreamRec.jmin (d : StreamRec) : Nat := d.blk 8 2
def StreamRec.jmax (d : StreamRec) : Nat := d.blk 10 2
def StreamRec.target (d : StreamRec) : Int := -tenths (d.blk 12 2)

/-! ### Where a packet is placed (R277) -/

/-- The 32-bit timestamp extended by wrap counting, nearest to the newest one. -/
def extendTs (last ts : Nat) : Nat :=
  let d := (ts + 2 ^ 32 - last % 2 ^ 32) % 2 ^ 32
  if d < 2 ^ 31 then last + d else last + d - 2 ^ 32

/-- The input block that a conference processes next: the block of the present millisecond, unless it has been processed already. -/
def nextBlock (s : State) (conf : Nat) : Nat :=
  match s.obj.confs.at? conf with
  | some k => if k.block < s.media.tick then s.media.tick else k.block
  | none => s.media.tick

/-- The RFC 3550 interarrival jitter with one more packet, in 48 kHz units and its integer form (R277). -/
def AudioIn.jitter (a : AudioIn) (transit : Int) : AudioIn :=
  match a.transit with
  | none => { a with transit := some transit }
  | some t => { a with transit := some transit, jitter16 := a.jitter16 + (transit - t).natAbs - (a.jitter16 + 8) / 16 }

/-- The stream's first packet fixes ts0 and P0 (R277). -/
def AudioIn.begin (a : AudioIn) (d : StreamRec) (ts arrival : Nat) : AudioIn :=
  if a.started then a
  else
    let e := ts + 2 ^ 32
    let depth := if a.depth = 0 then d.jmin else a.depth
    { a with started := true, ts0 := e, tsLast := e, depth := depth, p0 := 48 * (ceilDiv arrival 1000000 + depth), newest := 0 }

/-- Insert a packet by its position. -/
def insertAudio (p : AudioPkt) : List AudioPkt → List AudioPkt
  | [] => [p]
  | q :: r => if p.pos ≤ q.pos then p :: q :: r else q :: insertAudio p r

/-- The packet does not fit a Direct contribution: Opus of another duration than 2.5 ms (R281). -/
def oddPacket (codec len : Nat) : Bool := decide (codec = 1) && decide (len ≠ 120)

/-- Place an authenticated audio packet: late and duplicate packets are discarded (R277). -/
def takeAudio (i arrival : Nat) (rtp : List Byte) (s : State) : State :=
  match s.obj.ins.at? i with
  | none => s
  | some x => match x.audio with
    | none => s
    | some a =>
      let d := x.decl
      let conf := ((s.obj.legs.at? x.owner).map (·.conf)).getD 0
      let a := a.begin d (beAt rtp 4 4) arrival
      let ext := extendTs a.tsLast (beAt rtp 4 4)
      let rate := 48000 / rtpClock d.codec
      let a := { a.jitter ((arrival * 48 / 1000000 : Nat) - (ext * rate : Nat)) with tsLast := if a.tsLast < ext then ext else a.tsLast }
      let pos := a.p0 + ((ext : Int) - a.ts0) * rate
      let data := rtpData rtp
      let len := payloadSpan d.codec data
      let late := decide (pos < 48 * (nextBlock s conf : Int))
      let twice := a.pkts.any fun p => decide (p.pos = pos)
      let keep := { a with
        pkts := insertAudio { pos := pos, len := len, data := data, samples := none } a.pkts
        newest := if a.newest < pos + len - 1 then pos + len - 1 else a.newest
        odd := if oddPacket d.codec len then (pos, len) :: a.odd else a.odd }
      let s := updIn i (fun x => { x with audio := some (if late || twice then a else keep) }) s
      if late then countObj 0x0701 (handleOf s tyIn i) 1 1 (count1 (accCtr (Config.audioCluster (2 * i)).toNat 0x30) s) else s

/-! ### Playout and concealment (R278) -/

/-- A stretch of playout: the stream, the packets decoded in it, and whether samples were concealed. -/
structure Played where
  audio : AudioIn
  decoded : Nat
  concealed : Bool
  deriving DecidableEq, Repr

/-- Decode a packet where that has not been done. -/
def AudioIn.decode (a : AudioIn) (d : StreamRec) (p : AudioPkt) : AudioIn × List Int × Nat :=
  match p.samples with
  | some xs => (a, xs, 0)
  | none =>
    let (t, xs) := decodeFrame d.codec d.channels a.dec p.data
    ({ a with dec := t, pkts := a.pkts.map fun q => if q = p then { q with samples := some xs } else q }, xs, 1)

/-- The position lies in the block of silence that a depth move inserted. -/
def AudioIn.inGap (a : AudioIn) (p : Int) : Bool :=
  match a.gap with
  | some b => decide (48 * (b : Int) ≤ p) && decide (p < 48 * (b : Int) + 48)
  | none => false

/-- Play from position p to `upto`, a multiple of 24: packets where they are, else concealment, or zeros while silent. -/
def playFrom (d : StreamRec) (upto : Int) : Nat → Int → Played → Played
  | 0, _, r => r
  | fuel + 1, p, r =>
    if upto ≤ p then r
    else
      let step := codecStep d.codec
      let a := r.audio
      let here := if a.inGap p then none else a.pkts.find? fun q => decide (q.pos ≤ p) && decide (p < q.pos + q.len)
      match here with
      | some q =>
        let (a, xs, k) := a.decode d q
        let stop := if q.pos + q.len < upto then q.pos + q.len else upto
        let n := ((stop - p + step - 1) / step).toNat
        let off := ((p - q.pos) / step).toNat
        let part := (List.range n).map fun i => at0 xs (off + i)
        playFrom d upto fuel (p + n * step) { r with
          audio := { a with raw := a.raw ++ part, rawEnd := p + n * step, silent := false, lastPlayed := (p / 48).toNat }
          decoded := r.decoded + k }
      | none =>
        let next := a.pkts.find? fun q => decide (p < q.pos)
        let stop := match next with
          | some q => if q.pos < upto then q.pos else upto
          | none => upto
        let n := if a.inGap p then ((upto - p) / step).toNat else ((stop - p + step - 1) / step).toNat
        if a.silent ∨ ¬ a.started ∨ a.inGap p then
          playFrom d upto fuel (p + n * step) { r with audio := { a with raw := a.raw ++ silence n, rawEnd := p + n * step } }
        else
          let (t, xs) := concealFrame d.codec d.channels a.dec n ((next.map (·.data)).getD [])
          playFrom d upto fuel (p + n * step) { r with
            audio := { a with dec := t, raw := a.raw ++ xs, rawEnd := p + n * step }, concealed := true }

/-- The codec's samples up to a position; a stream that has played nothing begins at the present block. -/
def AudioIn.play (a : AudioIn) (d : StreamRec) (from_ upto : Int) : Played :=
  let a := if a.rawEnd < from_ then { a with raw := [], rawEnd := from_ } else a
  playFrom d upto ((upto - a.rawEnd).toNat + 1) a.rawEnd { audio := a, decoded := 0, concealed := false }

/-- Codec samples of the n positions from p. -/
def AudioIn.rawAt (a : AudioIn) (codec : Nat) (p : Int) (n : Nat) : List Int :=
  let step := codecStep codec
  let base := a.rawEnd - a.raw.length * step
  (List.range (n / step)).map fun (i : Nat) => if p + i * step < base then 0 else at0 a.raw ((p + i * step - base) / step).toNat

/-- Codec samples before position p, for the filters. -/
def AudioIn.rawBefore (a : AudioIn) (codec : Nat) (p : Int) : List Int := a.rawAt codec (p - 16 * codecStep codec) (16 * codecStep codec)

/-- Packets and samples that lie wholly before position p and have no more use. -/
def AudioIn.prune (a : AudioIn) (p : Int) : AudioIn :=
  { a with pkts := a.pkts.filter fun q => decide (p < q.pos + q.len)
           odd := a.odd.filter fun q => decide (p - 96 < q.1 + q.2)
           raw := lastN 160 a.raw
           gap := a.gap.filter fun b => decide (p ≤ 48 * (b : Int)) }

/-! ### Playout depth (R277) -/

/-- The target depth J*. -/
def AudioIn.wantDepth (a : AudioIn) (d : StreamRec) : Nat := clampN d.jmin d.jmax (frameMs d.frameCode + ceilDiv (2 * (a.jitter16 / 16)) 48)

/-- J moves by 1 ms at block n, the next to be processed: P0 shifts by 48, and a block of silence is inserted or a block is dropped. -/
def AudioIn.move (a : AudioIn) (n : Nat) (up : Bool) : AudioIn :=
  let at_ : Int := 48 * n
  let k : Int := if up then 48 else -48
  let edge := if up then at_ else at_ + 48
  { a with
    depth := if up then a.depth + 1 else a.depth - 1
    p0 := a.p0 + k
    newest := a.newest + k
    pkts := (a.pkts.filter fun q => decide (edge < q.pos + q.len)).map fun q => { q with pos := q.pos + k }
    odd := a.odd.map fun q => if at_ ≤ q.1 then (q.1 + k, q.2) else q
    gap := if up then some n else a.gap }

def updAudio (i : Nat) (f : AudioIn → AudioIn) (s : State) : State :=
  if i < 131072 then updIn i (fun x => { x with audio := x.audio.map f }) s
  else { s with media := { s.media with gone := s.media.gone.map fun (g : GoneIn) =>
    if g.id = i then { g with stream := { g.stream with audio := g.stream.audio.map f } } else g } }

/-- Count with an audio source; a freed one has no counters. -/
def countSound (i idx n : Nat) (s : State) : State := if i < 131072 then countObj 0x0701 (handleOf s tyIn i) idx n s else s

/-- Count a concealed block, once, with the source and its cluster (R278, Table 10-15). -/
def countConcealed (i n : Nat) (s : State) : State :=
  if ((soundAt s i).bind (·.audio)).any fun a => decide (a.concealed = some n) then s
  else countSound i 2 1 (count1 (accCtr (Config.audioCluster (2 * (i % 131072))).toNat 0x34) (updAudio i (fun a => { a with concealed := some n }) s))

/-- The stream is in its conference's talker ranking. -/
def isRanked (s : State) (conf i : Nat) : Bool :=
  ((s.obj.confs.at? conf).map fun k => k.ranking.any fun r => r.leg.isSome && decide (r.stream = i)).getD false

/-- PLAYOUT_DEPTH_MOVE at tick n, once: a stream outside the ranking and inactive moves 1 ms toward J*. -/
def moveDepth (i n : Nat) (s : State) : State :=
  match s.obj.ins.at? i with
  | none => s
  | some x => match x.audio with
    | none => s
    | some a =>
      let conf := (confOfIn s x).getD 0
      let want := a.wantDepth x.decl
      if n % 100 ≠ 0 ∨ a.movedAt = some n ∨ ¬ a.started ∨ a.active ∨ isRanked s conf i ∨ a.depth = want then s
      else updAudio i (fun a => { a.move (nextBlock s conf) (decide (a.depth < want)) with movedAt := some n }) s

/-- A buffer that runs too far ahead of the block just processed lowers J although the stream is active, counted as forced. -/
def forceDepth (i n : Nat) (d : StreamRec) (s : State) : State :=
  match (soundAt s i).bind (·.audio) with
  | none => s
  | some a =>
    if a.started ∧ 48 * ((d.jmax + 20 : Nat) : Int) < a.newest - 48 * (n : Int) ∧ 0 < a.depth then
      countSound i 3 1 (updAudio i (fun a => a.move (n + 1) false) s)
    else s

/-! ### Silence (R278) and loudness (R285) -/

/-- AUDIO_SILENCE_RESET: 60 ms without a packet have passed at the present block, so the stream outputs zeros and its decoder is reset. -/
def silenceStream (i : Nat) (s : State) : State :=
  match s.obj.ins.at? i with
  | none => s
  | some x => match x.audio with
    | none => s
    | some a =>
      if a.started ∧ ¬ a.silent ∧ a.lastPlayed + 60 < nextBlock s ((confOfIn s x).getD 0) then updAudio i (fun a => { a with silent := true, dec := 0 }) s else s

/-- LOUDNESS_UPDATE at tick n, once: the gain of an active stream with LOUD moves toward its target by at most 0.3 dB. -/
def updateLoudness (i n : Nat) (s : State) : State :=
  match s.obj.ins.at? i with
  | none => s
  | some x => match x.audio with
    | none => s
    | some a =>
      if n % 100 ≠ 0 ∨ a.loudAt = some n ∨ ¬ x.decl.loud ∨ ¬ a.active then s
      else
        let want := clampI (-tenths 120) (tenths 120) (x.decl.target - (lg a.shortTerm - 2796191482))
        updAudio i (fun a => { a with gain := a.gain + clampI (-tenths 3) (tenths 3) (want - a.gain), loudAt := some n }) s

/-! ### Crossfade units (R290) -/

/-- Units in use at block n. -/
def fadesInUse (s : State) (n : Nat) : Nat := total ((s.media.fades.filter fun f => decide (n < f.1 + 5)).map (·.2))

/-- Ask for a unit at block n for a change: granted when one is free for it after the changes that waited before it; else it waits. -/
def askFade (key : Nat × Nat × Nat) (n : Nat) (s : State) : Bool × State :=
  let m := s.media
  let ahead := (m.fadeWait.findIdx? fun k => decide (k = key)).getD m.fadeWait.length
  if fadesInUse s n + ahead < 4096 then
    (true, { s with media := { m with fades := (n, 1) :: m.fades.filter (fun f => decide (n < f.1 + 5))
                                      fadeWait := m.fadeWait.filter fun k => !(decide (k = key)) } })
  else (false, if m.fadeWait.any (fun k => decide (k = key)) then s else { s with media := { m with fadeWait := m.fadeWait ++ [key] } })

/-- A change that no longer waits. -/
def dropWaits (p : Nat × Nat × Nat → Bool) (s : State) : State :=
  { s with media := { s.media with fadeWait := s.media.fadeWait.filter fun k => !p k } }

/-! ### Stages 1 to 4 (Table 10-4) -/

/-- Isolation takes effect at a block of its own, with a crossfade that needs a unit (R283, R290). -/
def switchIsolation (i n : Nat) (s : State) : State :=
  match (soundAt s i).bind (·.audio) with
  | none => s
  | some a =>
    let settled : Bool := match a.isoStart with
      | some b => decide (b + 5 ≤ n)
      | none => true
    if a.isolated = a.isoOn ∨ n < a.isoFrom ∨ ¬ settled then s
    else
      let (ok, s) := askFade (1, i, 0) n s
      if ok then updAudio i (fun a => { a with isoOn := a.isolated, isoStart := some n }) s else s

/-- Stage 3: the processed signal, the unprocessed one, or the crossfade between them. -/
def isolateBlock (n : Nat) (a : AudioIn) (xs : List Int) : List Int × AudioIn :=
  let fading : Bool := match a.isoStart with
    | some b => decide (n < b + 5)
    | none => false
  if ¬ a.isoOn ∧ ¬ fading then (xs, { a with iso := 0 })
  else
    let t := Config.isolateToken a.iso xs
    let ys := (List.range 48).map fun i => (Config.isolatedSample t i).toInt
    let b := a.isoStart.getD 0
    let a := { a with iso := t }
    if ¬ fading then (ys, a)
    else
      let (new, old) := if a.isoOn then (ys, xs) else (xs, ys)
      ((List.range 48).map fun i => narrow28 (fadeIn (48 * (n - b) + i) * at0 new i + fadeOut (48 * (n - b) + i) * at0 old i), a)

/-- Stages 1 to 4 of block n of an inbound stream; the fixed graph ignores LOUD (R294). -/
def stages14 (i n : Nat) (fixed : Bool) (s : State) : List Int × State :=
  let s := switchIsolation i n s
  match soundAt s i with
  | none => (silence 48, s)
  | some x => match x.audio with
    | none => (silence 48, s)
    | some a =>
      let d := x.decl
      let p : Int := 48 * n
      let r := a.play d p (p + 48)
      let a := r.audio
      let xs := toRate48 d.codec (a.rawBefore d.codec p) (a.rawAt d.codec p 48)
      let (ys, a) := isolateBlock n a xs
      let (e, z) := blockEnergy a.filter ys
      let a := { a.prune (p + 48) with filter := z, energies := e :: a.energies.take 2999 }
      let s := updAudio i (fun _ => a) s
      let s := countSound i 0 r.decoded s
      let s := if r.concealed then countConcealed i n s else s
      (if d.loud ∧ ¬ fixed then ys.map (gained (db2g a.gain)) else ys, forceDepth i n d s)

/-! ### The event rows -/

def execPlayoutDepthMove (stream n : Nat) (s : State) : Host.Outcome State Fault Refusal :=
  done s (if taskRuns s n then moveDepth stream n s else s)

def execLoudnessUpdate (stream n : Nat) (s : State) : Host.Outcome State Fault Refusal :=
  done s (if taskRuns s n then updateLoudness stream n s else s)

def execAudioSilenceReset (stream : Nat) (s : State) : Host.Outcome State Fault Refusal :=
  done s (if runsTasks s then silenceStream stream s else s)

end Sys2Proof.Machine
end

