-- ==== Sys2Proof/Machine/Nodes.lean ====
section
/-! DEFINITION. The sections of an Accord image run on a block: the node library, custom nodes on the core's own instruction set, state that
persists and edges that a swap crossfades (R295, R296, R328-R334). -/

namespace Sys2Proof.Machine

/-! ### What a section works on -/

/-- The signals that a section reads. -/
structure NodeEnv where
  /-- The image, its section, and the instance: 0 for the conference section, else the stream. -/
  img : List Byte
  sec : Nat
  inst : Nat
  /-- Cycles per block of the section: the budget of its custom nodes (R331). -/
  budget : Nat
  /-- INPUT: the stage-4 signal. -/
  input : List Int
  /-- TALKER: the input chain outputs by rank. -/
  talkers : List (List Int)
  /-- LISTEN: the stage-6 selection by channel. -/
  listen : List (List Int)
  /-- During a swap: samples since it took effect, the edges of the image it left, and that image's node outputs (R296). -/
  swap : Option (Nat × List GEdge × List ((Nat × Nat) × List Int))

/-- A section instance as it runs. -/
structure Chain where
  /-- Outputs by node ID and port. -/
  outs : List ((Nat × Nat) × List Int) := []
  /-- State of the nodes, and the conference's buses. -/
  nodes : Tbl (List Int)
  buses : Tbl (List Int)
  /-- Custom node calls and user instructions of the instance in this block. -/
  calls : Nat := 0
  icount : Nat := 0
  /-- Node ID and cause of a fault (R332). -/
  fault : Option (Nat × Nat) := none

/-- The key of a node's state: instance, type and ID, so that a node of equal ID and type keeps it over a swap (R296). -/
def nodeKey (sec inst : Nat) (n : GNode) : Nat := ((sec * 1048576 + inst) * 256 + n.ty) * 65536 + n.id

/-- An output of a node; zeros before it has run. -/
def outOf (outs : List ((Nat × Nat) × List Int)) (id port : Nat) : List Int :=
  ((outs.find? fun o => decide (o.1 = (id, port))).map (·.2)).getD (silence 48)

/-! ### Edges (R296) -/

/-- The weighted terms of an input port: each edge into it; at a node that mixes, an edge that a swap brings enters with s_k and one that it takes
away leaves with c_k. -/
def portTerms (v : NodeEnv) (es : List GEdge) (outs : List ((Nat × Nat) × List Int)) (n : GNode) (port : Nat) : List ((Nat → Int) × List Int) :=
  let here := es.filter fun e => decide (e.dst = n.id) && decide (e.dport = port)
  let mixes := n.ty == 0x04 || n.ty == 0x0B
  match v.swap with
  | none => here.map fun e => (fun _ => unity, outOf outs e.src e.sport)
  | some (k, old, was) =>
    let now : List ((Nat → Int) × List Int) := here.map fun e =>
      (if mixes && !old.contains e then (fun i => fadeIn (k + i)) else fun _ => unity, outOf outs e.src e.sport)
    let gone := if mixes then old.filter fun e => decide (e.dst = n.id) && decide (e.dport = port) && !es.contains e else []
    now ++ gone.map fun e => (fun i => fadeOut (k + i), outOf was e.src e.sport)

/-- The signal at an input port: one unchanged edge as it is, else the weighted sum (R272). -/
def portIn (v : NodeEnv) (es : List GEdge) (outs : List ((Nat × Nat) × List Int)) (n : GNode) (port : Nat) : List Int :=
  match portTerms v es outs n port with
  | [] => silence 48
  | ts => (List.range 48).map fun i => narrow28 (totalI (ts.map fun t => t.1 i * at0 t.2 i))

/-! ### Custom nodes (R328-R332) -/

/-- Where the model places a call in the scratchpad (DESIGN CHOICE, log entry 34): code, inputs and parameters, outputs and state, and the return
address. -/
def callInputs : Nat := 0x10000
def callOutputs : Nat := 0x20000
def callReturn : Nat := 0x1FFFFC

/-- Run user code until it returns or faults. -/
def runUser : Nat → Core → AccCluster → Core × AccCluster × Option Nat
  | 0, c, m => (c, m, some 11)
  | fuel + 1, c, m =>
    if c.pc.toNat = callReturn ∧ c.branch.isNone then (c, m, none)
    else
      let o := decodeWord (BitVec.ofNat 32 (m.num c.pc.toNat 4))
      match Core.repeated o 0 (c.rep - 1) { c with rep := 0, branch := none } m with
      | (c1, m1, some e) => (c1, m1, some e)
      | (c1, m1, none) => runUser fuel (if c1.branch.isSome then { c1 with pc := c.pc + 4 } else c.advance c1) m1

/-- Samples as little-endian words. -/
def wordsOf (xs : List Int) : List Byte := xs.flatMap fun x => leBytes 4 (wrapInt 32 x)

/-- Words of memory as samples. -/
def samplesAt (m : Memory) (a n : Nat) : List Int := (List.range n).map fun i => sext 32 (leNat (mreadN m (a + 4 * i) 4))

/-- Call a custom node with its inputs and state: outputs, state after the call, instructions counted and the cause of a fault (Table 11-11). -/
def callNode (b : List Byte) (idx : Nat) (n : GNode) (size icount budget : Nat) (ins : List (List Int)) (st : List Int) :
    List (List Int) × List Int × Nat × Option Nat :=
  let (off, len) := Config.nodeCode b idx
  let params := callInputs + 192 * n.ins
  let state := callOutputs + 192 * n.outs
  let m := mwriteN [] 0 (slice b (codeAt b + off) len)
  let m := mwriteN m callInputs (ins.flatMap wordsOf)
  let m := mwriteN m params (slice b (paramsAt b + n.poff) n.plen)
  let m := mwriteN m state (wordsOf (toLen (size / 4) st))
  let w := BitVec.ofNat 32
  let c : Core := { user := true, icount := w icount, ibudget := w budget, codeBase := 0, codeLimit := w len, win0Base := w callInputs,
                    win0Limit := w (params + n.plen), win1Base := w callOutputs, win1Limit := w (state + size) }
  let c := (((((c.setG 1 (w callInputs)).setG 2 (w callOutputs)).setG 3 (w params)).setG 4 (w state)).setG 5 (w n.ins)).setG 31 (w callReturn)
  let (c, m, fault) := runUser (budget + 2) c { scratch := m }
  match fault with
  | some e => (List.replicate n.outs (silence 48), st, c.icount.toNat, some e)
  | none =>
    ((List.range n.outs).map fun k => samplesAt m.scratch (callOutputs + 192 * k) 48, samplesAt m.scratch state (size / 4), c.icount.toNat, none)

/-- Bytes of state of a custom node instance, by section (Table 10-6); the header gives none for the conference section (log entry 34). -/
def stateBytes (b : List Byte) (sec : Nat) : Nat := if sec = 1 then leAt b 40 4 else if sec = 2 then leAt b 44 4 else 16384

/-! ### The node library (Table 10-7) -/

/-- Set the outputs of a node. -/
def Chain.put (r : Chain) (n : GNode) (ys : List (List Int)) : Chain :=
  { r with outs := r.outs ++ (indexed ys).map fun (p, y) => ((n.id, p), y) }

/-- Run one node on the block. -/
def runNode (v : NodeEnv) (es : List GEdge) (idx : Nat) (n : GNode) (r : Chain) : Chain :=
  let b := v.img
  let key := nodeKey v.sec v.inst n
  let st := tgetD r.nodes key []
  let inp := portIn v es r.outs n
  let x := inp 0
  let keep := fun (z : List Int) (r : Chain) => { r with nodes := tput r.nodes key z }
  match n.ty with
  | 0x01 => r.put n [toLen 48 v.input]
  | 0x02 => r.put n [toLen 48 (v.talkers.getD (n.param b 0) [])]
  | 0x03 => r.put n [x.map (gained (n.paramI b 0))]
  | 0x04 =>
    let ins := (List.range n.ins).map inp
    r.put n [(List.range 48).map fun i => narrow28 (totalI ((indexed ins).map fun kx => n.paramI b kx.1 * at0 kx.2 i))]
  | 0x05 =>
    let (y, z) := biquads ((List.range 5).map (n.paramI b)) (toLen 4 st) x
    keep z (r.put n [y])
  | 0x06 =>
    let d := n.param b 0
    let all := lastZ d st ++ x
    keep (lastN d all) (r.put n [all.take 48])
  | 0x07 => { r with buses := tput r.buses (n.param b 0) x }
  | 0x08 => r.put n [toLen 48 (tgetD r.buses (n.param b 0) [])]
  | 0x09 => r.put n [x.map (gained (tab 5 (2 * n.param b 0))), x.map (gained (tab 5 (2 * n.param b 0 + 1)))]
  | 0x0A => r.put n [toLen 48 (v.listen.getD 0 []), toLen 48 (v.listen.getD 1 (v.listen.getD 0 []))]
  | 0x0B => r.put n [x, if 1 < n.ins then inp 1 else x]
  | ty =>
    if isCustom ty then
      let (ys, z, k, fault) := callNode b idx n (stateBytes b v.sec) r.icount v.budget ((List.range n.ins).map inp) st
      let r := { keep z (r.put n ys) with calls := r.calls + 1, icount := k }
      match fault with
      | some e => { r with fault := some (n.id, e) }
      | none => r
    else r

/-! ### The order of nodes -/

/-- A node waits for another of its section: by an edge, or by a bus that the other writes in the same block. -/
def waitsFor (b : List Byte) (es : List GEdge) (n m : GNode) : Bool :=
  (es.any fun e => decide (e.dst = n.id) && decide (e.src = m.id)) || (n.ty == 0x08 && m.ty == 0x07 && decide (n.param b 0 = m.param b 0))

/-- Run the nodes that are left, each after those that it waits for; a fault ends the section. -/
def runNodes (v : NodeEnv) (es : List GEdge) : Nat → List (Nat × GNode) → Chain → Chain
  | 0, _, r => r
  | fuel + 1, left, r =>
    if r.fault.isSome then r
    else match (left.find? fun n => !(left.any fun m => waitsFor v.img es n.2 m.2)).orElse (fun _ => left.head?) with
      | none => r
      | some n => runNodes v es fuel (left.filter fun m => decide (m.1 ≠ n.1)) (runNode v es n.1 n.2 r)

/-- The nodes of a section, with their record numbers. -/
def sectionNodes (b : List Byte) (sec : Nat) : List (Nat × GNode) := (indexed (gnodes b)).filter fun n => decide (sectionOf b n.1 = sec)

/-- Run a section instance on a block. -/
def runSection (v : NodeEnv) (r : Chain) : Chain :=
  let ns := sectionNodes v.img v.sec
  runNodes v (gedges v.img) ns.length ns r

/-- The node whose outputs a chain delivers: OUT, else the last node that feeds none (DEDUCED, log entry 35). -/
def lastNode (b : List Byte) (sec : Nat) : Option GNode :=
  let ns := (sectionNodes b sec).map (·.2)
  let es := gedges b
  (ns.find? fun n => n.ty == 0x0B).orElse fun _ => (ns.filter fun n => decide (0 < n.outs) && !(es.any fun e => decide (e.src = n.id))).getLast?

/-- What a chain delivers, by channel; zeros after a fault (R332). -/
def Chain.result (r : Chain) (b : List Byte) (sec : Nat) : List (List Int) :=
  match r.fault, lastNode b sec with
  | some _, _ => [silence 48, silence 48]
  | none, some n => [outOf r.outs n.id 0, if 1 < n.outs ∨ n.ty = 0x0B then outOf r.outs n.id 1 else outOf r.outs n.id 0]
  | none, none => [silence 48, silence 48]

/-- The longest declared delay from a node of the section to node `id`, both included (R280). -/
def delayTo (b : List Byte) (es : List GEdge) : Nat → Nat → Nat
  | 0, _ => 0
  | fuel + 1, id =>
    let own := (((gnodes b).find? fun n => decide (n.id = id)).map (·.delay)).getD 0
    own + ((es.filter fun e => decide (e.dst = id)).map fun e => delayTo b es fuel e.src).foldl Nat.max 0

/-- Declared delay of a chain (R280); its graph has no cycle, so no path is longer than its nodes. -/
def chainDelay (b : List Byte) (sec : Nat) : Nat :=
  match lastNode b sec with
  | some n => delayTo b (gedges b) (sectionNodes b sec).length n.id
  | none => 0

/-! ### A section within its conference -/

/-- The image that a conference runs: none for the fixed multiplexer graph (R294). A swap that waits leaves the old one running (R296). -/
def runsImage (s : State) (conf : Nat) : Option (Handle × Image) :=
  match s.obj.confs.at? conf with
  | none => none
  | some k =>
    let h := if k.swapping ∧ k.swapAt.isNone then k.oldImage else k.image
    if h = 0 ∨ k.fallback ∨ s.nose.service = .blotter then none else (imageOf s h).map fun m => (h, m)

/-- Count a fault by its cause (Table 11-13). -/
def faultIndex (cause : Nat) : Nat := if cause = 11 then 2 else if cause = 9 then 3 else 4

/-- Add an instance's calls, instructions and fault to the image's counters, and end the image's run on a fault (R332, R334). -/
def noteSection (conf n : Nat) (h : Handle) (r : Chain) (s : State) : State :=
  let s := countObj 0x0703 h 1 r.icount (countObj 0x0703 h 0 r.calls s)
  match r.fault with
  | none => s
  | some (id, cause) =>
    let s := updImage (hIndex h) (fun m => { m with lastFault := id }) (countObj 0x0703 h (faultIndex cause) 1 s)
    fallBack conf (n + 1) 2 s

end Sys2Proof.Machine
end

