-- ==== Sys2Proof/Machine/Talkers.lean ====
section
/-! DEFINITION. The talker ranking of a conference and the cascade of its audio between devices (R286, R302-R304). -/

namespace Sys2Proof.Machine

/-! ### The ranking (R286) -/

/-- The device is the home of a cascade conference (R302). -/
def isHome (s : State) (c : Conf) : Bool := c.home == some s.media.deviceId.toNat

/-- The level that a home device compares: M without its low 21 bits (R303). -/
def levelFor (home : Bool) (m : Nat) : Nat := if home then m / 2097152 * 2097152 else m

/-- M of an inbound stream. -/
def momentaryOf (s : State) (i : Nat) : Nat := (((s.obj.ins.at? i).bind (·.audio)).map AudioIn.momentary).getD 0

/-- The candidates of a conference: inbound audio streams of its ACTIVE legs, and on the home device the entries its members reported. -/
def candidates (s : State) (conf : Nat) (c : Conf) : List Ranked :=
  let home := isHome s c
  let locals := (confLegs s conf).flatMap fun (l, g) =>
    if g.state == .active then g.ins.filterMap fun i =>
      if ((s.obj.ins.at? i).map fun x => decide (x.decl.kind = 0)).getD false then
        some { leg := some l, gleg := globalLeg s l, stream := i, level := levelFor home (momentaryOf s i), idle := 0 } else none
    else []
  locals ++ (if home then c.remote else [])

/-- Two entries name one candidate. -/
def Ranked.same (a b : Ranked) : Bool := decide (a.gleg = b.gleg) && (a.leg.isSome == b.leg.isSome) && decide (a.stream = b.stream)

/-- Step 1 for the entries that stay: level and inactivity anew. -/
def refreshRanking (cands : List Ranked) (rk : List Ranked) : List Ranked :=
  rk.filterMap fun r => (cands.find? r.same).map fun c => { r with level := c.level, idle := if loudEnough c.level then 0 else r.idle + 1 }

/-- Order of step 2: descending level, ties to the lower leg. -/
def louder (a b : Ranked) : Bool := decide (b.level < a.level) || (decide (a.level = b.level) && decide (a.gleg ≤ b.gleg))

def insertLoud (a : Ranked) : List Ranked → List Ranked
  | [] => [a]
  | b :: r => if louder a b then a :: b :: r else b :: insertLoud a r

/-- Step 2 for one candidate: it enters at the bottom, or replaces the bottom member when its level is more than twice that member's. -/
def enterRanking (limit : Nat) (rk : List Ranked) (c : Ranked) : List Ranked :=
  if rk.length < limit then rk ++ [{ c with idle := 0 }]
  else match rk.getLast? with
    | some b => if 2 * b.level < c.level then rk.dropLast ++ [{ c with idle := 0 }] else rk
    | none => rk

/-- Members that have not been inactive for 1,000 consecutive blocks. -/
def lively (rk : List Ranked) : List Ranked := rk.filter fun r => decide (r.idle < 1000)

/-- Steps 1 and 2 of R286. Members beyond a talker limit that was lowered leave from the bottom (DEDUCED, log entry 55). -/
def rankConf (conf : Nat) (s : State) : State :=
  match s.obj.confs.at? conf with
  | none => s
  | some c =>
    let cands := candidates s conf c
    let rk := (lively (refreshRanking cands c.ranking)).take c.talkerLimit
    let new := (cands.filter fun r => loudEnough r.level && !(rk.any r.same)).foldr insertLoud []
    updConf conf (fun c => { c with ranking := new.foldl (enterRanking c.talkerLimit) rk }) s

/-- Members that have been inactive for 1,000 consecutive blocks leave. -/
def timeoutTalkers (conf : Nat) : State → State := updConf conf fun c => { c with ranking := lively c.ranking }

/-- Step 3 of R286 at tick n, for a conference. -/
def resortConf (conf n : Nat) (s : State) : State := if n % 100 = 0 then updConf conf (·.resort n) s else s

def execRankingResort (conf n : Nat) (s : State) : Host.Outcome State Fault Refusal := done s (if taskRuns s n then resortConf conf n s else s)

def execTalkerTimeout (conf n : Nat) (s : State) : Host.Outcome State Fault Refusal :=
  done s (if taskRuns s n then timeoutTalkers conf s else s)

/-! ### Cascade premix (R302, R303) -/

/-- The direct trunk to a device. -/
def trunkTo (s : State) (dev : Nat) : Option Nat := (tfind s.obj.trunks.live fun _ t => decide (t.peer = dev)).map (·.1)

/-- The local members of a ranking, the first 8. -/
def topLocals (c : Conf) : List Ranked := (c.ranking.filter fun r => r.leg.isSome).take 8

/-- The last block of a stream's input chain output. -/
def lastBlock (s : State) (i : Nat) : List Int := (((s.obj.ins.at? i).bind (·.audio)).map fun a => lastZ 48 a.block).getD (silence 48)

/-- The premix P of the block just processed (R302). -/
def premixOf (s : State) (c : Conf) : List Int :=
  let xs := (topLocals c).map fun r => lastBlock s r.stream
  (List.range 48).map fun i => sat32 ((totalI (xs.map fun x => at0 x i) + 4) / 8)

/-- 48 samples in network order (Table 10-10). -/
def premixBytes (xs : List Int) : List Byte := (toLen 48 xs).flatMap fun x => beBytes 4 (wrapInt 32 x)

/-- Keep a premix for its block. -/
def storePremix (conf : Nat) (p : Premix) : State → State := updConf conf fun c => { c with
  premixes := p :: c.premixes.filter fun q => !(decide (q.device = p.device) && decide (q.tick = p.tick)) && decide (p.tick < q.tick + 100) }

/-- A member sends its premix of block n; the home keeps its own (R302, R303). -/
def premixStep (conf n : Nat) (s : State) : State :=
  match s.obj.confs.at? conf with
  | none => s
  | some c =>
    if isHome s c then storePremix conf ⟨s.media.deviceId.toNat, n, premixOf s c⟩ s
    else if isMember s c then
      match trunkTo s (c.home.getD 0) with
      | some t => sendTrunk t { ty := 1, gconf := c.gconf, tick := n } (premixBytes (premixOf s c)) s
      | none => updConf conf (fun c => { c with noTrunk := c.noTrunk + 1 }) s
    else s

/-- A device takes part in a conference from its first authenticated TYPE 1 or TYPE 2 datagram at the home on, and for good: the manual does not say
what makes a device a member (DESIGN CHOICE, log entry 146). A conference spans at most 256 devices, the home among them: a 257th does not come in
(R57). True when the device is a member. -/
def noteMember (conf dev : Nat) (s : State) : Bool × State :=
  if s.media.members.contains (conf, dev) then (true, s)
  else if 255 ≤ memberCount s conf then (false, s)
  else (true, { s with media := { s.media with members := s.media.members ++ [(conf, dev)] } })

/-- A TYPE 1 datagram of TICK n: on time it counts for its block. A later premix was counted when its return mix was formed without it, and a later
return mix is counted here (R303). -/
def takePremix (conf dev n : Nat) (payload : List Byte) (s : State) : State :=
  match s.obj.confs.at? conf with
  | none => s
  | some c =>
    let home := isHome s c
    if ¬ home ∧ ¬ (isMember s c ∧ c.home = some dev) ∨ payload.length ≠ 192 then s
    else
      let (takes, s) := if home then noteMember conf dev s else (true, s)
      if ¬ takes then s
      else if s.media.tick ≤ n + (if home then 25 else 51) then
        storePremix conf ⟨dev, n, (List.range 48).map fun i => sext 32 (beAt payload (4 * i) 4)⟩ s
      else if home then s
      else updConf conf (fun c => { c with lateMix := c.lateMix + 1 }) s

/-- Devices that hold one of the first 8 positions of the global ranking. -/
def loudDevices (c : Conf) : List Nat := distinct ((c.ranking.take 8).map fun r => r.gleg / 8192)

/-- The premix of a device for block n, where it came in time. -/
def premixAt (c : Conf) (dev n : Nat) : Option (List Int) :=
  (c.premixes.find? fun p => decide (p.device = dev) && decide (p.tick = n)).map (·.samples)

/-- R_d of block n: the premixes of every loud device but d (R303). -/
def returnMix (c : Conf) (d n : Nat) : List Int :=
  let ps := ((loudDevices c).filter fun e => decide (e ≠ d)).map fun e => (premixAt c e n).getD []
  (List.range 48).map fun i => sat32 (totalI (ps.map fun p => at0 p i))

/-- Premixes of block n that the members of a conference have not brought in time. -/
def missingMixes (s : State) (conf : Nat) (c : Conf) (n : Nat) : Nat :=
  (s.media.members.filter fun m => decide (m.1 = conf) && (premixAt c m.2 n).isNone).length

/-- CASCADE_RETURN_MIX of block n, once: the home sends R_d to each member by its direct trunk; premixes that did not come are counted late. -/
def sendReturns (conf n : Nat) (s : State) : State :=
  match s.obj.confs.at? conf with
  | none => s
  | some c =>
    if ¬ isHome s c ∨ c.returned = some n then s
    else
      let missing := missingMixes s conf c n
      let s := updConf conf (fun c => { c with lateMix := c.lateMix + missing, returned := some n }) s
      (s.media.members.filter fun m => decide (m.1 = conf)).foldl (fun s (m : Nat × Nat) => match trunkTo s m.2 with
        | some t => sendTrunk t { ty := 1, gconf := c.gconf, tick := n } (premixBytes (returnMix (c.resort s.media.tick) m.2 n)) s
        | none => s) s

def execCascadeReturnMix (conf n : Nat) (s : State) : Host.Outcome State Fault Refusal :=
  done s (if taskRuns s (n + 26) then sendReturns conf n s else s)

/-- What a device adds to its listener mixes at input block b: R_home of block b − 25 at home, R_d of block b − 50 on a member; none when it is
absent (R303). -/
def cascadeTerm (s : State) (c : Conf) (b : Nat) : Option (List Int) :=
  if isHome s c then (if 25 ≤ b then some (returnMix c s.media.deviceId.toNat (b - 25)) else none)
  else if 50 ≤ b then premixAt c (c.home.getD 0) (b - 50) else none

/-- What the term of input block b lacks: the return mix on a member, the premix of a loud device at home (R303). -/
def cascadeAbsent (s : State) (c : Conf) (b : Nat) : Bool :=
  if isHome s c then (loudDevices c).any fun e => decide (e ≠ s.media.deviceId.toNat) && (premixAt c e (b - 25)).isNone
  else (cascadeTerm s c b).isNone

/-- The conference takes part in cascade audio: a home with members, a member with a direct trunk (R302). -/
def cascades (s : State) (conf : Nat) (c : Conf) : Bool :=
  (isHome s c && s.media.members.any fun m => decide (m.1 = conf)) || (isMember s c && (trunkTo s (c.home.getD 0)).isSome)

/-! ### Talker metadata (R302-R304, Table 10-11) -/

/-- The level of an entry. -/
def reportLevel (m : Nat) : Nat := let l := m / 2097152; if l < 2 ^ 32 then l else 2 ^ 32 - 1

/-- A TYPE 2 payload. -/
def talkerPayload (kind : Nat) (rk : List Ranked) : List Byte :=
  beBytes 4 (rk.length * 2 ^ 24 + kind * 2 ^ 16) ++ rk.flatMap fun r => beBytes 4 (r.gleg * 128) ++ beBytes 4 (reportLevel r.level)

/-- TALKER_REPORT at tick n, once: a member reports its first 8 members to the home, the home sends its ranking to every member. -/
def reportTalkers (conf n : Nat) (s : State) : State :=
  match s.obj.confs.at? conf with
  | none => s
  | some c =>
    let told := updConf conf (fun c => { c with reported := some n }) s
    if n % 10 ≠ 0 ∨ c.reported = some n then s
    else if isHome s c then
      (s.media.members.filter fun m => decide (m.1 = conf)).foldl (fun s (m : Nat × Nat) => match trunkTo s m.2 with
        | some t => sendTrunk t { ty := 2, gconf := c.gconf, tick := n } (talkerPayload 1 (rankingNow s c)) s
        | none => s) told
    else if isMember s c then
      match trunkTo s (c.home.getD 0) with
      | some t => sendTrunk t { ty := 2, gconf := c.gconf, tick := n } (talkerPayload 0 (topLocals (c.resort s.media.tick))) told
      | none => updConf conf (fun c => { c with noTrunk := c.noTrunk + 1 }) told
    else s

def execTalkerReport (conf n : Nat) (s : State) : Host.Outcome State Fault Refusal :=
  done s (if taskRuns s n then reportTalkers conf n s else s)

/-- The entries of a TYPE 2 payload; an entry of this device names its leg. -/
def talkerEntries (s : State) (payload : List Byte) : List Ranked :=
  (List.range (beAt payload 0 1)).map fun e =>
    let g := beAt payload (4 + 8 * e) 4 / 128
    { leg := if g / 8192 = s.media.deviceId.toNat then some (g % 8192) else none, gleg := g, stream := 0,
      level := beAt payload (8 + 8 * e) 4 * 2097152, idle := 0 }

/-- A TYPE 2 datagram: reports of a member at the home, the home ranking on a member (R303, R304). -/
def takeTalkers (conf dev : Nat) (payload : List Byte) (s : State) : State :=
  match s.obj.confs.at? conf with
  | none => s
  | some c =>
    let kind := beAt payload 1 1
    if payload.length ≠ 4 + 8 * beAt payload 0 1 ∨ 64 < beAt payload 0 1 then s
    else if isHome s c ∧ kind = 0 then
      let (takes, s) := noteMember conf dev s
      let mine := (talkerEntries s payload).filter fun r => r.leg.isNone
      if ¬ takes then s
      else updConf conf (fun c => { c with remote := (c.remote.filter fun r => decide (r.gleg / 8192 ≠ dev)) ++ mine }) s
    else if isMember s c ∧ kind = 1 ∧ c.home = some dev then updConf conf (fun c => { c with remote := talkerEntries s payload }) s
    else s

end Sys2Proof.Machine
end

