-- ==== Sys2Proof/Machine/Output.lean ====
section
/-! DEFINITION. The output stage: compressor and limiter, tones, frames and share groups (R279, R291-R293, R298-R301). -/

namespace Sys2Proof.Machine

/-! ### Compressor and limiter (R298, R299) -/

/-- Settings of Table 10-9. -/
structure LimitSet where
  threshold : Int := -120
  ratio : Nat := 40
  knee : Nat := 60
  attack : Nat := 50
  release : Nat := 100
  lookahead : Nat := 0
  ceiling : Int := -10

/-- The settings of an OUT node: 16-bit fields in the order of Table 10-9 (DEDUCED, log entry 35). -/
def outSettings (b : List Byte) (n : GNode) : LimitSet :=
  let f := fun (i : Nat) => leAt b (paramsAt b + n.poff + 2 * i) 2
  { threshold := sext 16 (f 0), ratio := f 1, knee := f 2, attack := f 3, release := f 4, lookahead := f 5, ceiling := sext 16 (f 6) }

/-- The settings of the mixes of a conference. -/
def limitOf (s : State) (conf : Nat) : LimitSet :=
  match runsImage s conf with
  | none => {}
  | some (_, m) => match (sectionNodes m.bytes 2).find? fun n => n.2.ty == 0x0B with
    | some n => outSettings m.bytes n.2
    | none => {}

/-- Gain reduction for a level over the threshold. -/
def gainReduction (k : LimitSet) (ov : Int) : Int :=
  let kn := tenths k.knee
  if 2 * ov ≤ -kn then 0
  else if kn ≤ 2 * ov then (if k.ratio = 0 then ov else (ov * (k.ratio - 10)).tdiv k.ratio)
  else
    let h := ov + kn / 2
    if k.ratio = 0 then (h * h).tdiv (2 * kn) else ((k.ratio - 10) * h * h).tdiv (k.ratio * 2 * kn)

/-- Table 11 holds τ = 1 at its first word (DEDUCED, log entry 3). -/
def smoothing (tau : Nat) : Int := tab 11 (tau - 1)

/-- The limiter on one sample: `w` holds the 48 samples before it, newest last. Output, and smoothed gain reduction. -/
def limitOne (k : LimitSet) (w : List Int) (s x : Int) : Int × Int :=
  let seen := if k.lookahead = 0 then [x] else lastZ 48 w ++ [x]
  let pk := seen.foldl (fun (m : Nat) y => if m < y.natAbs then y.natAbs else m) 1
  let gr := gainReduction k (2 * lg pk - 31 * dbE - tenths k.threshold)
  let a := if s < gr then smoothing k.attack else smoothing (k.release * 10)
  let s := s + ((gr - s) * a + 2 ^ 30) / 2 ^ 31
  let c := db2g (tenths k.ceiling) * 8
  (clampI (-c) c (gained (db2g (-s)) (seen.headD 0)), s)

/-- The limiter over samples: outputs, the samples before the next one, smoothed gain reduction, and samples with gain reduction. -/
def limitRun (k : LimitSet) : List Int → Int → List Int → List Int × List Int × Int × Nat
  | w, s, [] => ([], w, s, 0)
  | w, s, x :: r =>
    let (y, s) := limitOne k w s x
    let (ys, w, t, n) := limitRun k (lastN 48 (w ++ [x])) s r
    (y :: ys, w, t, n + b2n (decide (s ≠ 0)))

/-! ### Tones (R300, R301) -/

/-- Components of the built-in tones in 0.1 Hz (Table 10-8; DTMF by ITU-T Q.23: rows 697, 770, 852, 941, columns 1,209, 1,336, 1,477, 1,633). -/
def builtTone (t : Nat) : List Nat :=
  let row := [6970, 7700, 8520, 9410]
  let col := [12090, 13360, 14770, 16330]
  let key := fun (r c : Nat) => [row.getD r 0, col.getD c 0]
  match t with
  | 0x0 => key 3 1
  | 0x1 => key 0 0
  | 0x2 => key 0 1
  | 0x3 => key 0 2
  | 0x4 => key 1 0
  | 0x5 => key 1 1
  | 0x6 => key 1 2
  | 0x7 => key 2 0
  | 0x8 => key 2 1
  | 0x9 => key 2 2
  | 0xA => key 3 0
  | 0xB => key 3 2
  | 0xC => key 0 3
  | 0xD => key 1 3
  | 0xE => key 2 3
  | 0xF => key 3 3
  | 0x10 => [4400]
  | 0x11 => [3500, 4400]
  | 0x12 => [4400, 4800]
  | 0x13 => [4800, 6200]
  | 0x14 => [8800]
  | _ => [10000]

/-- On and off parts in ms, and whether the cadence repeats (Table 10-8). -/
def builtCadence (c : Nat) : List Nat × Bool :=
  match c with
  | 1 => ([100, 100], true)
  | 2 => ([2000, 4000], true)
  | 3 => ([500, 500], true)
  | 4 => ([200], false)
  | 5 => ([100, 100, 100], false)
  | _ => ([], true)

/-- The image of a conference for tone tables. -/
def toneImage (s : State) (conf : Nat) : List Byte := ((runsImage s conf).map (·.2.bytes)).getD []

/-- A tone table's components; none when an image does not define it. -/
def toneFreqs (img : List Byte) (t : Nat) : Option (List Nat) := if t < 0x100 then some (builtTone t) else Config.imageTone img t

/-- A cadence; none when an image does not define it. -/
def cadenceOf (img : List Byte) (c : Nat) : Option (List Nat × Bool) := if c < 0x100 then some (builtCadence c) else Config.imageCadence img c

/-- The part of a cadence that ms t falls in: true on; none once a cadence that plays once is over. -/
def cadencePart : Bool → List Nat → Nat → Option Bool
  | _, [], _ => none
  | on, d :: r, t => if t < d then some on else cadencePart (!on) r (t - d)

/-- The state of a cadence t ms after the tone's start. -/
def cadenceAt (k : List Nat × Bool) (t : Nat) : Option Bool :=
  if total k.1 = 0 then some true else cadencePart true k.1 (if k.2 then t % total k.1 else t)

/-- One component at a phase (R301). -/
def sineAt (phase : Nat) : Int := interp 10 (phase / 2 ^ 20) (phase / 16 % 65536)

/-- The phase step of a component. -/
def toneStep (f : Nat) : Nat := (f * 2 ^ 32 + 240000) / 480000

/-- A tone's components at position p, summed with saturation, before its ramp. -/
def Tone.raw (t : Tone) (p : Int) : Int :=
  let k := (p - 48 * t.start).toNat
  t.freqs.foldl (fun y f => sat32 (y + (sineAt (toneStep f * k % 2 ^ 32) * tab 13 t.level + 2 ^ 30) / 2 ^ 31)) 0

/-- The gain of a tone at position p: 48 samples of ramp from its last edge. -/
def Tone.gain (t : Tone) (p : Int) : Int :=
  let k := p - 48 * t.edge
  if k < 0 then (if t.on then 0 else unity)
  else if 48 ≤ k then (if t.on then unity else 0)
  else if t.on then ramp48 k.toNat else ramp48 (48 - k.toNat)

/-- A tone's sample at position p. -/
def Tone.at_ (t : Tone) (p : Int) : Int := if p < 48 * t.start then 0 else gained (t.gain p) (t.raw p)

/-- The tone ends at block n with a ramp. -/
def Tone.stop (t : Tone) (n : Nat) : List Tone := if t.on then [{ t with on := false, edge := n }] else []

/-- End the tone on a leg or conference at block n. -/
def endTone (h : Handle) (n : Nat) (s : State) : State :=
  let old := fun (t : Option Tone) => (t.map fun t => t.stop n).getD []
  if hType h = tyLeg then updLeg (hIndex h) (fun l => { l with tone := none, fading := l.fading ++ old l.tone }) s
  else updConf (hIndex h) (fun k => { k with tone := none, fading := k.fading ++ old k.tone }) s

/-- The tone that plays on a leg or conference, and the conference. -/
def toneOn (s : State) (h : Handle) : Option Tone :=
  if hType h = tyLeg then (s.obj.legs.at? (hIndex h)).bind (·.tone) else (s.obj.confs.at? (hIndex h)).bind (·.tone)

def toneConf (s : State) (h : Handle) : Nat :=
  if hType h = tyLeg then ((s.obj.legs.at? (hIndex h)).map (·.conf)).getD 0 else hIndex h

/-- TONE_CADENCE_EDGE at block n: the cadence turns on or off, or one that plays once is over. -/
def edgeTone (h : Handle) (n : Nat) (s : State) : State :=
  match toneOn s h with
  | none => s
  | some t =>
    if n < t.start then s
    else match cadenceOf (toneImage s (toneConf s h)) t.cadence with
      | none => s
      | some k => match cadenceAt k (n - t.start) with
        | none => endTone h n s
        | some on =>
          if on = t.on then s
          else
            let turn := fun (x : Option Tone) => x.map fun t => { t with on := on, edge := n }
            if hType h = tyLeg then updLeg (hIndex h) (fun l => { l with tone := turn l.tone }) s
            else updConf (hIndex h) (fun k => { k with tone := turn k.tone }) s

/-- TONE_END at block n: the tone has played for its duration. -/
def expireTone (h : Handle) (n : Nat) (s : State) : State :=
  match toneOn s h with
  | some t => if t.duration ≠ 0 ∧ t.start + t.duration ≤ n then endTone h n s else s
  | none => s

/-- The object is live and of the type that plays tones. -/
def playsTones (s : State) (h : Handle) : Bool := (liveIndex s tyLeg h).isSome || (liveIndex s tyConf h).isSome

def execToneCadenceEdge (obj : Handle) (n : Nat) (s : State) : Host.Outcome State Fault Refusal :=
  done s (if taskRuns s n && playsTones s obj then edgeTone obj n s else s)

def execToneEnd (obj : Handle) (n : Nat) (s : State) : Host.Outcome State Fault Refusal :=
  done s (if taskRuns s n && playsTones s obj then expireTone obj n s else s)

/-! ### Frames (R279) -/

def updSound (i : Nat) (f : AudioOut → AudioOut) : State → State := updOut i fun o => { o with audio := o.audio.map f }

/-- The RTP timestamp of a frame whose first output position is q. -/
def frameTs (s : State) (d : StreamRec) (q : Int) : Nat :=
  let o := match (slotAt s (hIndex d.slot)).bind (·.key) with
    | some key => beAt (blockE key (d.ssrcs.getD 0 0)) 2 4
    | none => 0
  wrapInt 32 (o + q * rtpClock d.codec / 48000)

/-- Samples before the first frame boundary are dropped: frames begin at multiples of their length (DEDUCED from the example of R293, log
entry 56). -/
def AudioOut.align (a : AudioOut) (step len : Nat) : AudioOut :=
  let off := (a.framePos % len).toNat
  if off = 0 then a
  else
    let drop := (len - off) / step
    let have_ := (a.frame.headD []).length
    let k := if drop < have_ then drop else have_
    { a with frame := a.frame.map fun c => c.drop k, framePos := a.framePos + k * step }

/-- Share-group members of a conference's streams. -/
def inGroup (s : State) (conf g : Nat) : List Nat :=
  (audioOuts s conf).filterMap fun (i, o, _) => if (o.audio.bind (·.group)) = some g then some i else none

/-- At a frame boundary the mix leaves or joins a share group (R292); `was` holds the encoder states at the boundary by stream. -/
def regroup (i conf len : Nat) (was : Tbl (Int × Nat)) (s : State) : State :=
  match (s.obj.outs.at? i).bind (·.audio) with
  | none => s
  | some a =>
    let q := a.framePos
    let h := outHandle s i
    let s := match a.splitAt with
      | some p => if p < q + len then
          countObj 0x0702 h 2 1 (updSound i (fun a => { a with group := none, splitAt := none, equal := none }) s) else s
      | none => s
    match (s.obj.outs.at? i).bind (·.audio) with
    | none => s
    | some a => match a.group, a.equal with
      | none, some (g, since) =>
        let peer := (inGroup s conf g ++ [g]).find? fun k => decide (k ≠ i) && ((tget was k).map fun x => decide (x.1 = q)).getD false
        match peer with
        | some k =>
          if since + 4800 ≤ q then
            let e := ((tget was k).map (·.2)).getD 0
            let s := updSound g (fun b => { b with group := some g }) s
            countObj 0x0702 h 2 1 (updSound i (fun a => { a with group := some g, equal := none, enc := e }) s)
          else s
        | none => s
      | _, _ => s

/-- Encode and enterTx the frame that ends at or before position `t`, when there is one. -/
def emitFrame (conf : Nat) (t : Int) (was : Tbl (Int × Nat)) (i : Nat) (s : State) : State :=
  match s.obj.outs.at? i with
  | none => s
  | some o =>
    let d := o.decl
    let len := frameLen d.frameCode
    let step := codecStep d.codec
    let s := updSound i (fun a => a.align step len) s
    match (s.obj.outs.at? i).bind (·.audio), s.obj.legs.at? o.leg with
    | some a, some l =>
      if (a.frame.headD []).length * step < len ∨ t < a.framePos + len ∨ a.framePos % len ≠ 0 then s
      else
        let s := regroup i conf len was s
        match (s.obj.outs.at? i).bind (·.audio) with
        | none => s
        | some a =>
          let (e, bytes) := encodeFrame d.codec (d.blk 4 4) (d.blk 3 1) a.enc (a.frame.map fun c => c.take (len / step))
          let ssrc := d.ssrcs.getD 0 0
          let pkt := rtpPacket d.pt false 0 (frameTs s d a.framePos) ssrc.toNat bytes
          let h := outHandle s i
          let shared := match a.group with
            | some g => decide (1 < (inGroup s conf g).length)
            | none => false
          let s := updSound i (fun a => { a with enc := e, frame := a.frame.map fun c => c.drop (len / step), framePos := a.framePos + len }) s
          if ¬ l.sends ∨ bytes.isEmpty then s
          else
            let s := enterTx { legPkt o.leg l .audio ssrc d.slot false pkt with stream := some i } s
            countObj 0x0702 h 1 (b2n shared) (countObj 0x0702 h 0 1 s)
    | _, _ => s

/-- Encoder states and frame positions of a conference's outbound streams. -/
def encStates (s : State) (conf : Nat) : Tbl (Int × Nat) :=
  (audioOuts s conf).filterMap fun (i, o, _) => o.audio.map fun a => (i, (a.framePos, a.enc))

/-- Every frame of a conference that is due at position `t` (R279). -/
def emitConf (conf : Nat) (t : Int) (s : State) : State :=
  let was := encStates s conf
  (audioOuts s conf).foldl (fun s (x : Nat × OutStream × Leg) => emitFrame conf t was x.1 s) s

/-! ### Share groups (R291, R292) -/

/-- The group that a mix counts for: its own number while it has none. -/
def groupOf (i : Nat) (a : AudioOut) : Nat := a.group.getD i

/-- The class of a group that stays in it: the largest, ties to the one that holds the lowest stream (DESIGN CHOICE, log entry 57). -/
def groupCore (ms : List (Nat × AudioOut)) : List Nat :=
  let count := fun (a : AudioOut) => (ms.filter fun m => decide (m.2.sig = a.sig)).length
  match ms with
  | [] => []
  | m :: r => (r.foldl (fun (best : Nat × AudioOut) x => if count best.2 < count x.2 then x else best) m).2.sig

/-- Members that differ from their group from block n on are to leave it; mixes outside a group note whose output theirs equals. -/
def regroupConf (conf n : Nat) (s : State) : State :=
  let q : Int := 48 * n + 144
  let ms := (audioOuts s conf).filterMap fun (i, o, _) => o.audio.map fun a => (i, a)
  let grouped := distinct (ms.filterMap fun m => m.2.group)
  let s := grouped.foldl (fun s g =>
    let mine := ms.filter fun m => decide (m.2.group = some g)
    let core := groupCore mine
    mine.foldl (fun s (m : Nat × AudioOut) =>
      if m.2.sig ≠ core ∧ m.2.splitAt.isNone then updSound m.1 (fun a => { a with splitAt := some q }) s else s) s) s
  ms.foldl (fun s (m : Nat × AudioOut) =>
    if m.2.group.isSome then s
    else
      let like := ms.filter fun x => decide (x.1 ≠ m.1) && decide (x.2.sig = m.2.sig) && x.2.splitAt.isNone && (x.2.group.isSome || decide (x.1 < m.1))
      let gs := distinct (like.map fun x => groupOf x.1 x.2)
      let eq := match m.2.equal with
        | some (g, since) => if gs.contains g then some (g, since) else gs.head?.map fun g => (g, q)
        | none => gs.head?.map fun g => (g, q)
      updSound m.1 (fun a => { a with equal := eq }) s) s

end Sys2Proof.Machine
end

