-- ==== Sys2Proof/Machine/Mixing.lean ====
section
/-! DEFINITION. Listener mixes block by block: selection, selects and crossfades, seats, pan and binaural rendering, the Direct path, input and
listener chains, and swaps of images (R280-R282, R287-R290, R294-R297, R303). -/

namespace Sys2Proof.Machine

/-! ### Paths (R280, R281) -/

/-- The mix object of a leg. -/
def mixOf (s : State) (l : Leg) : Option Mix := l.mix.bind s.obj.mixes.at?

/-- Isolation works on the stream, or is on its way. -/
def AudioIn.isolating (a : AudioIn) : Bool := a.isolated || a.isoOn

/-- A talker's contribution to a listener takes the Direct path (R281). -/
def isDirect (s : State) (img : Option (Handle × Image)) (x : InStream) (a : AudioIn) (o : OutStream) (l : Leg) : Bool :=
  let i := x.decl
  let d := o.decl
  i.direct && d.direct && !(((mixOf s l).map (·.noDirect)).getD false) && decide (i.codec = d.codec) &&
  (i.codec == 2 || i.codec == 3 || i.codec == 5 || (i.codec == 1 && i.frameCode == 0 && d.frameCode == 0 && i.channels == 1)) &&
  !a.isolating && ((img.map (·.2.directOk)).getD true)

/-- Delay before the mix: conversion, isolation and the input chain. -/
def delayBefore (img : Option (Handle × Image)) (x : InStream) (a : AudioIn) : Nat :=
  (if codecStep x.decl.codec = 1 then 0 else 24) + (if a.isoOn then 24 else 0) + ((img.map fun m => chainDelay m.2.bytes 1).getD 0)

/-- Delay after it: listener chain, lookahead and conversion. -/
def delayAfter (img : Option (Handle × Image)) (k : LimitSet) (d : StreamRec) : Nat :=
  ((img.map fun m => chainDelay m.2.bytes 2).getD 0) + 48 * k.lookahead + (if codecStep d.codec = 1 then 0 else 24)

/-- Samples by which a contribution waits so that its path adds 144 positions in all, or 96 and its delay (R280). -/
def pathWait (before after : Nat) : Nat := 48 - (before + after)

/-! ### Selects of the fixed multiplexer graph (R294) -/

/-- One sample of a select toward its target: the old talker down over 96 samples, the switch, the new one up. An empty select counts as a talker
of silence (DEDUCED, log entry 58). -/
def selectStep (target : Option Nat) (m : MuxSelect) : (Option Nat × Nat) × MuxSelect :=
  let m := if m.stream ≠ target ∧ m.k = 0 then { m with stream := target } else m
  if m.stream ≠ target then ((m.stream, m.k), { m with k := m.k - 1 })
  else if m.k < 96 then ((m.stream, m.k), { m with k := m.k + 1 })
  else ((m.stream, 96), m)

/-- n samples of a select. -/
def selectRun (target : Option Nat) : Nat → MuxSelect → List (Option Nat × Nat) → MuxSelect
  | 0, m, acc => { m with trace := lastN 192 (m.trace ++ acc.reverse) }
  | n + 1, m, acc =>
    let (x, m) := selectStep target m
    selectRun target n m (x :: acc)

/-- The weight of a select's holder at position p, with the holder; `stop` is the end of the trace. -/
def MuxSelect.at_ (m : MuxSelect) (stop p : Int) : Option Nat × Int :=
  let k := p - (stop - m.trace.length)
  if k < 0 then (none, 0)
  else match m.trace[k.toNat]? with
    | some (st, w) => (st, if w = 96 then unity else ramp96 w)
    | none => (none, 0)

/-! ### Selection (R288, R289) -/

/-- Positions of the ranking that a listener hears: the first L, leaving out its own leg; the fixed graph has 8 of them. -/
def heardPositions (fixed : Bool) (limit leg : Nat) (rk : List Ranked) : List (Nat × Ranked) :=
  (((indexed rk).filter fun r => decide (r.2.leg ≠ some leg)).take limit).filter fun r => !fixed || decide (r.1 < 8)

/-- The lowest seat, 0-15, that no selected stream holds. -/
def freeSeat (seats : List (Nat × Nat)) (chosen : List Nat) : Nat :=
  ((List.range 16).find? fun k => !(seats.any fun x => decide (x.2 = k) && chosen.contains x.1)).getD 15

/-- Seats of a selection: a stream that enters takes the lowest free one. -/
def takeSeats : List Nat → List Nat → List (Nat × Nat) → List (Nat × Nat)
  | _, [], seats => seats
  | was, i :: r, seats =>
    if was.contains i then takeSeats was r seats
    else
      let rest := seats.filter fun x => decide (x.1 ≠ i)
      takeSeats (i :: was) r ((i, freeSeat rest was) :: rest)

def seatOf (a : AudioOut) (i : Nat) : Nat := ((a.seats.find? fun x => decide (x.1 = i)).map (·.2)).getD 0

/-! ### Changes of contributions in an image conference (R290) -/

/-- What is granted in a block: changes by group, stream and direction, which a shared mix pays once. -/
abbrev Granted := List (Nat × Nat × Nat)

/-- Ask for the change of one contribution of a mix; members of a share group share its unit. -/
def askChange (i n : Nat) (a : AudioOut) (stream dir : Nat) (g : Granted) (s : State) : Bool × Granted × State :=
  match a.group with
  | some k =>
    if g.contains (k, stream, dir) then (true, g, dropWaits (fun w => decide (w = (0, 2 * i + dir, stream))) s)
    else
      let (ok, t) := askFade (0, 2 * i + dir, stream) n s
      (ok, if ok then (k, stream, dir) :: g else g, t)
  | none =>
    let (ok, t) := askFade (0, 2 * i + dir, stream) n s
    (ok, g, t)

/-- Contributions that leave and enter at block n; a change without a unit waits. -/
def changeTerms (i n : Nat) (want : List Nat) (g : Granted) (s : State) : Granted × State :=
  match (s.obj.outs.at? i).bind (·.audio) with
  | none => (g, s)
  | some a =>
    let at_ : Int := 48 * n
    let live := a.terms.filter fun t => match t.leave with
      | some e => decide (at_ - 96 < e + 240)
      | none => true
    let waited := fun (dir x : Nat) => s.media.fadeWait.any fun w => decide (w = (0, 2 * i + dir, x))
    let out := (live.filter fun t => t.leave.isNone && !want.contains t.stream).map (·.stream)
    let new := want.filter fun x => !(live.any fun t => decide (t.stream = x) && t.leave.isNone)
    let s := updSound i (fun a => { a with terms := live }) s
    let s := dropWaits (fun w => decide (w.1 = 0) && decide (w.2.1 / 2 = i) && !((if w.2.1 % 2 = 0 then out else new).contains w.2.2)) s
    let h := outHandle s i
    let step := fun (dir : Nat) (gs : Granted × State) (x : Nat) =>
      let first := !(waited dir x)
      let (ok, g, s) := askChange i n a x dir gs.1 gs.2
      if ok then
        (g, updSound i (fun a =>
          if dir = 0 then { a with terms := a.terms.map fun t => if t.stream = x ∧ t.leave.isNone then { t with leave := some at_ } else t }
          else { a with terms := a.terms ++ [{ stream := x, seat := seatOf a x, enter := at_, leave := none }] }) s)
      else (g, countObj 0x0702 h 3 (b2n first) s)
    let gs := out.foldl (step 0) (g, s)
    new.foldl (step 1) gs

/-! ### Decisions for block n, at tick n -/

/-- What decides a mix's samples (R291): its profile, contributions with their gains and paths, and nothing of its own; a mix that cannot share has
a mark of its own. -/
def mixSig (s : State) (conf i n : Nat) (o : OutStream) (l : Leg) (a : AudioOut) : List Nat :=
  let img := runsImage s conf
  let k := (s.obj.confs.at? conf)
  let path := fun (x : Nat) => match soundAt s x with
    | some y => match y.audio with
      | some b => b2n (isDirect s img y b o l)
      | none => 0
    | none => 0
  if ¬ mixShares s l ∨ l.tone.isSome ∨ ¬ l.fading.isEmpty then [0, i]
  else
    let fixedPart := a.heard.flatMap fun j => match (k.bind fun k => k.selects[j]?) with
      | some m => match m.stream with
        | some x => [j, x, path x]
        | none => []
      | none => []
    let terms := a.terms.flatMap fun t =>
      [t.stream, path t.stream, if 48 * (n : Int) < t.enter + 240 then t.enter.toNat + 1 else 0, ((t.leave.map fun e => e.toNat + 1).getD 0)]
    1 :: mixProfile s l o.decl ++ [fixedPart.length] ++ fixedPart ++ terms

/-- A swap takes effect at tick n when its units are free (R296). -/
def beginSwap (conf n : Nat) (s : State) : State :=
  match s.obj.confs.at? conf with
  | none => s
  | some k =>
    if ¬ k.swapping ∨ k.swapAt.isSome then s
    else
      let need := swapUnits s conf k.oldImage k.image
      if 4096 < fadesInUse s n + need then s
      else
        let bytes := fun (h : Handle) => ((imageOf s h).map (·.bytes)).getD []
        let both := fun (key : Nat) => [k.oldImage, k.image].all fun h => (gnodes (bytes h)).any fun n => decide (key % 2 ^ 24 = n.ty * 65536 + n.id)
        let s := { s with media := { s.media with fades := (n, need) :: s.media.fades.filter fun f => decide (n < f.1 + 5) } }
        let s := updConf conf (fun k => { k with swapAt := some n, oldNodes := k.nodes, nodes := k.nodes.filter fun kv => both kv.1 }) s
        let h := handleOf s tyConf conf
        postEvent k.tenant evGraphSwapped h h.toNat n 0 s

/-- The swap ends with its last crossfade. -/
def endSwap (conf n : Nat) (s : State) : State := updConf conf (fun k => match k.swapAt with
  | some b => if b + 5 ≤ n then { k with swapping := false, oldImage := 0, oldNodes := [], swapAt := none } else k
  | none => k) s

/-- The return mix becomes part of the mixes, or leaves them, with a crossfade (R290, R303). -/
def switchCascade (conf n : Nat) (s : State) : State :=
  match s.obj.confs.at? conf with
  | none => s
  | some k =>
    let on := cascades s conf k
    let settled : Bool := match k.cascadeAt with
      | some b => decide (b + 5 ≤ n)
      | none => true
    if on = k.cascade ∨ ¬ settled then s
    else
      let (ok, s) := askFade (2, conf, 0) n s
      if ok then updConf conf (fun k => { k with cascade := on, cascadeAt := some n }) s else s

/-- Selects, contributions, seats and share groups of a conference for block n, from the ranking decided at tick n. -/
def decideBlock (conf n : Nat) (s : State) : State :=
  match s.obj.confs.at? conf with
  | none => s
  | some k =>
    let fixed := (runsImage s conf).isNone
    let target := fun (j : Nat) => if fixed then (k.ranking[j]?).bind fun r => if r.leg.isSome then some r.stream else none else none
    let sel := (List.range 8).map fun j => selectRun (target j) 48 (k.selects.getD j {}) []
    let s := updConf conf (fun k => { k with selects := sel, selEnd := n + 1 }) s
    let outs := audioOuts s conf
    let (_, s) := outs.foldl (fun (gs : Granted × State) (x : Nat × OutStream × Leg) =>
      let pos := heardPositions fixed (mixLimit gs.2 x.2.2) x.2.1.leg k.ranking
      let mine := pos.filterMap fun r => if r.2.leg.isSome then some r.2.stream else none
      let s := updSound x.1 (fun a => { a with
        heardWas := a.heard
        heard := if fixed then pos.map (·.1) else a.heard
        seats := (takeSeats ((a.seats.map (·.1)).filter fun i => mine.contains i) mine a.seats).take 32 }) gs.2
      changeTerms x.1 n (if fixed then [] else mine) gs.1 s) ([], s)
    let s := (audioOuts s conf).foldl (fun s (x : Nat × OutStream × Leg) => updSound x.1 (fun a =>
      { a with sig := mixSig s conf x.1 n x.2.1 x.2.2 a }) s) s
    regroupConf conf n s

/-! ### Contributions by position -/

/-- The weight of a contribution with a crossfade at position p (R290). -/
def MixTerm.weight (t : MixTerm) (p : Int) : Int :=
  let k := p - t.enter
  if k < 0 then 0
  else match t.leave with
    | some e => if p < e then fadeIn k.toNat else fadeOut (p - e).toNat
    | none => fadeIn k.toNat

/-- A contribution to a listener: its stream, seat, and weight by position. -/
structure Contribution where
  stream : Nat
  seat : Nat
  weight : Int → Int

/-- Every contribution that a listener hears: selects of the fixed graph, and crossfaded terms; never its own leg. -/
def contributions (k : Conf) (a : AudioOut) (own : List Nat) : List Contribution :=
  let stop : Int := 48 * k.selEnd
  let fixed := (indexed k.selects).flatMap fun (j, m) =>
    let streams := distinct (m.trace.filterMap (·.1))
    (streams.filter fun i => !own.contains i).map fun i =>
      { stream := i, seat := seatOf a i,
        weight := fun p =>
          let heard := if p < stop - 48 then a.heardWas else a.heard
          let (h, w) := m.at_ stop p
          if heard.contains j && decide (h = some i) then w else 0 : Contribution }
  fixed ++ a.terms.map fun t => { stream := t.stream, seat := t.seat, weight := t.weight }

/-- The audio sources of a leg, freed ones that a mix still names among them. -/
def ownIns (s : State) (leg : Nat) (l : Leg) : List Nat :=
  l.ins ++ (s.media.gone.filter fun g => !g.stream.onTrunk && decide (g.stream.owner = leg)).map fun g => g.id

/-- The position lies in a packet that the Direct path cannot carry. -/
def AudioIn.isOdd (a : AudioIn) (p : Int) : Bool := a.odd.any fun o => decide (o.1 ≤ p) && decide (p < o.1 + o.2)

/-! ### Stage 6 (R287-R290) -/

/-- Convolution with a seat's response for one ear at a sample (R289). -/
def binauralAt (seat ear : Nat) (x : Int → Int) (p : Int) : Int :=
  narrow30 (totalI ((List.range 128).map fun t => tab 6 (seat * 256 + ear * 128 + t) * x (p - t)))

/-- One channel of a listener's selection for block n: the weighted sum of the contributions that take the standard path. -/
def selectChannel (s : State) (img : Option (Handle × Image)) (after n ch : Nat) (o : OutStream) (l : Leg) (cs : List Contribution) : List Int :=
  let pan := ((mixOf s l).map (·.pan)).getD false
  let bin := ((mixOf s l).map (·.binaural)).getD false
  let parts := cs.filterMap fun c => match soundAt s c.stream with
    | none => none
    | some x => x.audio.map fun a =>
      let before := delayBefore img x a
      let wait := pathWait before after
      let direct := isDirect s img x a o l
      let stop : Int := 48 * n + 48
      let sample := fun (m : Int) => atPos a.block (stop - a.block.length) m
      fun (m : Int) =>
        let m := m - wait
        let p := m - before
        let w := if direct && !a.isOdd p then 0 else c.weight p
        if pan then gained w (tab 5 (2 * c.seat + ch)) * sample m
        else if bin then w * binauralAt c.seat ch sample m
        else w * sample m
  (List.range 48).map fun i => narrow28 (totalI (parts.map fun f => f (48 * n + i)))

/-! ### Stage 7 (R295, R300, R303) -/

/-- The swap of a conference at block n, for a section: the old image's node outputs beside the new one's (R296). -/
def swapEnv (s : State) (k : Conf) (n : Nat) (env : NodeEnv) : Option (Nat × List GEdge × List ((Nat × Nat) × List Int)) :=
  match k.swapAt with
  | none => none
  | some b =>
    if b + 5 ≤ n then none
    else match imageOf s k.oldImage with
      | none => some (48 * (n - b), [], [])
      | some m => some (48 * (n - b), gedges m.bytes, (runSection { env with img := m.bytes, swap := none } { nodes := k.oldNodes, buses := k.buses }).outs)

/-- Run one section instance of a conference's image on block n: what it delivers by channel. -/
def runInstance (conf n sec inst : Nat) (input : List Int) (talkers listen : List (List Int)) (s : State) : Option (List (List Int)) × State :=
  match runsImage s conf, s.obj.confs.at? conf with
  | some (h, m), some k =>
    let env : NodeEnv := { img := m.bytes, sec := sec, inst := inst, budget := if sec = 0 then m.confCycles else if sec = 1 then m.inCycles else m.lisCycles,
                           input := input, talkers := talkers, listen := listen, swap := none }
    let old := match imageOf s k.oldImage with
      | some w => if k.swapAt.isSome then (runSection { env with img := w.bytes } { nodes := k.oldNodes, buses := k.buses }).nodes else k.oldNodes
      | none => k.oldNodes
    let r := runSection { env with swap := swapEnv s k n env } { nodes := k.nodes, buses := k.buses }
    let buses := if sec = 0 then (if r.fault.isSome then [] else r.buses) else k.buses
    let s := updConf conf (fun k => { k with nodes := r.nodes, oldNodes := old, buses := buses }) s
    (some (r.result m.bytes sec), noteSection conf n h r s)
  | _, _ => (none, s)

/-- Tones at position p of a listener: those of its leg and its conference. -/
def tonesAt (k : Conf) (l : Leg) (p : Int) : Int :=
  sat32 (totalI ((l.tone.toList ++ l.fading ++ k.tone.toList ++ k.fading).map fun t => t.at_ p))

/-- The weight of the return mix at position p (R290). -/
def cascadeWeight (k : Conf) (p : Int) : Int :=
  match k.cascadeAt with
  | none => if k.cascade then unity else 0
  | some b =>
    let q := p - 48 * b
    if q < 0 then (if k.cascade then 0 else unity) else if k.cascade then fadeIn q.toNat else fadeOut q.toNat

/-- The return mix at position p: its term has gain 8.0 (R303). -/
def cascadeAt (s : State) (k : Conf) (p : Int) : Int :=
  if p < 0 then 0
  else match cascadeTerm s k (p / 48).toNat with
    | some r => at0 r (p % 48).toNat
    | none => 0

/-- Stage 7 of one channel: what the chain delivers, tones and the return mix, summed by R272. -/
def stage7 (s : State) (k : Conf) (l : Leg) (after n : Nat) (xs : List Int) : List Int :=
  let wait := 48 - after
  let useCascade := k.cascade || k.cascadeAt.isSome
  (List.range 48).map fun (i : Nat) =>
    let p : Int := 48 * n + i - wait
    narrow28 (unity * at0 xs i + unity * tonesAt k l p + (if useCascade then cascadeAt s k p * (8 * cascadeWeight k p) else 0))

/-- One block of a listener's mix, to the end of stage 7. -/
def mixBlock (conf n i : Nat) (s : State) : State :=
  match s.obj.outs.at? i with
  | none => s
  | some o => match o.audio, s.obj.legs.at? o.leg, s.obj.confs.at? conf with
    | some a, some l, some k =>
      let img := runsImage s conf
      let after := delayAfter img (limitOf s conf) o.decl
      let stereo := decide (o.decl.channels = 2)
      let cs := contributions k a (ownIns s o.leg l)
      let sel := (List.range (if stereo then 2 else 1)).map fun ch => selectChannel s img after n ch o l cs
      let (chain, s) := runInstance conf n 2 i [] [] sel s
      let ys := match chain with
        | some ys => ys.take sel.length
        | none => sel
      let ys := ys.map (stage7 s k l after n)
      let absent := k.cascade && cascadeAbsent s k n
      let s := if absent then countObj 0x0702 (outHandle s i) 5 1 s else s
      updSound i (fun a => match a.outPos with
        | none => { a with outPos := some (48 * n + 96), framePos := 48 * n + 96, std := ys }
        | some q =>
          let stop : Int := q + (a.std.headD []).length
          if stop = 48 * n + 96 ∧ a.std.length = ys.length then { a with std := (indexed ys).map fun (c, y) => a.std.getD c [] ++ y }
          else { a with outPos := some (48 * n + 96), framePos := 48 * n + 96, std := ys, frame := [] }) s
    | _, _, _ => s

/-! ### Stages 8 and 9 (R279, R282, R299) -/

/-- The Direct contributions of a listener at position p, in samples with weights (R281, R282). -/
def directAt (s : State) (img : Option (Handle × Image)) (o : OutStream) (l : Leg) (cs : List Contribution) (p : Int) : Int :=
  totalI (cs.map fun c => match soundAt s c.stream with
    | none => 0
    | some x => match x.audio with
      | none => 0
      | some a => if isDirect s img x a o l && !a.isOdd p then c.weight p * at0 (a.rawAt x.decl.codec p (codecStep x.decl.codec)) 0 else 0)

/-- Streams whose contribution to a listener takes the Direct path. -/
def directStreams (s : State) (img : Option (Handle × Image)) (o : OutStream) (l : Leg) (cs : List Contribution) : List Nat :=
  distinct (cs.filterMap fun c => match soundAt s c.stream with
    | some x => match x.audio with
      | some a => if isDirect s img x a o l then some c.stream else none
      | none => none
    | none => none)

/-- Finish a listener's output up to position `t`: at 48 kHz the limiter and then the conversion, or, with a Direct contribution, the conversion,
the Direct sum and the limiter at the sink rate. -/
def finishOut (conf : Nat) (t : Int) (i : Nat) (s : State) : State :=
  match s.obj.outs.at? i with
  | none => s
  | some o => match o.audio, s.obj.legs.at? o.leg, s.obj.confs.at? conf with
    | some a, some l, some k =>
      let img := runsImage s conf
      let set := limitOf s conf
      let codec := o.decl.codec
      let step := codecStep codec
      let q := a.outPos.getD 0
      let n := if t ≤ q then 0 else (t - q).toNat
      let n := if (a.std.headD []).length < n then (a.std.headD []).length else n
      let n := n / step * step
      let cs := contributions k a (ownIns s o.leg l)
      let direct := !(directStreams s img o l cs).isEmpty
      let run := fun (c : Nat) (xs : List Int) =>
        let look := a.look.getD c []
        let smooth := a.smooth.getD c 0
        let down := a.down.getD c []
        if direct then
          let ys := toSink codec down xs
          let zs := (List.range ys.length).map fun (j : Nat) => narrow28 (unity * at0 ys j + directAt s img o l cs (q + j * step - 24))
          let (out, w, sm, k) := limitRun set look smooth zs
          (out.map linear16, w, sm, lastN 48 (down ++ xs), k)
        else
          let (ys, w, sm, k) := limitRun set look smooth xs
          ((toSink codec down ys).map linear16, w, sm, lastN 48 (down ++ ys), k)
      if n = 0 then s
      else
        let rs := (indexed a.std).map fun (c, xs) => run c (xs.take n)
        let s := updSound i (fun a => { a with
          std := a.std.map fun c => c.drop n
          outPos := some (q + n)
          look := rs.map fun r => r.2.1
          smooth := rs.map fun r => r.2.2.1
          down := rs.map fun r => r.2.2.2.1
          frame := (indexed rs).map fun (c, r) => a.frame.getD c [] ++ r.1 }) s
        countObj 0x0702 (outHandle s i) 4 (total (rs.map fun r => r.2.2.2.2)) s
    | _, _, _ => s

/-- Finish and send what is due at position `t` in a conference. -/
def deliverConf (conf : Nat) (t : Int) (s : State) : State :=
  let s := (audioOuts s conf).foldl (fun s (x : Nat × OutStream × Leg) => finishOut conf (t + 24) x.1 s) s
  emitConf conf t s

/-! ### One block of a conference (R280, R295, Table 10-4) -/

/-- Inbound audio streams of the legs of a conference. -/
def soundIns (s : State) (conf : Nat) : List Nat :=
  s.obj.ins.live.filterMap fun (i, x) => if decide (x.decl.kind = 0) && !x.onTrunk && decide (confOfIn s x = some conf) then some i else none

/-- Freed audio sources of a conference that a mix or a select still names; the others are forgotten. -/
def goneIns (s : State) (conf : Nat) : List Nat := (s.media.gone.filter fun g => decide (g.conf = conf)).map fun g => g.id

/-- A mix or a select of the device still names the source. -/
def isNamed (s : State) (i : Nat) : Bool :=
  (s.obj.outs.live.any fun kv => (kv.2.audio.map fun a => a.terms.any fun t => decide (t.stream = i)).getD false) ||
  s.obj.confs.live.any fun kv => kv.2.selects.any fun m => decide (m.stream = some i) || m.trace.any fun x => decide (x.1 = some i)

/-- Forget the freed sources of a conference that no mix names any more. -/
def forgetGone (conf : Nat) (s : State) : State :=
  { s with media := { s.media with gone := s.media.gone.filter fun g => decide (g.conf ≠ conf) || isNamed s g.id } }

/-- Stages 1 to 5 of one stream. -/
def streamBlock (conf n i : Nat) (s : State) : State :=
  let (xs, s) := stages14 i n (runsImage s conf).isNone s
  let (ys, s) := runInstance conf n 1 i xs [] [] s
  let ys := (ys.bind fun y => y.head?).getD xs
  updAudio i (fun a => { a with block := lastN 240 (a.block ++ ys) }) s

/-- Opus packets of another duration that begin in block n of a stream with a Direct contribution (R281). -/
def countFallbacks (conf n : Nat) (s : State) : State :=
  match s.obj.confs.at? conf with
  | none => s
  | some k =>
    let img := runsImage s conf
    let ds := distinct ((audioOuts s conf).flatMap fun (_, o, l) => match o.audio with
      | some a => directStreams s img o l (contributions k a (ownIns s o.leg l))
      | none => [])
    ds.foldl (fun s i => match (soundAt s i).bind (·.audio) with
      | some a => countSound i 8 ((a.odd.filter fun o => decide (48 * (n : Int) ≤ o.1) && decide (o.1 < 48 * (n : Int) + 48)).length) s
      | none => s) s

/-- The tones that have faded out by block n. -/
def pruneTones (conf n : Nat) (s : State) : State :=
  let keep := fun (ts : List Tone) => ts.filter fun t => decide (n < t.edge + 3)
  let s := updConf conf (fun k => { k with fading := keep k.fading }) s
  (confLegs s conf).foldl (fun s (x : Nat × Leg) => updLeg x.1 (fun l => { l with fading := keep l.fading }) s) s

/-- The Accord work of a block is a task on its conference's flow (R379, R383, Table 14-2; DESIGN CHOICE that it is one task, log entry 160). -/
def blockTask (conf : Nat) (s : State) : State :=
  let t := passingTask (objRef 2 conf) .accord (Config.confCore conf / 16) 12 true false s
  if mayPass s t then throughOrgue t s else noteStall t s

/-- The parts of tick n that have rows of their own, for one inbound stream; each is done once (log entry 36). -/
def streamParts (n i : Nat) (s : State) : State := silenceStream i (moveDepth i n (updateLoudness i n s))

/-- The end of a tone at block n, or its cadence's next edge. -/
def toneParts (n : Nat) (h : Handle) (s : State) : State := edgeTone h n (expireTone h n s)

/-- The ranking that tick n decided, with its re-sort and its timeouts, gives the decisions for block n, once (R286). -/
def settleBlock (conf n : Nat) (s : State) : State :=
  match s.obj.confs.at? conf with
  | none => s
  | some k => if n < k.selEnd then s else decideBlock conf n (resortConf conf n (timeoutTalkers conf s))

/-- What tick n leaves to do in a conference before its block n is processed. -/
def tickParts (conf n : Nat) (s : State) : State :=
  let s := (soundIns s conf).foldl (fun s i => streamParts n i s) s
  let legs := (confLegs s conf).map fun l => handleOf s tyLeg l.1
  settleBlock conf n ((handleOf s tyConf conf :: legs).foldl (fun s h => toneParts n h s) s)

/-- Input block n of a conference, at tick n + 1: every stream, the conference section, the premix, every mix, and the frames due. -/
def blockConf (conf n : Nat) (s : State) : State :=
  match s.obj.confs.at? conf with
  | none => s
  | some k =>
    if n < k.block then s
    else
      let s := tickParts conf n (blockTask conf s)
      let s := (soundIns s conf ++ goneIns s conf).foldl (fun s i => streamBlock conf n i s) (forgetGone conf s)
      let talkers := k.ranking.map fun r => if r.leg.isSome then lastBlock s r.stream else silence 48
      let (_, s) := runInstance conf n 0 0 [] talkers [] s
      let s := premixStep conf n s
      let s := (audioOuts s conf).foldl (fun s (x : Nat × OutStream × Leg) => mixBlock conf n x.1 s) s
      let s := countFallbacks conf n s
      let s := endSwap conf (n + 1) (pruneTones conf n (updConf conf (fun k => { k with block := n + 1 }) s))
      deliverConf conf (48 * (n : Int) + 48) s

/-- AUDIO_BLOCK: input block n of a conference, unless it has been processed. -/
def execAudioBlock (conf n : Nat) (s : State) : Host.Outcome State Fault Refusal := done s (if taskRuns s n then blockConf conf n s else s)

/-! ### Ticks and half ticks (R282, R286, R412) -/

/-- Audio tick n: block n − 1 of every conference, rankings, and the swaps and return mixes that begin with block n. -/
def soundTick (n : Nat) (s : State) : State :=
  let confs := s.obj.confs.live.map (·.1)
  let s := confs.foldl (fun s c => blockConf c (n - 1) s) s
  confs.foldl (fun s c => switchCascade c n (beginSwap c n (rankConf c s))) s

/-- Some contribution on the device takes the Direct path. -/
def anyDirect (s : State) : Bool :=
  s.obj.confs.live.any fun (c, k) =>
    let img := runsImage s c
    (audioOuts s c).any fun (_, o, l) => match o.audio with
      | some a => !(directStreams s img o l (contributions k a (ownIns s o.leg l))).isEmpty
      | none => false

/-- Play the Direct streams of a conference up to position `t`. -/
def playDirect (conf m : Nat) (t : Int) (s : State) : State :=
  match s.obj.confs.at? conf with
  | none => s
  | some k =>
    let img := runsImage s conf
    let ds := distinct ((audioOuts s conf).flatMap fun (_, o, l) => match o.audio with
      | some a => directStreams s img o l (contributions k a (ownIns s o.leg l))
      | none => [])
    ds.foldl (fun s i => match soundAt s i with
      | some x => match x.audio with
        | some a =>
          let r := a.play x.decl (48 * m) t
          let s := countSound i 0 r.decoded (updAudio i (fun _ => r.audio) s)
          if r.concealed then countConcealed i m s else s
        | none => s
      | none => s) s

/-- The blocks of half tick m. -/
def halfBlocks (m : Nat) (s : State) : State :=
  let t : Int := 48 * m + 24
  let confs := s.obj.confs.live.map (·.1)
  let s := { s with media := { s.media with half := m } }
  let s := confs.foldl (fun s c => settleBlock c m s) s
  confs.foldl (fun s c => deliverConf c t (playDirect c m t s)) s

/-- Half tick m: the half block that ends at (2m + 1) × 0.5 ms on the Direct path. -/
def halfTick (m : Nat) : State → State := atPosition ((2 * m + 1) * 500000) (halfBlocks m)

/-- HALF_TICK: logged while any Direct contribution exists (R282). -/
def execHalfTick (m : Nat) (s : State) : Host.Outcome State Fault Refusal :=
  done s (if drivesPorts s && noseRuns s && !logBusy s && anyDirect s then halfTick m (logInput (.tick 1 0 m) s) else s)

end Sys2Proof.Machine
end

