-- ==== Sys2Proof/Machine/Mixes.lean ====
section
/-! DEFINITION. Commands on audio: MIX_CREATE, MIX_MODIFY, MIX_DESTROY, TONE_PLAY, TONE_STOP, ISOLATION_SET; and AUDIO_TICK (R283, R287, R293, R300,
R301, R412). -/

namespace Sys2Proof.Machine

/-! ### Listener mixes (R287, Table 10-5) -/

/-- The outbound audio stream of a leg. -/
def audioOutOf (s : State) (leg : Nat) : Option OutStream :=
  ((s.obj.legs.at? leg).bind fun l => (l.outs.filterMap s.obj.outs.at?).find? fun o => decide (o.decl.kind = 0))

/-- The mix that the parameters describe. -/
def mixAt (c : Cmd) (tenant conf : Nat) : Mix :=
  let f := c.u8 23
  { tenant := tenant, conf := conf, leg := hIndex (c.hdl 16), limit := c.u8 20, pan := decide (c.u8 21 = 1), binaural := decide (c.u8 22 = 1),
    noShare := bit f 0, noDirect := bit f 1 }

/-- Binaural instances in use, of 1,024. -/
def binaurals (s : State) : Nat := tcount s.obj.mixes.live fun _ m => m.binaural

def mixFields (s : State) (c : Cmd) : List Check :=
  [rangeAt c 20 1 1 16, rangeAt c 21 1 0 1, failIf (decide (1 < c.u8 22) || (decide (c.u8 22 = 1) && decide (c.u8 21 = 1))) stRange 22,
   notReadyAt s (decide (c.u8 22 = 1)) 22, reservedAt c 23 1 2, padAt c 24 4]

/-- State checks of the listener leg: of the conference, not draining, with an outbound audio stream, stereo where pan or binaural ask for it. -/
def mixStates (s : State) (c : Cmd) (conf : Nat) : List Check :=
  let h := c.hdl 16
  let leg := hIndex h
  let l := s.obj.legs.at? leg
  let mono := ((audioOutOf s leg).map fun o => decide (o.decl.channels = 1)).getD true
  [stateFail ((l.map fun l => decide (l.conf ≠ conf) || (l.state == .draining)).getD false) h, stateFail (audioOutOf s leg).isNone h,
   stateFail ((decide (c.u8 21 = 1) || decide (c.u8 22 = 1)) && mono) h]

/-- Reserve a mix object or its changed parameters: binaural instance and encodes (R287, R293). -/
def tryMix (conf : Nat) (s : State) : Adm := do
  need (decide (binaurals s ≤ 1024)) 0x0106
  settled [conf] s

/-- Every reservation of MIX_CREATE. -/
def tryMixCreate (c : Cmd) (s : State) : Except Nat (Nat × State) := do
  let conf := hIndex c.object
  match s.obj.mixes.next 8192 with
  | none => .error 0x0008
  | some i =>
    let s := setMixes (·.alloc 8192 (mixAt c c.fn.val conf)) s
    let s ← tryMix conf (updLeg (hIndex (c.hdl 16)) (fun l => { l with mix := some i }) s)
    .ok (i, s)

def ruleMixCreate : CmdRule where
  op := 0x0704
  logged := true
  plen := .fixed 12
  types := [tyConf]
  zeroFields c _ := [zeroAt c 20 1]
  handles c s := [handleAt s c [tyLeg] 16]
  fields c s := mixFields s c
  states c s := confClosing s c.object :: mixStates s c (hIndex c.object) ++
    [stateFail (((s.obj.legs.at? (hIndex (c.hdl 16))).bind (·.mix)).isSome) (c.hdl 16)]
  resources c s := [Adm.check (tryMixCreate c s)]
  effect c s :=
    match tryMixCreate c s with
    | .ok (i, t) => ({ res := [handleOf t tyMix i] }, t)
    | .error _ => ({}, s)

def execMixCreate (c : Cmd) (s : State) : Host.Outcome State Fault Refusal := issue ruleMixCreate c s

/-- The conference of the mix object that a command names. -/
def mixConf (c : Cmd) (s : State) : Nat := ((s.obj.mixes.at? (hIndex c.object)).map (·.conf)).getD 0

/-- Every reservation of MIX_MODIFY. -/
def tryMixModify (c : Cmd) (s : State) : Adm :=
  tryMix (mixConf c s) (updMix (hIndex c.object) (fun m => mixAt c m.tenant m.conf) s)

/-- MIX_MODIFY: the listener leg stays the mix's own; another leg is refused (DEDUCED, log entry 59). -/
def ruleMixModify : CmdRule where
  op := 0x0705
  logged := true
  plen := .fixed 12
  types := [tyMix]
  zeroFields c _ := [zeroAt c 20 1]
  handles c s := [handleAt s c [tyLeg] 16]
  fields c s := mixFields s c
  states c s := mixStates s c (mixConf c s) ++
    [stateFail (((s.obj.mixes.at? (hIndex c.object)).map fun m => decide (m.leg ≠ hIndex (c.hdl 16))).getD false) (c.hdl 16)]
  resources c s := [Adm.check (tryMixModify c s)]
  effect c s :=
    match tryMixModify c s with
    | .ok t => ({}, t)
    | .error _ => ({}, s)

def execMixModify (c : Cmd) (s : State) : Host.Outcome State Fault Refusal := issue ruleMixModify c s

/-- MIX_DESTROY: the leg returns to the default mix. -/
def ruleMixDestroy : CmdRule where
  op := 0x0706
  logged := true
  types := [tyMix]
  effect c s :=
    let leg := ((s.obj.mixes.at? (hIndex c.object)).map (·.leg)).getD 0
    ({}, syncAudioQueues (mixConf c s) (freeMix leg s))

def execMixDestroy (c : Cmd) (s : State) : Host.Outcome State Fault Refusal := issue ruleMixDestroy c s

/-! ### Tones (R300, R301, Table 10-8) -/

/-- Clusters on which a tone on an object needs a generator. -/
def toneClusters (s : State) (h : Handle) : List Nat :=
  let outs := (audioOuts s (toneConf s h)).filter fun (_, _, l) => decide (hType h = tyConf) || l.outs.any fun i =>
    ((s.obj.legs.at? (hIndex h)).map fun m => m.outs.contains i).getD false
  distinct (outs.map fun (i, _, _) => (Config.audioCluster (2 * i + 1)).toNat)

/-- Generators in use on a cluster (R300). -/
def tonesOn (s : State) (n : Nat) : Nat :=
  let holds := fun (t : Option Tone) => ((t.map fun t => t.generators.contains n).getD false)
  tcount s.obj.legs.live (fun _ l => holds l.tone) + tcount s.obj.confs.live (fun _ k => holds k.tone)

/-- Start the tone that a command describes, in place of one that plays (R300, R301). -/
def startTone (c : Cmd) (s : State) : State :=
  let h := c.object
  let n := s.media.tick + 1
  let img := toneImage s (toneConf s h)
  let t : Tone := { table := c.u16 16, cadence := c.u16 18, level := c.u16 20, duration := c.u16 22, start := n,
                    freqs := (toneFreqs img (c.u16 16)).getD [], edge := n, generators := toneClusters s h }
  let s := endTone h n s
  if hType h = tyLeg then updLeg (hIndex h) (fun l => { l with tone := some t }) s else updConf (hIndex h) (fun k => { k with tone := some t }) s

/-- Every reservation of TONE_PLAY: a generator on each cluster, and the encode of a mix that could share (R293, R300). -/
def tryTone (c : Cmd) (s : State) : Adm := do
  let s := startTone c s
  need ((toneClusters s c.object).all fun n => decide (tonesOn s n ≤ 64)) 0x0106
  settled [toneConf s c.object] s

/-- A tone or cadence number of Table 10-8. -/
def toneNumber (c : Cmd) (off last : Nat) : Check :=
  let x := c.u16 off
  failIf (decide (last < x) && !(decide (0x100 ≤ x) && decide (x ≤ 0x1FF))) stRange off

def ruleTonePlay : CmdRule where
  op := 0x0707
  logged := true
  plen := .fixed 8
  types := [tyLeg, tyConf]
  fields c _ := [toneNumber c 16 0x15, toneNumber c 18 5, rangeAt c 20 2 0 900]
  states c s :=
    let leg := hType c.object == tyLeg
    let img := toneImage s (toneConf s c.object)
    [if leg then legDraining c s else confClosing s c.object, stateFail (leg && (audioOutOf s (hIndex c.object)).isNone) c.object,
     stateFail ((toneFreqs img (c.u16 16)).isNone || (cadenceOf img (c.u16 18)).isNone) c.object]
  resources c s := [Adm.check (tryTone c s)]
  effect c s :=
    match tryTone c s with
    | .ok t => ({}, t)
    | .error _ => ({}, s)

def execTonePlay (c : Cmd) (s : State) : Host.Outcome State Fault Refusal := issue ruleTonePlay c s

/-- TONE_STOP; an object on which no tone plays stays as it is. -/
def ruleToneStop : CmdRule where
  op := 0x0708
  logged := true
  types := [tyLeg, tyConf]
  states c s := [stateFail (handleGoing s c.object) c.object]
  effect c s :=
    if (toneOn s c.object).isNone then ({ status := stNoop }, s)
    else ({}, syncAudioQueues (toneConf s c.object) (endTone c.object (s.media.tick + 1) s))

def execToneStop (c : Cmd) (s : State) : Host.Outcome State Fault Refusal := issue ruleToneStop c s

/-! ### Voice isolation (R283) -/

/-- Isolation instances in use, of 2,048. -/
def isolations (s : State) : Nat := tcount s.obj.ins.live fun _ x => (x.audio.map (·.isolated)).getD false

def isIsolated (s : State) (i : Nat) : Bool := (((s.obj.ins.at? i).bind (·.audio)).map (·.isolated)).getD false

/-- ISOLATION_SET; a stream that is not audio is refused (DEDUCED, log entry 59). -/
def ruleIsolationSet : CmdRule where
  op := 0x0709
  logged := true
  plen := .fixed 4
  types := [tyIn]
  fields c s := [rangeAt c 16 4 0 1, notReadyAt s (decide (c.u32 16 = 1)) 16]
  states c s := [streamDraining c s, stateFail (((s.obj.ins.at? (hIndex c.object)).bind (·.audio)).isNone) c.object]
  resources c s := [noResource (decide (c.u32 16 = 1) && !isIsolated s (hIndex c.object) && decide (2048 ≤ isolations s)) 0x0106]
  effect c s :=
    let on := decide (c.u32 16 = 1)
    if isIsolated s (hIndex c.object) = on then ({ status := stNoop }, s)
    else ({}, updAudio (hIndex c.object) (fun a => { a with isolated := on, isoFrom := s.media.tick + 1 }) s)

def execIsolationSet (c : Cmd) (s : State) : Host.Outcome State Fault Refusal := issue ruleIsolationSet c s

/-! ### Audio ticks (R286, R412) -/

/-- Tick n passes, and draining legs age (R48, R411). -/
def ageTick (n : Nat) (s : State) : State :=
  let s := { s with media := { s.media with tick := n } }
  setLegs (fun t => { t with live := tmap t.live fun _ l => if l.state = .draining then { l with drainTicks := l.drainTicks + 1 } else l }) s

/-- The parts of tick n that no row has done by the next tick: reports and return mixes of conferences, what video sources ask for again or give up,
and the ends of drains (log entry 36). -/
def finishTick (n : Nat) (s : State) : State :=
  let s := s.obj.confs.live.foldl (fun s (kv : Nat × Conf) =>
    let s := reportTalkers kv.1 n s
    if 26 ≤ n then sendReturns kv.1 (n - 26) s else s) s
  let s := (s.obj.ins.live.filter fun kv => decide (kv.2.decl.kind = 1)).foldl (fun s (kv : Nat × InStream) =>
    repeatKey kv.1 (repeatNacks kv.1 n (owedRequests kv.1 (abandonSource kv.1 s)))) s
  (s.obj.legs.live.filter fun kv => kv.2.state == .draining).foldl (fun s (kv : Nat × Leg) => endDrain kv.1 s) s

/-- Trunks that have sent or heard nothing for their time at a tick (R60). -/
def trunkParts (s : State) : State := s.obj.trunks.live.foldl (fun s (kv : Nat × Trunk) => loseTrunk kv.1 (keepAlive kv.1 s)) s

/-- What audio tick n does besides the rows that stand for its parts (log entry 36): draining legs age, blocks and rankings, held pictures, first
NACKs and owed key requests of every source, and silent trunks; before that, what the tick before it has left. -/
def audioTick (n : Nat) (s : State) : State :=
  atPosition (n * 1000000) (fun s =>
    let s := soundTick n (ageTick n (finishTick s.media.tick s))
    trunkParts ((s.obj.ins.live.filter fun kv => decide (kv.2.decl.kind = 1)).foldl (fun s (kv : Nat × InStream) =>
      owedRequests kv.1 (firstNacks kv.1 n (releaseAt kv.1 s))) s)) s

/-- AUDIO_TICK: ACTIVE logs tick n; numbers only rise. A WITHDRAWN device processes no media, and only its draining legs age (Table 16-1). -/
def execAudioTick (n : Nat) (s : State) : Host.Outcome State Fault Refusal :=
  done s (if ¬ noseRuns s ∨ n ≤ s.media.tick ∨ logBusy s then s
    else if drivesPorts s then audioTick n (logInput (.tick 0 0 n) (basePoint s))
    else if s.twin.state = .withdrawn then ageTick n s else s)

end Sys2Proof.Machine
end

