-- ==== Sys2Proof/Machine/Ingress.lean ====
section
/-! DEFINITION. From the parser to the consumers, and from Attar to the port: classification of logged frames, the ingress and egress ends of
Attar, and injected packets (R10-R13, R39-R45, R58-R60, R76, R77, R99, R105, R127, R133, R180, R433, R499). -/

namespace Sys2Proof.Machine

/-! ### Datagrams -/

/-- A UDP datagram of a frame. -/
structure Datagram where
  src : List Byte
  dst : List Byte
  sport : Nat
  dport : Nat
  v6 : Bool
  dscp : Nat
  payload : List Byte
  deriving DecidableEq, Repr

/-- The UDP payload behind a header at o, by the header's length field. -/
def udpData (f : List Byte) (o : Nat) : List Byte := (f.drop (o + 8)).take (beAt f (o + 4) 2 - 8)

/-- The IPv4 or IPv6 UDP datagram of a frame without FCS; a later fragment has no UDP header. -/
def datagramOf (f : List Byte) : Option Datagram :=
  let l := etherOff f + 2
  match udpOff f with
  | some o =>
    if beAt f (l + 6) 2 % 8192 ≠ 0 then none
    else some { src := slice f (l + 12) 4, dst := slice f (l + 16) 4, sport := beAt f o 2, dport := beAt f (o + 2) 2, v6 := false,
                dscp := beAt f (l + 1) 1 / 4, payload := udpData f o }
  | none => (udpOff6 f).map fun o =>
    { src := slice f (l + 8) 16, dst := slice f (l + 24) 16, sport := beAt f o 2, dport := beAt f (o + 2) 2, v6 := true,
      dscp := beAt f l 2 / 64 % 64, payload := udpData f o }

/-- The datagram comes from the remote side of a transport to its local side (R40). -/
def Transport.matches (t : Transport) (d : Datagram) : Bool :=
  let n := if d.v6 then 16 else 4
  t.v6 == d.v6 && decide (t.lport = d.dport) && decide (t.rport = d.sport) && t.laddr.take n == d.dst && t.raddr.take n == d.src

/-- The leg (false) or trunk (true) whose transport a datagram matches (R40); a trunk packet comes to the device's trunk port (R58; DEDUCED, log entry
141). -/
def classifyTo (s : State) (d : Datagram) : Option (Bool × Nat) :=
  match tfind s.obj.legs.live fun _ l => l.transport.matches d with
  | some (i, _) => some (false, i)
  | none =>
    if d.dport ≠ s.media.trunkPort then none else (tfind s.obj.trunks.live fun _ t => t.transport.matches d).map fun (i, _) => (true, i)

/-! ### Exception rings (R44, R45, R99, R105) -/

/-- Arrival of a frame in whole ns. -/
def RxFrame.ns (r : RxFrame) : Nat := r.stamp / 65536

/-- The frame without its FCS; a truncated frame as it is held. -/
def RxFrame.body (r : RxFrame) : List Byte := if r.err then r.bytes else r.bytes.take (r.bytes.length - 4)

/-- A packet to an extraction ring of a tenant; a device that follows a log delivers nothing (R502). -/
def toRing (tenant ring kind : Nat) (err : Bool) (obj : Handle) (time : Nat) (pkt : List Byte) (s : State) : State :=
  if followsLog s then s else extract tenant ring kind err obj time pkt s

/-- One more frame of a second, at most 10,000: whether it is within the limit, the second and the count. A second is a whole one of the arrival stamp
(DESIGN CHOICE, log entry 158). -/
def perSecond (sec count now : Nat) : Bool × Nat × Nat :=
  let c := if sec = now then count else 0
  (decide (c < 10000), now, if c < 10000 then c + 1 else c)

/-- A frame that is neither MAC control, taken PTP nor UDP: to tenant 0's exception ring as KIND 2, at most 10,000 frames per second and port
(R99). The frame is delivered without its FCS (DESIGN CHOICE, log entry 60). Whether it goes anywhere is the first part of the answer, here and below. -/
def exceptionFrame (r : RxFrame) (s : State) : Bool × State :=
  if followsLog s then (false, s)
  else
    let p := r.port.val
    let ring := ((tenantOf s 0).map (·.excRing)).getD 0
    if ring = 0 then (false, count1 (portCtr p 0x170) s)
    else
      let x := portOf s p
      let (ok, sec, n) := perSecond x.excSec x.excCount (r.ns / 1000000000)
      let s := modPort p (fun x => { x with excSec := sec, excCount := n }) s
      (ok, if ok then extract 0 ring 2 r.err 0 r.ns r.body s else count1 (portCtr p 0x170) s)

/-- The tenant whose local address the datagram's destination is (R33). -/
def addrTenant (s : State) (d : Datagram) : Option (Nat × Tenant) :=
  let n := if d.v6 then 16 else 4
  tfind s.obj.tenants.live fun _ t => t.addrs.any fun a =>
    a.v6 == d.v6 && a.ip.take n == d.dst && decide (a.first ≤ d.dport) && decide (d.dport ≤ a.last)

/-- The datagram is for a local address of a tenant with the unmatched-STUN option, and its first byte says STUN (R44). -/
def unmatchedStun (s : State) (d : Datagram) : Option (Nat × Tenant) :=
  if d.payload.isEmpty ∨ 3 < beAt d.payload 0 1 then none
  else (addrTenant s d).bind fun (i, t) => if t.unmatchedStun ∧ t.excRing ≠ 0 then some (i, t) else none

/-- Unmatched STUN to the tenant's exception ring as KIND 4, whole frame, at most 10,000 per second (R44; DESIGN CHOICE, log entry 60). -/
def deliverStun (i : Nat) (t : Tenant) (r : RxFrame) (s : State) : Bool × State :=
  if followsLog s then (false, s)
  else
    let (ok, sec, n) := perSecond t.stunSec t.stunCount (r.ns / 1000000000)
    let s := updTenant i (fun t => { t with stunSec := sec, stunCount := n, stunExcess := if ok then t.stunExcess else t.stunExcess + 1 }) s
    (ok, if ok then extract i t.excRing 4 r.err 0 r.ns r.body s else s)

/-- A frame of a port that no object takes: counted for the port as errored or as without a match. The ports of a follower did not receive the
frames of the log, and count none of them (R502). -/
def lostAtPort (err : Bool) (r : RxFrame) (s : State) : State :=
  if followsLog s then s
  else modPort r.port.val (fun x => if err then { x with errored := x.errored + 1 } else { x with noMatch := x.noMatch + 1 }) s

/-- A datagram that matches no transport entry (R44, R105): counted for its port and dropped, unless it is unmatched STUN. -/
def noTransport (d : Datagram) (r : RxFrame) (s : State) : Bool × State :=
  match unmatchedStun s d with
  | some (i, t) => deliverStun i t r s
  | none => (false, lostAtPort r.err r s)

/-! ### Legs (Table 02-8, Table 02-9) -/

/-- The inbound stream of a leg or trunk that declares an SSRC. -/
def streamOfSsrc (s : State) (ins : List Nat) (ssrc : Word) : Option Nat :=
  if ssrc = 0 then none
  else ins.find? fun i => ((s.obj.ins.at? i).map fun x => x.decl.allSsrcs.contains ssrc).getD false

/-- A packet for Attar under a slot (R137). -/
def queueIn (kind : InKind) (owner : Nat) (slot : Handle) (ssrc : Word) (stream : Option Nat) (held : Bool) (payload : List Byte) (r : RxFrame)
    (s : State) : State :=
  { s with media := { s.media with inQ := s.media.inQ ++
    [{ kind := kind, owner := owner, slot := hIndex slot, ssrc := ssrc, stream := stream, payload := payload, arrival := r.ns,
       frameLen := r.wire, held := held, bufs := r.bufs }] } }

/-- SRTP and SRTCP of a leg: counted and dropped in PENDING and DRAINING; else to Attar (R42, R43, Table 02-9). -/
def legMedia (leg : Nat) (l : Leg) (p : List Byte) (r : RxFrame) (s : State) : Bool × State :=
  if l.state = .pending ∨ l.state = .draining then (false, updLeg leg (fun l => { l with dropped := l.dropped + 1 }) s)
  else
    let held := l.state == .held
    let pt := beAt p 1 1
    if 192 ≤ pt ∧ pt ≤ 223 then
      let ssrc := BitVec.ofNat 32 (beAt p 4 4)
      (true, queueIn .srtcp leg l.rtcpIn ssrc (streamOfSsrc s l.ins ssrc) held p r s)
    else
      let ssrc := BitVec.ofNat 32 (beAt p 8 4)
      match streamOfSsrc s l.ins ssrc with
      | none => (false, updLeg leg (fun l => { l with unknownSsrc := l.unknownSsrc + 1 }) s)
      | some i =>
        let slot := ((s.obj.ins.at? i).map (·.decl.slot)).getD 0
        (true, queueIn .srtp leg slot ssrc (some i) held p r s)

/-- A policed datagram of a leg by its first byte (Table 02-8). An errored one reaches only a control ring (R105). -/
def legDatagram (leg : Nat) (d : Datagram) (r : RxFrame) (s : State) : Bool × State :=
  match s.obj.legs.at? leg with
  | none => (false, s)
  | some l =>
    let b := if d.payload.isEmpty then 256 else beAt d.payload 0 1
    let control := decide (b ≤ 3) || (decide (20 ≤ b) && decide (b ≤ 63))
    let lost := (false, updLeg leg (fun l => if r.err then { l with errored := l.errored + 1 } else { l with unclassified := l.unclassified + 1 }) s)
    if control then
      if l.transport.ctrl = 0 then lost else (true, toRing l.tenant l.transport.ctrl 3 r.err (handleOf s tyLeg leg) r.ns d.payload s)
    else if r.err then lost
    else if 128 ≤ b ∧ b ≤ 191 then legMedia leg l d.payload r s
    else lost

/-! ### Trunks (R58, R59) -/

/-- Fields of a trunk header (Table 02-13). -/
def trunkType (p : List Byte) : Nat := beAt p 0 1 % 16
def trunkFlags (p : List Byte) : Nat := beAt p 1 1
def trunkHops (p : List Byte) : Nat := beAt p 3 1
def trunkDev (p : List Byte) : Nat := beAt p 4 2 / 16
def trunkConf (p : List Byte) : Nat := beAt p 8 3
def trunkSeq (p : List Byte) : Nat := beAt p 12 4
def trunkLeg (p : List Byte) : Nat := beAt p 16 4 / 128
def trunkTick (p : List Byte) : Nat := beAt p 20 4

/-- The checks of R59 that a datagram passes before decryption. -/
def trunkOk (s : State) (p : List Byte) : Bool :=
  let ty := trunkType p
  let hlen := beAt p 2 1
  decide (beAt p 0 1 / 16 = 1) && decide (ty ≤ 4) && decide (6 ≤ hlen) && decide (trunkFlags p % 16 = 0) && decide (beAt p 5 1 % 16 = 0) &&
  decide (beAt p 11 1 = 0) && decide (beAt p 19 1 % 8 = 0) && decide (beAt p 6 2 + 4 * hlen + 16 = p.length) &&
  decide (trunkDev p ≠ s.media.deviceId.toNat) &&
  (if ty = 4 then decide (trunkConf p = 0xFFFFFF) else (confOfGconf s (trunkConf p)).isSome)

def dropTrunk (i : Nat) : State → State := updTrunk i fun t => { t with drops := t.drops + 1 }

/-- A policed datagram of a trunk: to Attar under the receiving slot that its phase bit selects (R59, R145). -/
def trunkDatagram (i : Nat) (p : List Byte) (r : RxFrame) (s : State) : Bool × State :=
  match s.obj.trunks.at? i with
  | none => (false, s)
  | some t =>
    if r.err then (false, lostAtPort true r s)
    else if trunkOk s p then (true, queueIn .trunk i (t.rx.getD (trunkFlags p / 128) 0) 0 none false p r s)
    else (false, dropTrunk i s)

/-! ### PARSE_FRAME (R99) -/

/-- A datagram: classified, policed by its leg or trunk and its tenant, and taken on by its kind (R146). A WITHDRAWN device processes no media
(Table 16-1). -/
def takeDatagram (d : Datagram) (r : RxFrame) (s : State) : Bool × State :=
  match classifyTo s d with
  | none => noTransport d r s
  | some (trunk, i) =>
    if s.twin.state = .withdrawn then (false, s) else
    let (pass, s) := police trunk i d.dscp r.ns (if r.err then r.bytes.length else r.wire) s
    if ¬ pass then (false, s) else if trunk then trunkDatagram i d.payload r s else legDatagram i d r s

/-- The parser classifies one logged frame. The Time Unit of a device that follows a log takes none (R414). -/
def classifyRx (r : RxFrame) (s : State) : Bool × State :=
  let f := r.body
  match ptpTaken s.tim f with
  | some o =>
    if r.err then (false, lostAtPort true r s)
    else if followsLog s then (false, s) else (true, takePtp r.port.val r.stamp o f s)
  | none =>
    match (if isPtp f then none else datagramOf f) with
    | some d => takeDatagram d r s
    | none => exceptionFrame r s

/-- The parser is done with a frame in the buffers of a receive queue, if it came by one. It reads one that goes on to its end, and one that it drops no further
than its headers; buffers that go on to Attar are handed over, others are freed (R346, R354). -/
def settleFrame (queue : Option Nat) (bufs : List Word) (goesOn : Bool) (attar : Bool) (s : State) : State :=
  let n := bufs.length
  let hand : Option Nat := if attar then some 0x10 else none
  match queue, bufs with
  | _, [] => s
  | none, _ => bufs.foldl (fun s h => freeBuffer 0x20 h hand s) s
  | some q, b :: _ =>
    if goesOn ∨ n = 1 then bufs.foldl (fun s h => freeBuffer 0x20 h hand s) (takeEntries q n s)
    else discardRest q (freeBuffer 0x20 b none (readQueue q s))

/-- A logged frame at its log position, its arrival (R427). -/
def parseRx (queue : Option Nat) (r : RxFrame) : State → State := atPosition r.ns fun s =>
  let (goesOn, t) := classifyRx r s
  settleFrame queue r.bufs goesOn (decide (s.media.inQ.length < t.media.inQ.length)) t

/-- PARSE_FRAME: the parser takes the oldest frame of a port's receive queue, on a logging device only once it is logged, and in log order
(R343, R427). -/
def parseNext (p : Nat) (s : State) : State :=
  match (portOf s p).rx with
  | [] => s
  | r :: rest =>
    if followsLog s ∨ s.twin.state = .faultStop ∨ (s.twin.logging ∧ (¬ r.logged ∨ s.twin.parseOrder.head? ≠ some p)) then s
    else parseRx (queueOf s (objRef 0 p) 0) r
      (setTwin (fun t => { t with parseOrder := t.parseOrder.drop 1 }) (modPort p (fun x => { x with rx := rest }) s))

/-! ### ATTAR_INGRESS: what becomes of an authenticated packet -/

/-- An authenticated RTP packet of a stream at its consumers: host route, decode and forwarding, or playout (R12, R13, R457, R499). -/
def takeRtp (i : Nat) (len arrival : Nat) (held : Bool) (rtp : List Byte) (mk : InStream → Nat → List Byte → SrcPkt) (s : State) : State :=
  match s.obj.ins.at? i with
  | none => s
  | some x =>
    if held then s
    else
      let s := match x.route with
        | some (ring, _) => toRing x.tenant ring 0 false (handleOf s tyIn i) arrival rtp s
        | none => s
      let divert := (x.route.map (·.2)).getD false
      if divert then s
      else match x.decl.kind with
        | 0 =>
          let p := (restoreRtx x.decl rtp).getD rtp
          if beAt p 8 4 = (x.decl.ssrcs.getD 0 0).toNat then takeAudio i arrival p s else s
        | 1 => if inBlotter s then countDec i 4 0 s else takeVideo i len arrival rtp (mk x) s
        | _ => s

/-- An authenticated RTCP packet of a leg: to the route of the stream that sent it, and to the leg (R43, R154, R164, R499). -/
def takeLegRtcp (p : InPkt) (plain : List Byte) (s : State) : State :=
  match p.stream.bind s.obj.ins.at?, p.stream with
  | some x, some i =>
    let s := match x.route with
      | some (ring, _) => toRing x.tenant ring 1 false (handleOf s tyIn i) p.arrival plain s
      | none => s
    if (x.route.map (·.2)).getD false then s else takeRtcp p.owner plain p.arrival s
  | _, _ => takeRtcp p.owner plain p.arrival (updLeg p.owner (fun l => { l with unknownSender := l.unknownSender + 1 }) s)

/-- An authenticated datagram keeps its trunk up and shows missing TSEQ values, for each key phase alone (R60, R145). A value counts as missing at
the gap, and one that comes late is not taken back (DESIGN CHOICE, log entry 151). -/
def noteTrunk (i : Nat) (p : InPkt) (s : State) : State :=
  match s.obj.trunks.at? i with
  | none => s
  | some t =>
    let phase := trunkFlags p.payload / 128
    let seq := trunkSeq p.payload
    let (last, miss) := match t.rxSeq.getD phase none with
      | some x =>
        let d := (seq + 2 ^ 32 - x) % 2 ^ 32
        if 0 < d ∧ d < 2 ^ 31 then (seq, d - 1) else (x, 0)
      | none => (seq, 0)
    let s := updTrunk i (fun t => { t with
      lastAuth := p.arrival, down := false, rxSeq := modAt t.rxSeq phase fun _ => some last, lost := t.lost + miss }) s
    if t.down then postEvent t.tenant evTrunkUp (handleOf s tyTrunk i) t.peer 0 0 s else s

/-- The remote source that a TYPE 0 packet names by GLEG and SSRC; one that has not been heard yet is known by its SSRC (R180, log entry 61). -/
def remoteSource (s : State) (t : Trunk) (gleg : Nat) (ssrc : Word) : Option Nat :=
  let has := fun (g i : Nat) => ((s.obj.ins.at? i).map fun x => decide (x.gleg = g) && x.decl.allSsrcs.contains ssrc).getD false
  (t.ins.find? (has gleg)).orElse fun _ => t.ins.find? (has 0)

/-- The header of a received datagram (Table 02-13). -/
def trunkHdr (h : List Byte) : TrunkHdr :=
  { ty := trunkType h, flags := trunkFlags h, hops := trunkHops h, dev := some (trunkDev h), gconf := trunkConf h, gleg := trunkLeg h,
    note := beAt h 19 1 / 32 % 4, tl := beAt h 19 1 / 8 % 4, tick := trunkTick h }

/-- An authenticated trunk datagram by its TYPE (Table 02-14). One whose HOPS arrived at 0 is dropped and counted (R59). -/
def takeTrunk (i : Nat) (p : InPkt) (plain : List Byte) (s : State) : State :=
  match s.obj.trunks.at? i with
  | none => s
  | some t =>
    let s := noteTrunk i p s
    let h := p.payload
    let body := plain.drop (4 * beAt h 2 1)
    let gleg := trunkLeg h
    if trunkHops h = 0 then dropTrunk i s
    else match trunkType h with
      | 0 =>
        match remoteSource s t gleg (BitVec.ofNat 32 (beAt body 8 4)) with
        | none => count t.tenant (slgCtr t.tenant 0x38) 1 (dropTrunk i s)
        | some j =>
          let s := updIn j (fun x => { x with gleg := gleg, gconf := trunkConf h }) s
          takeRtp j p.frameLen p.arrival false body (fun _ k rtp => remotePkt j k (trunkHdr h) rtp p.arrival i) s
      | 1 => match confOfGconf s (trunkConf h) with
        | some c => takePremix c (trunkDev h) (trunkTick h) body s
        | none => s
      | 2 => match confOfGconf s (trunkConf h) with
        | some c => takeTalkers c (trunkDev h) body s
        | none => s
      | 3 => takeTrunkFeedback i (trunkHdr h) body s
      | _ => s

/-- An authenticated packet goes to its consumers. -/
def consumeIn (p : InPkt) (plain : List Byte) (s : State) : State :=
  match p.kind with
  | .trunk => takeTrunk p.owner p plain s
  | .srtcp => takeLegRtcp p plain s
  | .srtp => match p.stream with
    | some i => takeRtp i p.frameLen p.arrival p.held plain (fun x k rtp => localPkt x (isInner s x) i k rtp p.arrival) s
    | none => s

/-- Attar checks an ingress packet; only an authenticated one reaches its consumers (R133, R134). -/
def processIn (p : InPkt) (s : State) : State :=
  let (out, s) := openPkt p s
  match out with
  | some plain => consumeIn p plain s
  | none => s

/-! ### The tasks of Attar (R142, R378, R379, Table 14-2) -/

/-- The tasks of a packet under slot i on the flow of its leg or trunk: AES, and SHA-1 for profiles 0x01 and 0x02; empty when the packet is refused
(R386). -/
def attarTasks (s : State) (i : Nat) (onTrunk : Bool) (owner : Nat) (audio refused : Bool) : List TaskReq :=
  let sha : Bool := (((slotAt s i).bind fun k => k.key).map fun k => decide (k.profile.toNat ≤ 2)).getD false
  (if sha then [TargetKind.aes, .sha1] else [.aes]).map fun k =>
    passingTask (if onTrunk then objRef 0xA owner else objRef 3 owner) k 0 (if audio then 4 else 8) audio refused s

/-- Work is done in tasks that begin and end with it, or waits for a slot or a pipeline (R352, R379). -/
def withTasks (ts : List TaskReq) (work : State → State) (s : State) : State :=
  if ts.all (mayPass s) then work (ts.foldl (fun s t => throughOrgue t s) s) else ts.foldl (fun s t => noteStall t s) s

/-! ### The packet's buffers (R12, R134, R351, R354; log entry 163) -/

/-- The queues, with their kinds, and the owner IDs of the consumers of an authenticated packet: one Sillage forwarding entry, one decode engine, one Accord
cluster and one host ring at most (R12). -/
def consumersOf (s : State) (p : InPkt) : List (Nat × Nat × Nat) :=
  let sillage := (if p.kind = .trunk then objRef 0xA p.owner else objRef 3 p.owner, 3, 0x30)
  let source := if p.kind = .trunk ∧ trunkType p.payload = 0 then
      (s.obj.trunks.at? p.owner).bind fun t => t.ins.find? fun j => ((s.obj.ins.at? j).map fun x => decide (x.gleg = trunkLeg p.payload)).getD false
    else p.stream
  match source.bind fun i => (s.obj.ins.at? i).map fun x => (i, x) with
  | none => [sillage]
  | some (i, x) =>
    let ring := match x.route with
      | some (n, _) => if p.held then [] else [(ringRef x.tenant n, 4, 0x60)]
      | none => []
    if (x.route.map (·.2)).getD false then ring
    else if p.kind = .srtcp then ring ++ [sillage]
    else if p.held then []
    else match x.decl.kind with
      | 0 => ring ++ [(objRef 4 i, 2, 0x50 + (Config.audioCluster (2 * i)).toNat % 8)]
      | 1 => ring ++ (x.dec.map fun d => (objRef 4 i, 1, 0x40 + d.home.val)).toList ++ [sillage]
      | _ => ring

/-- The quarantine buffer of a packet that passed goes to its consumers: each is written an entry of its own and reads it, and the buffer returns with the
last of them (R12, R354). -/
def toConsumers (h : Word) (len : Nat) (p : InPkt) (cs : List (Nat × Nat × Nat)) (s : State) : State :=
  let obj := match p.stream with
    | some i => handleOf s tyIn i
    | none => handleOf s (if p.kind = .trunk then tyTrunk else tyLeg) p.owner
  let es := packetEntries [(h, len)] false obj p.arrival (logOrdinal s) ((flowFor s (if p.kind = .trunk then objRef 0xA p.owner else objRef 3 p.owner)).getD 0)
  let bit_ := fun (c : Nat × Nat × Nat) => 2 ^ (consumerBit c.2.2).getD 0
  let s := match cs with
    | [] => freeBuffer 0x10 h none s
    | [c] => freeBuffer 0x10 h (some c.2.2) s
    | _ => shareBuffer 0x10 h (BitVec.ofNat 4 (total (cs.map bit_))) s
  let qs := cs.map fun c => (queueOf s c.1 c.2.1, c.2.2)
  let each := fun (f : Nat → State → State) (s : State) => qs.foldl (fun s q => match q.1 with
    | some n => f n s
    | none => s) s
  qs.foldl (fun s q => freeBuffer q.2 h none s) (each (fun n => takeEntries n 1) (each (fun n => putPacket n es) s))

/-- The received buffers of a packet return; one that Attar refuses is read no further than its headers (R346). -/
def freeReceived (p : InPkt) (refused : Bool) (s : State) : State :=
  let s := if refused then count 0 (memCtr 0x210) (p.bufs.length - 1) s else s
  p.bufs.foldl (fun s h => freeBuffer 0x10 h none s) s

/-- The oldest ingress packet goes through Attar, at the logged time of its arrival: a task of its own, and for one that passes a quarantine buffer of its
plaintext's length (R134, R351). While it finds no task slot, pipeline or buffer, it waits (R352, R379). -/
def attarIn (s : State) : State :=
  match s.media.inQ with
  | [] => s
  | p :: rest =>
    let out := (openPkt p s).1
    let audio := ((p.stream.bind s.obj.ins.at?).map fun x => decide (x.decl.kind = 0)).getD false
    let run := withTasks (attarTasks s p.slot (p.kind == .trunk) p.owner audio out.isNone) fun s =>
      freeReceived p out.isNone (atTime p.arrival (inInput (processIn p)) { s with media := { s.media with inQ := rest } })
    match out with
    | none => run s
    | some plain =>
      match requestBuffer 8 (max plain.length 1) s with
      | (none, s) => s
      | (some h, t) =>
        let u := run t
        if u.media.inQ.length < s.media.inQ.length then toConsumers h plain.length p (consumersOf s p) u else freeBuffer 0x10 h none u

/-- Every ingress packet goes through Attar. -/
def attarAll (s : State) : State := (List.range s.media.inQ.length).foldl (fun s _ => attarIn s) s

/-! ### ATTAR_EGRESS (R127, R154, R433) -/

/-- The transport-wide sequence number that a packet carries. -/
def twsnOf (p : List Byte) : Nat :=
  if bit (beAt p 0 1) 4 then
    let at_ := 12 + 4 * (beAt p 0 1 % 16)
    let data := slice p (at_ + 4) (4 * beAt p (at_ + 2) 2)
    let prof := beAt p at_ 2
    if prof / 16 = 0x100 ∨ prof = 0xBEDE then
      match twsnPlace (decide (prof / 16 = 0x100)) Config.twccId.toNat (data.length + 1) 0 data with
      | some o => beAt data o 2
      | none => 0
    else 0
  else 0

/-- What the estimator records of a packet as it leaves: an RTP packet of a leg, or a trunk datagram by its TSEQ (R154, R178). -/
def sentOf (p : EgPkt) (payload : List Byte) (len : Nat) (ect : Bool) : Option (Bool × Nat × SentRtp) :=
  if p.raw ∨ p.rtcp then none
  else if p.onTrunk then
    some (true, p.owner, { twsn := trunkSeq payload % 65536, ssrc := 0, seq := trunkSeq payload % 65536, at_ := 0, bytes := len, ect := ect })
  else some (false, p.owner, { twsn := twsnOf p.plain, ssrc := p.ssrc, seq := beAt payload 2 2, at_ := 0, bytes := len, ect := ect })

/-- The frame of a finished payload: ECT(1) on every packet of a leg or trunk with L4S set, else Not-ECT (R154). -/
def frameOf (s : State) (p : EgPkt) (t : Transport) (payload : List Byte) : TxFrame :=
  let l4s := ((estOf s p.onTrunk p.owner).map fun e => e.flags.getLsbD 2).getD false
  { bytes := t.head (portOf s p.port.val).addr (b2n l4s) payload ++ payload, prio := t.prio, gate := t.prio, overGate := p.overGate, mark := some (p.streamId, p.number), ptp := none,
    tenant := p.tenant, est := sentOf p payload (t.frameLen payload.length) l4s }

/-- Bytes of the twin shadow egress buffer region (Table 01-9, R433). -/
def shadowRoom (s : State) : Nat := s.mem.partition.getD 6 0 * 1048576

/-- Discard the oldest shadow packets until the region holds them; how many (R433). -/
def trimShadow (room : Nat) : Nat → List Shadow → List Shadow × Nat
  | 0, l => (l, 0)
  | _, [] => ([], 0)
  | fuel + 1, e :: r =>
    if total ((e :: r).map (·.frame.bytes.length)) ≤ room then (e :: r, 0)
    else let (l, n) := trimShadow room fuel r; (l, n + 1)

/-- A packet that STANDBY produced: kept for a protected tenant unless ACTIVE has confirmed it (R433). -/
def keepShadow (p : EgPkt) (f : TxFrame) (s : State) : State :=
  if ¬ s.twin.prot ∨ ¬ tenantProtected s p.tenant ∨ p.number ≤ tgetD s.twin.confirmed p.streamId 0 then s
  else
    let l := s.twin.shadow ++ [{ stream := p.streamId, number := p.number, port := p.port, frame := f }]
    let (l, n) := trimShadow (shadowRoom s) l.length l
    count 0 (twnCtr 0x128) n (setTwin (fun t => { t with shadow := l, shadowBytes := total (l.map (·.frame.bytes.length)) }) s)

/-- ATTAR_EGRESS: the oldest scheduled packet gets its index and its ciphertext, in tasks of its own, and goes to its port, or to the shadow buffer. -/
def attarOut (s : State) : State :=
  match s.media.outQ with
  | [] => s
  | p :: rest =>
    let refused := (sealNow p s).1.isNone
    withTasks (attarTasks s (hIndex p.slot) p.onTrunk p.owner (p.cls == .audio) refused) (fun s =>
      let s := { s with media := { s.media with outQ := rest } }
      let (out, s) := sealNow p s
      match out, transportOf s p.onTrunk p.owner with
      | some payload, some t =>
        let f := frameOf s p t payload
        if followsLog s then keepShadow p f s else modPort p.port.val (fun x => { x with tx := x.tx ++ [f] }) s
      | _, _ => consumed p s) s

def execAttarEgress (s : State) : Host.Outcome State Fault Refusal := done s (attarOut s)

/-! ### Injection (R13, R76, R77, R89) -/

/-- The fields of an injection ring entry (Table 03-9). -/
def injLen (e : List Byte) : Nat := leAt e 8 4 % 65536
def injKind (e : List Byte) : Nat := bits (leAt e 8 4) 16 4
def injObj (e : List Byte) : Handle := BitVec.ofNat 32 (leAt e 12 4)

/-- The status that an entry would have, by the order of Table 03-13; none when it is accepted (R77). ERR, KIND 4, SEQ and PHASE belong to
extraction alone (DEDUCED, log entry 62). -/
def injectFault (s : State) (f : Nat) (e : List Byte) : Option Status :=
  if leAt e 8 4 / 2 ^ 20 ≠ 0 ∨ 3 < injKind e ∨ leAt e 24 8 ≠ 0 then some stFormat
  else if 16384 < injLen e then some stLength
  else if injLen e = 0 then some stZero
  else handleFault s f false [if injKind e = 3 then tyLeg else tyOut] (injObj e)

/-- The class of an outbound stream's packets (Table 06-5). -/
def outClass (d : StreamRec) (rtcp : Bool) : EgClass := if rtcp then .control else match d.kind with
  | 0 => .audio
  | 3 => .heart
  | _ => .base

/-- An injected packet at its log position: as if it came from the leg or stream that its entry names (R13); sent where the leg's state lets it
(Table 02-9). -/
def injectPacket (ring idx : Nat) (e pkt : List Byte) (s : State) : State :=
  let time := leAt e 16 8
  let mark := some (ring, idx)
  if injKind e = 3 then
    match (liveIndex s tyLeg (injObj e)).bind fun i => (s.obj.legs.at? i).map fun l => (i, l) with
    | some (i, l) =>
      if l.state = .draining then s
      else enterTx { legPkt i l .control 0 0 false pkt with raw := true, notBefore := time, inject := mark } s
    | none => s
  else
    match (liveIndex s tyOut (injObj e)).bind fun i => (s.obj.outs.at? i).map fun o => (i, o) with
    | some (i, o) =>
      match s.obj.legs.at? o.leg with
      | none => s
      | some l =>
        let rtcp := decide (injKind e = 1)
        if (if rtcp then l.sendsRtcp else l.sends) then
          let ssrc := if rtcp then l.rtcpSsrc else o.decl.ssrcs.getD 0 0
          let slot := if rtcp then l.rtcpOut else o.decl.slot
          enterTx { legPkt o.leg l (outClass o.decl rtcp) ssrc slot rtcp pkt with stream := some i, notBefore := time, inject := mark } s
        else s
    | none => s

/-- An injection ring from which an entry may be fetched. -/
def injectable (s : State) (f n : Nat) : Bool :=
  match ringOf s f n with
  | none => false
  | some r => r.state == .running && r.kind == .media && r.injection && decide (r.prod ≠ r.cons) && !(fnOf s f).d3hot && !(fnOf s f).flr

/-- The first of a function's injection rings in rotation after the one served last. -/
def injectRing (s : State) (f : Nat) : Option Nat :=
  let keys := ((fnOf s f).rings.map (·.1)).filter (injectable s f)
  (keys.find? fun n => decide ((fnOf s f).injTurn < n)).orElse fun _ => keys.head?

/-- The function and injection ring served next: round robin among functions, then among the rings of the function (R89). -/
def injectTurn (s : State) : Option (Nat × Nat) :=
  (rotate 64 s.hst.injFnTurn fun f => (injectRing s f).isSome).bind fun f => (injectRing s f).map fun n => (f, n)

/-- INJECTION_FETCH: one entry in the rotation of R89, checked (R77), logged and queued. A failed read of the ring is cause 3, of the writeback
cause 4 (Table 03-8). -/
def fetchInjection (dma : Dma) (s : State) : State :=
  if ¬ noseRuns s ∨ ¬ drivesPorts s ∨ logBusy s then s else
  match injectTurn s with
  | none => s
  | some (f, n) =>
    match ringOf s f n with
    | none => s
    | some r =>
      let s := { s with hst := { s.hst with injFnTurn := f } }
      let s := modFn f (fun p => { p with injTurn := n }) s
      if dma = .readFails then ringError f n 0x03 s
      else
        let e := hostRead (r.entryAddr r.cons) 32 s
        match injectFault s f e with
        | some st =>
          let s := advanceRing f n { r with skipped := r.skipped + 1 } s
          let s := if dma = .writeFails then ringError f n 0x04 s else s
          postEvent f evInjectError 0 n r.cons.toNat st.toNat (if st = stNotOwner then isoViolation f s else s)
        | none =>
          let pkt := hostRead (leAt e 0 8) (injLen e) s
          let s := advanceRing f n r s
          let s := if dma = .writeFails then ringError f n 0x04 s else s
          inInput (injectPacket n r.cons.toNat e pkt) (logInput (.inject f n ((List.range 8).map fun i => BitVec.ofNat 32 (leAt e (4 * i) 4)) pkt) s)

def execInjectionFetch (dma : Dma) (s : State) : Host.Outcome State Fault Refusal := done s (fetchInjection dma s)

end Sys2Proof.Machine
end

