-- ==== Sys2Proof/Machine/Hbm.lean ====
section
/-! DEFINITION. The HBM controllers: training, requests with error correction and poison, parity retries, disturbance mitigation, refresh and
self-refresh (chapter 13). -/

namespace Sys2Proof.Machine

/-! ### Stacks and pseudo-channels (R360) -/

/-- The pseudo-channel of an HBM address (Table 13-1). -/
def pcOfAddr (a : Nat) : Nat := 32 * bits a 14 2 + 2 * bits a 10 4 + bits a 9 1

def stackOf (s : State) (n : Nat) : Stack := tgetD s.hbm.stackTbl n {}
def pcOf (s : State) (p : Nat) : Pc := tgetD s.hbm.pcs p {}
def modStack (n : Nat) (f : Stack → Stack) (s : State) : State :=
  { s with hbm := { s.hbm with stackTbl := tput s.hbm.stackTbl n (f (stackOf s n)) } }
def modPc (p : Nat) (f : Pc → Pc) (s : State) : State := { s with hbm := { s.hbm with pcs := tput s.hbm.pcs p (f (pcOf s p)) } }

/-- The pseudo-channels of a stack. -/
def stackPcs (n : Nat) : List Nat := (List.range 32).map fun i => 32 * n + i

/-- A command enters the retry buffer, which keeps the last 64 (R366). -/
def noteCmd (n : Nat) (c : HbmCmd) : State → State := modStack n fun k => { k with retry := lastN 64 (k.retry ++ [c]) }

/-! ### Training (R363, R364, Table 13-2) -/

/-- The step at which training fails; none when it completes. -/
def trainFailure (r : TrainResult) : Option Nat :=
  if ¬ r.identityOk then some 1 else if ¬ r.calibrationOk then some 2
  else if r.caFails.any fun n => decide (1 < n) then some 3 else if r.dqFails.any fun n => decide (2 < n) then some 4
  else if ¬ r.patternOk then some 6 else none

/-- HBM_REPAIR_CA and HBM_REPAIR_DQ after lane repair. -/
def repairCa (r : TrainResult) : Nat := total ((indexed (r.caFails.take 16)).map fun cn => if cn.2 = 0 then 0 else 2 ^ cn.1)
def repairDq (r : TrainResult) : Nat := total ((indexed (r.dqFails.take 16)).map fun cn => (cn.2 % 4) * 4 ^ cn.1)

/-- HBM_TRAINING: once after a reset that re-initialises the interface; a stack in service is never retrained (R365). -/
def trainStack (n : Nat) (r : TrainResult) (s : State) : State :=
  let k := stackOf s n
  if s.mon.inReset ∨ k.trained ∨ k.trainFail then s
  else match trainFailure r with
    | some st => modStack n (fun k => { k with
        trainStep := st, trainFail := true
        repairCa := if 5 < st then BitVec.ofNat 16 (repairCa r) else 0, repairDq := if 5 < st then BitVec.ofNat 32 (repairDq r) else 0 }) s
    | none => modStack n (fun k => { k with
        trainStep := 7, trained := true, repairCa := BitVec.ofNat 16 (repairCa r), repairDq := BitVec.ofNat 32 (repairDq r) }) s

def execHbmTraining (stack : StackNo) (r : TrainResult) (s : State) : Host.Outcome State Fault Refusal := done s (trainStack stack.val r s)

/-! ### Disturbance mitigation (R369, R370) -/

/-- The seed of a pseudo-channel's generator. -/
def seedOf (lo hi : Word) (p : Nat) : Word :=
  let x := lo ^^^ hi.rotateLeft 7 ^^^ BitVec.ofNat 32 (p * 0x9E3779B9)
  if x = 0 then 1 else x

/-- The generator's next value. -/
def nextGenerator (x : Word) : Word :=
  let x := x ^^^ (x <<< 13)
  let x := x ^^^ (x >>> 17)
  x ^^^ (x <<< 5)

/-- A draw selects when its low LOG2N bits are 0. -/
def drawSelects (log2n : Nat) (x : Word) : Bool := decide (x.toNat % 2 ^ log2n = 0)

/-- An activate in a pseudo-channel: its generator draws, and a selected draw is counted and refreshes the neighbour rows. -/
def activateRow (p : Nat) (s : State) : State :=
  let x := nextGenerator ((pcOf s p).gen.getD (seedOf s.hbm.seedLo s.hbm.seedHi p))
  let s := noteCmd (p / 32) .activate (modPc p (fun c => { c with gen := some x }) s)
  if drawSelects s.hbm.log2n.toNat x then count1 (hbmCtr (p / 32) 0x34) (noteCmd (p / 32) (.refresh p) s) else s

/-- Seed every generator (R370). -/
def reseed (s : State) : State := (List.range 128).foldl (fun s p => modPc p (fun c => { c with gen := some (seedOf s.hbm.seedLo s.hbm.seedHi p) }) s) s

/-- HBM_MIT_SEED_WRITE: the seed applies at the write. -/
def execHbmMitSeedWrite (hi : Bool) (value : Word) (s : State) : Host.Outcome State Fault Refusal :=
  done s (reseed (if hi then { s with hbm := { s.hbm with seedHi := value } } else { s with hbm := { s.hbm with seedLo := value } }))

/-- HBM_REF_CTL_WRITE: POSTPONE, 9-15 sets 8 (Table 13-8); it acts at each pseudo-channel's next interval end. -/
def execHbmRefCtlWrite (value : Word) (s : State) : Host.Outcome State Fault Refusal :=
  let l := value.toNat % 16
  done s { s with hbm := { s.hbm with postpone := BitVec.ofNat 4 (if 8 < l then 8 else l) } }

/-- HBM_MIT_CTL_WRITE: LOG2N within 6-13 (Table 13-9); it acts at the next activate. -/
def execHbmMitCtlWrite (value : Word) (s : State) : Host.Outcome State Fault Refusal :=
  done s { s with hbm := { s.hbm with log2n := BitVec.ofNat 4 (clampN 6 13 (value.toNat % 16)) } }

/-! ### Errors (R362, R367, R368) -/

/-- A corrected error: counted, and at most one event per second and pseudo-channel with the corrections since the last. -/
def noteCorrected (p : Nat) (s : State) : State :=
  let s := count1 (hbmCtr (p / 32) 0x20) s
  let n := (pcOf s p).corrected + 1
  let due := match (pcOf s p).corrSec with
    | some t => decide (t + 1000000000 ≤ nowNs s)
    | none => true
  if due then postDevice evEccCorrected (0x100 + p) n (modPc p (fun c => { c with corrected := 0, corrSec := some (nowNs s) }) s)
  else modPc p (fun c => { c with corrected := n }) s

/-- A word that cannot be used any more: in the Absolute cache, region 4, the base entry there is invalid from now on (R235). -/
def spoilWord (a : Nat) (s : State) : State :=
  if s.mem.regionOf a = 4 then spoilBase ((a - s.mem.regionBase 4) / 65536) s else s

/-- EV_ECC_UNCORRECTABLE at an address. -/
def postUncorrectable (p a : Nat) (s : State) : State := postDevice evEccUncorrectable (0x100 + p) (a / 32) (spoilWord a s)

/-- A pseudo-channel or a whole stack fails: the fault path of Table 16-11. -/
def failPc (p : Nat) (s : State) : State :=
  let s := modStack (p / 32) (fun k => { k with pcFailed := true }) (modPc p (fun c => { c with failed := true }) s)
  escalate true (fun s => s) (postDevice evEccUncorrectable (0x100 + p) 0xFFFFFFFF s)

/-- The 32-byte units that a range of bytes touches. -/
def unitsOf (a len : Nat) : List Nat := (List.range ((a + len + 31) / 32 - a / 32)).map fun i => a / 32 + i

/-- Enter a unit in the poison list; a further entry beyond 256 fails the stack (R368). -/
def poisonUnit (p u : Nat) (s : State) : State :=
  let k := stackOf s (p / 32)
  if k.poison.contains u then s
  else if k.poison.length < 256 then modStack (p / 32) (fun k => { k with poison := k.poison ++ [u] }) s
  else failPc p (modStack (p / 32) (fun k => { k with poisonFull := true }) s)

/-- A read range touches a listed unit. -/
def isPoisoned (s : State) (a len : Nat) : Bool := (unitsOf a len).any (stackOf s (bits a 14 2)).poison.contains

/-! ### Requests (R361, R374, R375) -/

/-- A request reaches a pseudo-channel on its way into self-refresh or in it: the entry is abandoned, or the exit is counted (Table 13-5). -/
def wakePc (p : Nat) (s : State) : State :=
  let sr := (pcOf s p).sr
  if sr = 0 then s
  else if sr ≤ 2 then count1 (hbmCtr (p / 32) 0x40) (modPc p (fun c => { c with sr := 0 }) s)
  else count1 (hbmCtr (p / 32) 0x44) (modPc p (fun c => { c with sr := 0, debt := 0 }) (noteCmd (p / 32) (.refresh p) s))

/-- What a stack returned for a word: one wrong bit is corrected, more are not (R362). -/
def noteErrors (p a errorBits : Nat) (s : State) : State :=
  if errorBits = 0 then s
  else if errorBits = 1 then noteCorrected p s
  else postUncorrectable p a (count1 (hbmCtr (p / 32) 0x24) s)

/-- A read returned data marked as poison: outside the operator region it feeds output, and the fault is not absorbed (R446, Table 16-11). -/
def poisonRead (a : Nat) (s : State) : State := if s.mem.regionOf a < 8 then escalate false (fun s => s) s else s

def readHbm (a len errorBits : Nat) (s : State) : State :=
  let p := pcOfAddr a
  let listed := isPoisoned s a len
  let s := noteErrors p a errorBits (noteCmd (p / 32) (.read a) s)
  let s := if listed ∧ errorBits < 2 then spoilWord a (count1 (hbmCtr (p / 32) 0x24) s) else s
  let bad := listed || decide (2 ≤ errorBits)
  let s := { s with hbm := { s.hbm with lastData := mreadN s.hbm.mem a len, lastPoison := bad } }
  if bad then poisonRead a s else s

def writeHbm (a : Nat) (bs : List Byte) (s : State) : State :=
  let n := bits a 14 2
  let whole := fun (u : Nat) => decide (a ≤ 32 * u) && decide (32 * u + 32 ≤ a + bs.length)
  let s := noteCmd n (.write a bs.length) (modStack n (fun k => { k with poison := k.poison.filter fun u => !whole u }) s)
  { s with hbm := { s.hbm with mem := mwriteN s.hbm.mem a bs } }

/-- HBM_REQUEST: a request at a trained stack; it never changes what it reads or writes by when it is served. -/
def serveHbm (r : HbmReq) (s : State) : State :=
  let a := match r with
    | .read a _ _ _ => a.toNat
    | .write a _ _ => a.toNat
  let p := pcOfAddr a
  if ¬ (stackOf s (p / 32)).trained ∨ (pcOf s p).failed then s
  else
    let s := wakePc p s
    match r with
    | .read a len e act => readHbm a.toNat len e (if act then activateRow p s else s)
    | .write a bs act => writeHbm a.toNat bs (if act then activateRow p s else s)

def execHbmRequest (r : HbmReq) (s : State) : Host.Outcome State Fault Refusal := done s (serveHbm r s)

/-! ### Command/address parity (R366, R367) -/

/-- The second failure of a command in its replay (Table 13-3). -/
def failCmd (n : Nat) (c : HbmCmd) (s : State) : State :=
  match c with
  | .read a =>
    let s := postUncorrectable (pcOfAddr a) a (count1 (hbmCtr n 0x24) s)
    poisonRead a { s with hbm := { s.hbm with lastPoison := true } }
  | .write a len => postUncorrectable (pcOfAddr a) a ((unitsOf a len).foldl (fun s u => poisonUnit (pcOfAddr a) u s) s)
  | .refresh p => failPc p s
  | .activate => s

def HbmCmd.transfers : HbmCmd → Bool
  | .read _ => true
  | .write _ _ => true
  | .activate => false
  | .refresh _ => false

/-- CA_PARITY_ERROR: the first report is a retry; a second failure is handled by kind, an activate through the command that depended on it. -/
def parityError (n faulty : Nat) (again : Bool) (s : State) : State :=
  if ¬ again then count1 (hbmCtr n 0x28) s
  else
    let s := count1 (hbmCtr n 0x2C) s
    let l := (stackOf s n).retry
    match l[faulty]? with
    | some .activate => match (l.drop (faulty + 1)).find? HbmCmd.transfers with
      | some c => failCmd n c s
      | none => s
    | some c => failCmd n c s
    | none => s

def execCaParityError (stack : StackNo) (faulty : Nat) (again : Bool) (s : State) : Host.Outcome State Fault Refusal :=
  done s (parityError stack.val faulty again s)

/-! ### Refresh (R371-R373) -/

/-- The highest debt of a stack since the last read. -/
def noteDebt (p d : Nat) : State → State := modStack (p / 32) fun k => if k.maxDebt < d then { k with maxDebt := d } else k

/-- Issue n refreshes, and count those that go ahead of traffic. -/
def issueRefreshes (p n : Nat) (ahead : Bool) (s : State) : State :=
  if n = 0 then s
  else
    let s := modPc p (fun c => { c with debt := c.debt - n, refreshed := c.refreshed + n }) (noteCmd (p / 32) (.refresh p) s)
    if ahead then count 0 (hbmCtr (p / 32) 0x38) n s else s

/-- Bring the debt down to L, ahead of all traffic. -/
def pullIn (p : Nat) (s : State) : State := issueRefreshes p ((pcOf s p).debt - s.hbm.postpone.toNat) true s

/-- REFRESH_INTERVAL: the debt rises by 1, and refreshes are issued at once down to L. Nothing is owed before training or in self-refresh. -/
def intervalEnd (p : Nat) (s : State) : State :=
  if ¬ (stackOf s (p / 32)).trained ∨ (pcOf s p).sr = 4 then s
  else
    let d := (pcOf s p).debt + 1
    pullIn p (noteDebt p d (modPc p (fun c => { c with debt := d }) s))

def execRefreshInterval (pc : PcNo) (s : State) : Host.Outcome State Fault Refusal := done s (intervalEnd pc.val s)

/-- REFRESH_MAKEUP: owed refreshes are issued until d is 0. -/
def execRefreshMakeup (pc : PcNo) (s : State) : Host.Outcome State Fault Refusal :=
  done s (issueRefreshes pc.val (pcOf s pc.val).debt false s)

/-- The debt of a pseudo-channel as its stack enters or leaves doubled mode. -/
def recount (p : Nat) (doubled : Bool) (s : State) : State :=
  let d := (pcOf s p).debt
  let d := if doubled then (if 16 < 2 * d then 16 else 2 * d) else ceilDiv d 2
  let s := noteDebt p d (modPc p (fun c => { c with debt := d }) s)
  if doubled then pullIn p s else s

/-- HBM_TEMP_READ: doubled mode begins at the first reading of 85 °C or above and ends at the first below 82 °C. -/
def readTemp (n : Nat) (t : Byte) (s : State) : State :=
  let old := (stackOf s n).doubled
  let new := if old then decide (82 ≤ t.toNat) else decide (85 ≤ t.toNat)
  let s := modStack n (fun k => { k with temp := t, doubled := new }) s
  if old = new then s
  else
    let s := if new then count1 (hbmCtr n 0x3C) s else s
    (stackPcs n).foldl (fun s p => recount p new s) s

def execHbmTempRead (stack : StackNo) (temp : BitVec 8) (s : State) : Host.Outcome State Fault Refusal := done s (readTemp stack.val temp s)

/-- HBM_MAX_DEBT_READ: the read returns the highest debt and clears it (Table 13-7). -/
def execHbmMaxDebtRead (stack : StackNo) (s : State) : Host.Outcome State Fault Refusal :=
  done s (modStack stack.val (fun k => { k with maxDebt := 0 })
    { s with hst := { s.hst with lastRead := BitVec.ofNat 64 (stackOf s stack.val).maxDebt } })

/-! ### Scrubbing and self-refresh (R362, R374, R375) -/

/-- PATROL_SCRUB: the scrubber reads and corrects one word. -/
def execPatrolScrub (addr : BitVec 36) (errorBits : Nat) (s : State) : Host.Outcome State Fault Refusal :=
  let p := pcOfAddr addr.toNat
  done s (if (stackOf s (p / 32)).trained then noteErrors p addr.toNat errorBits s else s)

/-- SELF_REFRESH_ENTRY: the phases of Table 13-5 in order, in QUIESCE alone: precharge, debt paid, SRE, in self-refresh. -/
def enterSelfRefresh (p phase : Nat) (s : State) : State :=
  if ¬ s.mon.quiesce ∨ phase ≠ (pcOf s p).sr + 1 then s
  else
    let s := if phase = 2 then issueRefreshes p (pcOf s p).debt false s else if phase = 3 then noteCmd (p / 32) (.refresh p) s else s
    modPc p (fun c => { c with sr := phase }) s

def execSelfRefreshEntry (pc : PcNo) (phase : Fin 5) (s : State) : Host.Outcome State Fault Refusal :=
  done s (enterSelfRefresh pc.val phase.val s)

/-- SELF_REFRESH_EXIT: a request arrives. -/
def execSelfRefreshExit (pc : PcNo) (s : State) : Host.Outcome State Fault Refusal := done s (wakePc pc.val s)

end Sys2Proof.Machine
end

