-- ==== Sys2Proof/Machine/Bringup.lean ====
section
/-! DEFINITION. Bring-up, function-level reset, power states, health monitors, watchdog, firmware update and the debug lock (chapter 17). -/

namespace Sys2Proof.Machine

/-- What the Time Unit's counter shows in ms. -/
def counterMs (s : State) : Nat := s.tim.c / 1000000

def setMon (f : Mon → Mon) (s : State) : State := { s with mon := f s.mon }

/-! ### Boot and service (R452-R455) -/

/-- The boot ROM accepts an image (R453). -/
def imageGood (rollback : BitVec 16) (i : FlashImage) : Bool := i.signed && decide (rollback.toNat ≤ i.securityCounter.toNat)

/-- BOOT_VERIFY: the active slot is booted, the other one only when it fails; with neither, STAGE reads 0xF (R453). -/
def boot (a b : FlashImage) (s : State) : State :=
  if s.mon.bootStage ≠ 0 ∨ noseRuns s then s else
  let slot := fun (sel : Bool) => if sel then b else a
  let good := fun (sel : Bool) => imageGood s.mon.rollback (slot sel)
  let keep : FlashImage → FlashSlot := fun i => { valid := imageGood s.mon.rollback i, version := i.version, counter := i.securityCounter }
  let s := setMon (fun m => { m with flashA := keep a, flashB := keep b }) s
  let act := s.mon.activeB
  if good act ∨ good (!act) then
    let sel := if good act then act else !act
    let s := setMon (fun m => { m with bootStage := 3, slotB := sel, fallback := !good act }) s
    { s with nose := { s.nose with fwVersion := (slot sel).version, fwCounter := (slot sel).securityCounter } }
  else setMon (fun m => { m with bootStage := 0xF }) s

def execBootVerify (slotA slotB : FlashImage) (s : State) : Host.Outcome State Fault Refusal := done s (boot slotA slotB s)

/-- The queues that exist once for the device: port receive, Nose command and reply (Table 12-3; log entry 67). -/
def systemQueues (s : State) : State :=
  let m := (List.range 8).foldl (fun m p => createQueue (objRef 0 p) 0 m) s.mem
  { s with mem := (List.range 64).foldl (fun m i => createQueue (objRef 0 (8 + i)) 7 m) m }

/-- BLOTTER_SERVICE_START: Blotter service begins, and every held start of admin rings takes effect (R454). -/
def startBlotter (s : State) : State :=
  if s.mon.bootStage ≠ 3 ∨ noseRuns s then s else
  let s := setMon (fun m => { m with bootStage := 4 }) { s with nose := { s.nose with service := .blotter } }
  s.hst.fns.foldl (fun s (f, p) => match p.heldStart with
    | some a => startAdmin f a s
    | none => s) (systemQueues s)

def execBlotterServiceStart (s : State) : Host.Outcome State Fault Refusal := done s (startBlotter s)

/-- Every stack has trained (R364). -/
def allTrained (s : State) : Bool := (List.range 4).all fun n => (stackOf s n).trained

/-- FULL_SERVICE_START: full service, once every stack has trained; the anti-rollback fuse advances to the running image (R455, R473). -/
def startFull (s : State) : State :=
  if s.nose.service ≠ .blotter ∨ ¬ allTrained s then s else
  let s := { s with nose := { s.nose with service := .full } }
  let s := setMon (fun m => { m with bootStage := 5,
                                     rollback := if m.rollback.toNat < s.nose.fwCounter.toNat then s.nose.fwCounter else m.rollback }) s
  postDevice evFullService (counterMs s) 0 s

def execFullServiceStart (s : State) : Host.Outcome State Fault Refusal := done s (startFull s)

/-! ### DEV_QUERY, DEV_RESET, SELFTEST -/

def ruleDevQuery : CmdRule where
  op := 0x0101
  effect _ s := ({ res := [s.nose.siliconRev, s.nose.fwVersion, if s.nose.service = .full then 1 else 0, Config.capabilities] }, s)

def execDevQuery (c : Cmd) (s : State) : Host.Outcome State Fault Refusal := issue ruleDevQuery c s

/-- DEV_RESET (R459): ACTIVE of a protected pair asks for the planned switchover of R442 first. -/
def ruleDevReset : CmdRule where
  op := 0x0102
  t0 := true
  plen := .fixed 4
  fields c _ := [failIf (decide (c.u32 16 ≠ 0x9416)) stRange 16]
  effect c s :=
    let s := setMon (fun m => { m with softPending := some (replyRing s c) }) s
    ({}, if s.twin.state = .active ∧ s.twin.prot then setTwin (fun t => { t with switchReq := true }) s else s)

def execDevReset (c : Cmd) (s : State) : Host.Outcome State Fault Refusal := done s (softDue (issued ruleDevReset c s))

/-- SELFTEST: the manual does not say what the bits are, so they are free (R85; log entry 68). -/
def ruleSelftest : CmdRule where
  op := 0x0C04
  t0 := true
  bulk := true
  effect _ s := let (x, s) := drawFree s; ({ res := [BitVec.ofNat 32 x] }, s)

def execSelftest (c : Cmd) (s : State) : Host.Outcome State Fault Refusal := issue ruleSelftest c s

/-! ### Watchdog (R465) -/

def ruleWatchdogSet : CmdRule where
  op := 0x0108
  t0 := true
  plen := .fixed 4
  effect c s := ({}, { s with nose := { s.nose with wdogInterval := c.u32 16, wdogExpiries := 0, wdogSince := counterMs s } })

def execWatchdogSet (c : Cmd) (s : State) : Host.Outcome State Fault Refusal := issue ruleWatchdogSet c s

/-- WATCHDOG_EXPIRY: the first expiry posts EV_WATCHDOG, the second switches a protected ACTIVE over; every one is counted and restarts it. -/
def watchdogExpires (s : State) : State :=
  if s.nose.wdogInterval = 0 then s else
  let n := s.nose.wdogExpiries + 1
  let s := count1 (monCtr 0x40C) { s with nose := { s.nose with wdogExpiries := n, wdogSince := counterMs s } }
  if n = 1 then postDevice evWatchdog s.nose.wdogInterval 0 s
  else if n = 2 ∧ s.twin.state = .active ∧ s.twin.prot then setTwin (fun t => { t with switchReq := true }) s
  else s

def execWatchdogExpiry (s : State) : Host.Outcome State Fault Refusal := done s (watchdogExpires s)

/-! ### Firmware update and locks (R473-R477) -/

/-- FW_UPDATE: the image goes into the slot that is not running, verified, and boots next. -/
def ruleFwUpdate : CmdRule where
  op := 0x0109
  t0 := true
  bulk := true
  plen := .block
  signed := true
  fields c s := [failIf (decide (c.u16 72 < s.mon.rollback.toNat)) stRange 72]
  effect c s :=
    let v := Config.imageVersion (c.ext.getD [])
    let slot : FlashSlot := { valid := true, version := v, counter := BitVec.ofNat 16 (c.u16 72) }
    ({ res := [v] }, setMon (fun m =>
      if m.slotB then { m with flashA := slot, activeB := false, staged := true } else { m with flashB := slot, activeB := true, staged := true }) s)

def execFwUpdate (c : Cmd) (s : State) : Host.Outcome State Fault Refusal := issue ruleFwUpdate c s

/-- The DEBUG_LOCK fuse is blown, for good. -/
def blowLock : State → State := setMon fun m => { m with debugLock := true }

/-- DEBUG_LOCK (R476). -/
def ruleDebugLock : CmdRule where
  op := 0x010A
  t0 := true
  plen := .block
  signed := true
  lengths c s := [failIf (decide (Config.authorisedId (c.ext.getD []) ≠ s.mon.fusedId)) stSignature 0]
  effect _ s := ({ status := if s.mon.debugLock then stNoop else stOk, res := [1] }, blowLock s)

def execDebugLock (c : Cmd) (s : State) : Host.Outcome State Fault Refusal := issue ruleDebugLock c s

/-- JTAG_LOCK_DEBUG: JTAG works in every state. -/
def execJtagLockDebug (s : State) : Host.Outcome State Fault Refusal := doneAon s (blowLock s)

/-- The JTAG IDCODE: the silicon revision above 0x9416, the manufacturer code 0x2B7 and a 1 (R482). -/
def jtagIdcode (s : State) : Word := (s.nose.siliconRev.extractLsb' 0 4) ++ (0x9416#16) ++ (0x2B7#11) ++ (1#1)

/-- MON_OP_LOCK_SET: writing 1 locks, writing 0 does nothing. -/
def execMonOpLockSet (value : Word) (s : State) : Host.Outcome State Fault Refusal :=
  done s (setMon (fun m => { m with opLock := m.opLock || value.getLsbD 0 }) s)

/-- MON_RESET_CAUSE_CLEAR. -/
def execMonResetCauseClear (value : Word) (s : State) : Host.Outcome State Fault Refusal :=
  done s (setMon (fun m => { m with resetCause := m.resetCause &&& ~~~value.extractLsb' 0 10 }) s)

/-- MON_VMON_ALARM_CLEAR. -/
def execMonVmonAlarmClear (value : Word) (s : State) : Host.Outcome State Fault Refusal :=
  done s (setMon (fun m => { m with vmonAlarm := m.vmonAlarm &&& ~~~value.extractLsb' 0 16 }) s)

/-! ### Function-level reset of a VF (R461) and D3hot (R463) -/

/-- The counters of a tenant's pages go (Table 17-4). -/
def dropPages (n : Nat) (s : State) : State :=
  { s with counters := s.counters.filter fun kv => !(decide (kv.1 / 65536 = 0x0600 + n) || decide (kv.1 / 65536 = 0x0900 + n)) }

/-- VF_FLR: rings stop without a further entry; the tenant's objects, keys and routes go, through the log on ACTIVE; a follower does steps 1
and 4 only. -/
def flrFn (n : Nat) (s : State) : State :=
  let s := modFn n (fun p => { p with flr := true }) s
  let s := dropRings n s
  let s := if followsLog s then s else flrTenant n (logInput (.state 1 n) s)
  let s := count1 (monCtr 0x410) (dropPages n (setFn n {} s))
  postDevice evFlrDone n 0 s

/-- An FLR of function 0 is that of the PF (R460). -/
def execVfFlr (fn : Fn) (s : State) : Host.Outcome State Fault Refusal :=
  done s (if fn.val = 0 then pfFlrReset s else flrFn fn.val s)

def execD3hotEntry (fn : Fn) (s : State) : Host.Outcome State Fault Refusal := done s (modFn fn.val (fun p => { p with d3hot := true }) s)

/-- D3HOT_EXIT: waiting replies and held events are written, pending vectors signal (R74, R463). -/
def leaveD3 (f : Nat) (s : State) : State :=
  let s := flushReplies (modFn f (fun p => ({ p with d3hot := false } : HstFn).unmuted) s)
  (fnOf s f).rings.foldl (fun s (n, r) => match r.kind with
    | .event => flushEvents f n 66 s
    | _ => s) s

def execD3hotExit (fn : Fn) (s : State) : Host.Outcome State Fault Refusal := done s (leaveD3 fn.val s)

/-! ### QUIESCE (R464) -/

/-- No media ring exists but exception rings that TENANT_ROUTE names. -/
def onlyExceptionRings (s : State) : Bool :=
  s.hst.fns.all fun (f, p) => p.rings.all fun (n, r) =>
    !(r.kind == .media) || r.state == .free || decide (((tenantOf s f).map (·.excRing)).getD 0 = n)

/-- What must have held for 100 ms. -/
def mayQuiesce (s : State) : Bool :=
  s.mon.quiesceEn && (s.twin.state == .solo || s.twin.state == .withdrawn) && noMedia s && onlyExceptionRings s && s.nose.service == .full

/-- QUIESCE_ENTRY. -/
def execQuiesceEntry (s : State) : Host.Outcome State Fault Refusal :=
  done s (if mayQuiesce s then setMon (fun m => { m with quiesce := true }) s else s)

/-- QUIESCE_EXIT: for a command that needs the clusters or HBM, or once QUIESCE_EN is clear. -/
def execQuiesceExit (forCommand : Bool) (s : State) : Host.Outcome State Fault Refusal :=
  done s (if forCommand || !s.mon.quiesceEn then leaveQuiesce s else s)

/-- MON_PWR_CTL written: clearing QUIESCE_EN ends QUIESCE. -/
def writePwrCtl (v : Word) (s : State) : State :=
  let s := setMon (fun m => { m with quiesceEn := v.getLsbD 0 }) s
  if v.getLsbD 0 then s else leaveQuiesce s

/-- QUIESCE_EN_WRITE. -/
def execQuiesceEnWrite (value : Word) (s : State) : Host.Outcome State Fault Refusal := done s (writePwrCtl value s)

/-! ### References (R402) -/

/-- TIME_REFCLK_LOSS: the TIME PLL free-runs; the event is posted (R17). -/
def execTimeRefclkLoss (s : State) : Host.Outcome State Fault Refusal :=
  done s (if s.tim.refclkLost then s else postDevice evTimeRefclkLost 0 0 (setTim (fun t => { t with refclkLost := true }) s))

/-- TIME_REFCLK_RETURN: the PLL relocks without a phase step. -/
def execTimeRefclkReturn (s : State) : Host.Outcome State Fault Refusal := done s (setTim (fun t => { t with refclkLost := false }) s)

/-! ### Health monitors (R468-R471) -/

/-- The warning threshold of a sensor, °C (Table 17-6). -/
def warnAt (m : Mon) (sensor : Nat) : Nat := if sensor < 24 then m.tempWarn else 90

/-- One sensor of a sample: a rising crossing warns once; 3 °C below the threshold it is armed again. -/
def checkSensor (i : Nat) (s : State) : State :=
  let t := s.mon.temps.getD i 0
  let w : Int := warnAt s.mon i
  if w * 4 ≤ t ∧ ¬ s.mon.warned.contains i then
    let s := setMon (fun m => { m with warned := m.warned ++ [i] }) s
    postDevice evThermalWarn i (wrapInt 32 (t / 4)) (count1 (monCtr 0x400) s)
  else if t ≤ (w - 3) * 4 then setMon (fun m => { m with warned := m.warned.filter (· != i) }) s
  else s

/-- MONITOR_SAMPLE: sensors 24-27 are the stacks' own (R373), the die sensors those of the sample. -/
def monitorSample (temps : List Int) (volts procs : List Nat) (s : State) : State :=
  let die := (List.range 24).map fun i => temps.getD i 0
  let stackTbl := (List.range 4).map fun n => ((stackOf s n).temp.toNat * 4 : Int)
  let s := setMon (fun m => { m with temps := die ++ stackTbl, volts := volts.take 16, procs := procs.take 32 }) s
  (List.range 28).foldl (fun s i => checkSensor i s) s

/-- The AON domain samples in reset too. -/
def execMonitorSample (temps : List Int) (volts procs : List Nat) (s : State) : Host.Outcome State Fault Refusal :=
  doneAon s (monitorSample temps volts procs s)

/-- THROTTLE_STAGE_CHANGE: one stage up or down within 0-3, counted and posted (R469). -/
def throttle (rise : Bool) (sensor : Nat) (s : State) : State :=
  let old := s.mon.throttle.toNat
  let new := if rise then (if old < 3 then old + 1 else 3) else old - 1
  if new = old then s else
  let s := setMon (fun m => { m with throttle := BitVec.ofNat 2 new, throttleSensor := BitVec.ofNat 5 sensor }) s
  postDevice evThrottle sensor new (count1 (monCtr 0x404) s)

def execThrottleStageChange (rise : Bool) (sensor : Fin 28) (s : State) : Host.Outcome State Fault Refusal :=
  doneAon s (throttle rise sensor.val s)

/-- VMON_ALARM: the bit is set and the excursion counted (R471). -/
def execVmonAlarm (monitor : Fin 16) (s : State) : Host.Outcome State Fault Refusal :=
  doneAon s (count1 (monCtr 0x408) (setMon (fun m => { m with vmonAlarm := m.vmonAlarm ||| BitVec.ofNat 16 (2 ^ monitor.val) }) s))

end Sys2Proof.Machine
end

