-- ==== Sys2Proof/Machine/Twin.lean ====
section
/-! DEFINITION. The Twin Complex, sending side: commands, the log transmitter, heartbeats, watermarks, digests, TIME, link training and the end of
protection (chapter 16). -/

namespace Sys2Proof.Machine

/-! ### Log messages (Table 16-5) -/

/-- The descriptor of a command as its ring held it (Table 03-10). -/
def Cmd.descriptor (op : Nat) (c : Cmd) : List Byte :=
  leBytes 4 (c.dw0.toNat * 65536 + op) ++ leBytes 4 c.tag.toNat ++ leBytes 4 c.plen.toNat ++ leBytes 4 c.object.toNat ++ c.params

/-- A COMMAND's whole body: ring index, descriptor, extended block, other data read at admission. -/
def commandBody (op : Nat) (c : Cmd) : List Byte :=
  leBytes 4 c.index.toNat ++ Cmd.descriptor op c ++ c.ext.getD [] ++ c.data.getD []

/-- A body cut into parts of at most 32,768 bytes; the first part also of an empty body. -/
def partsOf : Nat → List Byte → List (List Byte)
  | 0, _ => []
  | fuel + 1, bs => bs.take 32768 :: (if (bs.drop 32768).isEmpty then [] else partsOf fuel (bs.drop 32768))

/-- The COMMAND messages of a command, MORE on all but the last. -/
def commandMsgs (ord arg flags : Nat) : List (List Byte) → List Msg
  | [] => []
  | [b] => [{ ty := 0x04, flags := flags, ord := ord, arg := arg, body := b }]
  | b :: r => { ty := 0x04, flags := flags + 1, ord := ord, arg := arg, body := b } :: commandMsgs ord arg flags r

/-- Ordinals that an entry takes: a STUB of count n takes n (R427). -/
def LogEntry.ordinals : LogEntry → Nat
  | .stub n => n
  | _ => 1

/-- The messages of an entry, and the state after sealing. Commands of the Attar keys group are sealed (R425). -/
def entryMsgs (ord : Nat) (e : LogEntry) (s : State) : List Msg × State :=
  match e with
  | .frame f => ([{ ty := 0x01, flags := b2n f.err * 128 + f.port.val, ord := ord, arg := f.stamp, body := f.bytes }], s)
  | .stub n => ([{ ty := 0x02, flags := 0, ord := ord, arg := n, body := [] }], s)
  | .tick k r n => ([{ ty := 0x03, flags := k * 64 + r, ord := ord, arg := n, body := [] }], s)
  | .command op c st =>
    let arg := st.toNat * 2 ^ 32 + c.tenant * 2 ^ 24 + c.ring.val
    let body := commandBody op c
    if op / 256 = 0x06 then
      let (b, s) := sealBody body s
      (commandMsgs ord arg 2 [b], s)
    else (commandMsgs ord arg 0 (partsOf (body.length + 1) body), s)
  | .estimate h t => ([{ ty := 0x05, flags := 0, ord := ord, arg := h.toNat * 2 ^ 32 + t, body := [] }], s)
  | .inject tn ring d pkt => ([{ ty := 0x06, flags := 0, ord := ord, arg := tn * 2 ^ 24 + ring, body := dwBytes d ++ pkt }], s)
  | .state k a => ([{ ty := 0x07, flags := 0, ord := ord, arg := k, body := leBytes 4 a }], s)

/-- Blocks that the messages take. -/
def msgBlocks (ms : List Msg) : Nat := total (ms.map (·.blocks))

/-- Send the first waiting entry, when the link is up and there is credit for all of it (R424). -/
def sendEntry (e : LogEntry) (s : State) : Option State :=
  let (ms, t) := entryMsgs (s.twin.ordinal + 1) e s
  if s.twin.link ∧ msgBlocks ms ≤ logCredit s.twin then
    let t := ms.foldl (fun t m => sendLog m t) t
    some (setTwin (fun x => { x with
      ordinal := x.ordinal + e.ordinals
      appliedCmd := match e with
        | .command .. => x.ordinal + 1
        | _ => x.appliedCmd }) t)
  else none

/-- Send waiting entries in order for as long as credit lasts; with `keep` a last STUB stays, since later stub frames may share it (R428). -/
def flushLog (keep : Bool) : Nat → State → State
  | 0, s => s
  | fuel + 1, s =>
    match s.twin.pend with
    | [] => s
    | e :: rest =>
      let hold := keep && rest.isEmpty && (match e with
        | .stub _ => true
        | _ => false)
      if hold then s
      else match sendEntry e s with
        | some t => flushLog keep fuel (setTwin (fun x => { x with pend := rest }) t)
        | none => s

/-- The frame goes into the log as part of a STUB: its destination is a local address of a tenant without twin protection (R428). -/
def isStub (s : State) (r : RxFrame) : Bool :=
  match (datagramOf r.body).bind (addrTenant s) with
  | some (_, t) => !t.prot
  | none => false

/-- The log transmitter takes the oldest frame of a port that it has not taken. -/
def takeFrame_ (p : Nat) : List RxFrame → List RxFrame
  | [] => []
  | r :: rest => if r.logged then r :: takeFrame_ p rest else { r with logged := true } :: rest

/-- Mark the frame logged: the parser may take it, after the frames logged before it. -/
def noteLogged (p : Nat) (s : State) : State :=
  setTwin (fun t => { t with parseOrder := t.parseOrder ++ [p] }) (modPort p (fun x => { x with rx := takeFrame_ p x.rx }) s)

/-- LOG_TRANSMIT: what waits is sent, then a frame of the port is taken; without credit the sender holds its log and the parser waits (R424, R427,
R428). -/
def logTransmit (p : Nat) (s : State) : State :=
  if ¬ s.twin.logging then s else
  match (portOf s p).rx.find? fun r => !r.logged with
  | none => flushLog false (s.twin.pend.length + 1) s
  | some r =>
    let s := flushLog true (s.twin.pend.length + 1) s
    if isStub s r then
      let s := count1 (twnCtr 0x120) s
      match s.twin.pend with
      | [] => noteLogged p (setTwin (fun t => { t with pend := [.stub 1] }) s)
      | [.stub n] =>
        if n < 65535 then noteLogged p (setTwin (fun t => { t with pend := [.stub (n + 1)] }) s)
        else
          let s := flushLog false 2 s
          if s.twin.pend.isEmpty then noteLogged p (setTwin (fun t => { t with pend := [.stub 1] }) s) else s
      | _ => s
    else
      let s := flushLog false (s.twin.pend.length + 1) s
      if ¬ s.twin.pend.isEmpty then s
      else match sendEntry (.frame r) s with
        | some t => noteLogged p t
        | none => s

def execLogTransmit (port : PortNo) (s : State) : Host.Outcome State Fault Refusal := done s (logTransmit port.val s)

/-! ### The end of protection and resync requests (R424, R436, R439) -/

/-- ACTIVE goes on unprotected. With AUTO_RESYNC a resync is owed (R436). -/
def unprotect (auto : Bool) (s : State) : State :=
  setTwin (fun t => { t with autoDue := t.autoDue || (auto && t.autoResync) }) (endProtection s)

/-- CREDIT_TIMEOUT: log blocks were held without credit for 100 µs; a HANDOVER with WITHDRAW goes out (R424). -/
def creditTimeout (s : State) : State :=
  if ¬ s.twin.logging ∨ s.twin.pend.isEmpty then s else
  let s := count 0 (twnCtr 0x11C) 100 s
  let ord := s.twin.ordinal
  noteCause 6 (sendControl { ty := 0x45, flags := 1, ord := 0, arg := ord, body := [] } (unprotect true s))

def execCreditTimeout (s : State) : Host.Outcome State Fault Refusal := done s (creditTimeout s)

/-- The lanes that do not work. -/
def failedLanes (s : State) : Nat := 255 - s.twin.working.toNat

/-- LINK_LOSS_TIMEOUT: the link has been down for 100 µs and the peer is alive: nobody changes role to ACTIVE (R439). -/
def linkLost (s : State) : State :=
  if ¬ s.twin.liveIn then s else
  let post := postDevice evTwinLinkDown (failedLanes s) 0
  let s := setTwin (fun t => { t with link := false, paired := false }) s
  match s.twin.state with
  | .active => if s.twin.logging ∨ s.twin.prot then noteCause 5 (post (unprotect false s)) else s
  | .standby | .syncing => withdraw 5 (post s)
  | _ => s

def execLinkLossTimeout (s : State) : Host.Outcome State Fault Refusal := done s (linkLost s)

/-! ### Heartbeats and pins (R437) -/

/-- HEARTBEAT: HB goes out in one block while the device is healthy; TWIN_LIVE_OUT is high. -/
def heartbeat (s : State) : State :=
  if s.twin.state = .faultStop then s
  else
    let s := setTwin (fun t => { t with liveOut := true }) s
    if s.twin.link then sendBlock true true 0x1FF [] s else s

def execHeartbeat (s : State) : Host.Outcome State Fault Refusal := done s (heartbeat s)

/-- HEARTBEAT_GENERATOR_STALL: TWIN_LIVE_OUT falls. -/
def execHeartbeatGeneratorStall (s : State) : Host.Outcome State Fault Refusal :=
  done s (setTwin (fun t => { t with liveOut := false }) s)

/-! ### Watermarks, digests, TIME -/

/-- WATERMARK of one port on ACTIVE (R432). -/
def execWatermark (port : PortNo) (s : State) : Host.Outcome State Fault Refusal :=
  done s (if s.twin.state = .active ∧ s.twin.prot then sendWatermark port.val s else s)

/-- The object handle of a digest record: a leg, or a trunk from 8,192 on (R435). -/
def digestObject (s : State) (n : Nat) : Handle := if n < 8192 then handleOf s tyLeg n else handleOf s tyTrunk (n - 8192)

/-- A divergence, on either device (R436). -/
def diverge (obj : Handle) (tick : Nat) (s : State) : State :=
  let s := setTwin (fun t => { t with divObj := obj, divTick := BitVec.ofNat 32 tick }) (count1 (twnCtr 0x124) s)
  let s := postDevice evTwinDiverged obj.toNat tick s
  if followsLog s then withdraw 4 s else unprotect true s

/-- Records that stand on one side only, or differ. -/
def digestFault (own peer : List DigestRec) : Option DigestRec :=
  (own.find? fun r => !peer.contains r).orElse fun _ => peer.find? fun r => !own.contains r

/-- Compare the digests of the intervals that both devices have sent (R435). -/
def compareDigests (s : State) : State :=
  match s.twin.ownTicks.find? fun n => s.twin.peerTicks.contains n with
  | none => s
  | some n =>
    let at_ := fun (l : List DigestRec) => l.filter fun r => decide (r.tick = n)
    let rest := fun (l : List DigestRec) => l.filter fun r => decide (r.tick ≠ n)
    let bad := digestFault (at_ s.twin.ownDigests) (at_ s.twin.peerDigests)
    let s := setTwin (fun t => { t with
      ownTicks := t.ownTicks.filter (· != n), peerTicks := t.peerTicks.filter (· != n)
      ownDigests := rest t.ownDigests, peerDigests := rest t.peerDigests }) s
    match bad with
    | some r => diverge (digestObject s r.object) n s
    | none => s

/-- A digest record: object, count, 4 zero bytes, CRC. -/
def digestBytes (r : DigestRec) : List Byte :=
  leBytes 2 r.object ++ leBytes 2 r.count ++ leBytes 4 0 ++ leBytes 8 r.crc.toNat

/-- Send DIGEST messages of 4,000 records; the last one holds fewer (DESIGN CHOICE, log entry 71). -/
def sendDigests (n : Nat) : Nat → List DigestRec → State → State
  | 0, _, s => s
  | fuel + 1, rs, s =>
    let s := sendControl { ty := 0x42, flags := 0, ord := 0, arg := n, body := (rs.take 4000).flatMap digestBytes } s
    if rs.length < 4000 then s else sendDigests n fuel (rs.drop 4000) s

/-- DIGEST: the records of interval n, which TICK n + 1 has ended. -/
def digest (n : Nat) (s : State) : State :=
  if ¬ s.twin.prot ∨ s.media.tick ≤ n ∨ s.twin.ownTicks.contains n then s else
  let mine := s.twin.forming.filter fun r => decide (r.tick = n)
  let s := setTwin (fun t => { t with
    forming := t.forming.filter fun r => decide (r.tick ≠ n), ownDigests := t.ownDigests ++ mine, ownTicks := t.ownTicks ++ [n] }) s
  compareDigests (sendDigests n (mine.length + 1) mine s)

def execDigest (n : Nat) (s : State) : Host.Outcome State Fault Refusal := done s (digest n s)

/-- DIGEST_TIMEOUT: the peer's digest is missing 10 ms after the device's own (R435). -/
def digestTimeout (s : State) : State :=
  if ¬ s.twin.prot ∨ s.twin.ownTicks.isEmpty then s
  else if followsLog s then withdraw 5 s else noteCause 5 (unprotect false s)

def execDigestTimeout (s : State) : Host.Outcome State Fault Refusal := done s (digestTimeout s)

/-- TIME: the sender's time-stamp, and the receive time-stamp of the peer's last TIME (R430). -/
def sendTime (s : State) : State :=
  if ¬ s.twin.paired then s else
  let seq := s.twin.timeSeq + 1
  let now := nowStamp s
  let s := setTwin (fun t => { t with timeSeq := seq, timeSent := now }) s
  sendControl { ty := 0x43, flags := 0, ord := seq.toNat, arg := now, body := leBytes 8 s.twin.timeRx } s

def execTime (s : State) : Host.Outcome State Fault Refusal := done s (sendTime s)

/-! ### Training (R420, R421, R425) -/

/-- Protection may continue on the lanes that work (R421). -/
def groupServes (s : State) : Bool :=
  match popcount 8 s.twin.group.toNat with
  | 8 => true
  | 4 => s.twin.degradedOk && decide (peakTotal s ≤ 140000)
  | _ => false

/-- The group in use is too small for protection: STANDBY withdraws with cause 9. -/
def checkGroup (s : State) : State :=
  if ¬ s.twin.link ∨ groupServes s then s
  else match s.twin.state with
    | .standby | .syncing => withdraw 9 s
    | .active => if s.twin.prot ∨ s.twin.logging then unprotect false s else s
    | _ => s

/-- The link runs on the group of the lanes that work. -/
def useLanes (working : Byte) (s : State) : State :=
  let g := laneGroup working
  setTwin (fun t => { t with working := working, group := g, link := decide (g ≠ 0) }) s

/-- A PAIR message: fused device ID; firmware version, state and a random session nonce, sealed (R425). -/
def sendPair (s : State) : State :=
  let body := leBytes 4 s.nose.fwVersion.toNat ++ leBytes 4 s.twin.state.code ++ leBytes 4 s.twin.nonce.toNat
  let (b, s) := sealBody body s
  sendControl { ty := 0x40, flags := 0, ord := 0, arg := s.mon.fusedId.toNat, body := b } s

/-- TWN_LANE_MAP from the order and polarity that training found. -/
def laneMapOf (order : List (Fin 8)) (inverted : Byte) : Word :=
  BitVec.ofNat 32 (inverted.toNat * 2 ^ 24 + total ((indexed (order.take 8)).map fun lp => lp.2.val * 8 ^ lp.1))

/-- LLYNAS_LINK_TRAINING: a full training starts a session: sequence numbers, credit and the nonce begin anew, and PAIR is sent. -/
def trainLink (working : Byte) (order : List (Fin 8)) (inverted : Byte) (s : State) : State :=
  let (x, s) := drawFree s
  let s := setTwin (fun t => { t with
    laneMap := laneMapOf order inverted, paired := false, pairFail := false, nonce := BitVec.ofNat 32 x, sealed := 0, peerSealed := 0
    txSeq := 0, rxSeq := 0, nak := false, credit := 0, peerCredit := 0, logSent := 0, replay := [], rxBlocks := 0
    rxBytesLog := [], rxBytesCtl := [], rxCommand := [], firstTime := true, timeRx := 0, timeSent := 0 }) s
  checkGroup (sendPair (useLanes working s))

def execLlynasLinkTraining (working : Byte) (order : List (Fin 8)) (inverted : Byte) (s : State) : Host.Outcome State Fault Refusal :=
  done s (trainLink working order inverted s)

/-- LANE_FAST_RETRAIN: failed lanes are dropped, the saved equalisation is reused (R421). -/
def execLaneFastRetrain (working : Byte) (s : State) : Host.Outcome State Fault Refusal :=
  done s (checkGroup (useLanes working (count1 (twnCtr 0x114) s)))

/-- TWN_RETRAIN: a full retrain starts: the link is down until LLYNAS_LINK_TRAINING. -/
def retrainLink (s : State) : State := setTwin (fun t => { t with link := false, working := 0, group := 0, paired := false }) s

def execTwnRetrain (s : State) : Host.Outcome State Fault Refusal := done s (retrainLink s)

/-! ### PAIR (R418, R425) -/

/-- The device holds a conference or trunk. -/
def holdsMedia (s : State) : Bool := !noMedia s

/-- The role decision of R418: exactly one SOLO or ACTIVE device stays ACTIVE; of two, the one that holds a conference or trunk, else the
one with the lower fused ID; the other withdraws with cause 7. -/
def decideRole (p : PeerPair) (s : State) : State :=
  let peerOn := decide (p.state.toNat ≤ 1)
  if ¬ isActive s then s
  else if ¬ peerOn then quietRole .active s
  else
    let mine := holdsMedia s
    let stay := if mine != p.busy then mine else decide (s.mon.fusedId.toNat < p.deviceId.toNat)
    if stay then quietRole .active s else changeRole .withdrawn 7 (endProtection s)

/-- PAIR: a message that fails authentication sets PAIR_FAIL; both devices need TWIN_CONFIG mode 1. -/
def pairWith (p : PeerPair) (s : State) : State :=
  if ¬ p.authentic then setTwin (fun t => { t with pairFail := true, paired := false }) s
  else if ¬ s.twin.mode ∨ ¬ s.twin.link ∨ s.twin.state = .faultStop then s
  else decideRole p (setTwin (fun t => { t with
    paired := true, pairFail := false, peerId := p.deviceId, peerFw := p.firmware, peerState := p.state, peerNonce := p.nonce, peerSealed := 0 }) s)

def execPair (peer : PeerPair) (s : State) : Host.Outcome State Fault Refusal := done s (pairWith peer s)

/-! ### TWIN_CONFIG, TWIN_ROLE_SET (R442, R449) -/

/-- A pair that protects or syncs accepts changed flags only. -/
def changesConfig (c : Cmd) (t : Twin) : Bool :=
  (decide (c.u8 64 = 1) != t.mode) || decide (t.pairKey.getD (List.replicate 32 0) ≠ c.raw 96 32)

def ruleTwinConfig : CmdRule where
  op := 0x0B01
  t0 := true
  plen := .ext 64
  fields c _ := [rangeAt c 64 1 0 1, reservedAt c 65 1 2, padAt c 66 30, failIf (decide (c.u8 64 = 1) && zeros (c.raw 96 32)) stRange 96]
  states c s :=
    [failIf (decide (c.u8 64 = 0) && s.twin.liveIn && decide (s.twin.peerState = 1)) stState 0,
     failIf ((s.twin.prot || s.twin.resync) && changesConfig c s.twin) stState 0]
  effect c s :=
    let on := decide (c.u8 64 = 1)
    let s := setTwin (fun t => { t with
      mode := on, autoResync := bit (c.u8 65) 0, degradedOk := bit (c.u8 65) 1, paired := t.paired && on
      pairKey := if zeros (c.raw 96 32) then none else some (c.raw 96 32) }) s
    ({}, if on then (if s.twin.state = .solo then quietRole .active s else s)
         else if s.twin.state = .faultStop then s else quietRole .solo s)

def execTwinConfig (c : Cmd) (s : State) : Host.Outcome State Fault Refusal := issue ruleTwinConfig c s

/-- The device already has the role it is asked to take. -/
def hasRole (s : State) (role : Nat) : Bool :=
  (role == 1 && s.twin.state == .active) || (role == 0 && s.twin.state == .standby)

/-- TWIN_ROLE_SET: a planned switchover at the next audio tick; STANDBY asks its ACTIVE with a HANDOVER (DESIGN CHOICE, log entry 72). -/
def ruleTwinRoleSet : CmdRule where
  op := 0x0B02
  t0 := true
  plen := .fixed 4
  fields c _ := [rangeAt c 16 4 0 1]
  states c s := [failIf (!hasRole s (c.u32 16) && !(s.twin.prot && (s.twin.state == .active || s.twin.state == .standby))) stState 0]
  effect c s :=
    if hasRole s (c.u32 16) then ({ status := stNoop }, s)
    else if s.twin.state = .active then ({}, setTwin (fun t => { t with switchReq := true }) s)
    else ({}, sendControl { ty := 0x45, flags := 0, ord := 0, arg := 0, body := [] } s)

def execTwinRoleSet (c : Cmd) (s : State) : Host.Outcome State Fault Refusal := issue ruleTwinRoleSet c s

/-! ### Resync (R443, R444) -/

/-- The item of Table 16-9 that the asking device knows to fail, 0 none: the peer's firmware version stood in its PAIR message. The peer checks the
rest, against the items that the asking record carries (DESIGN CHOICE, log entry 73). -/
def resyncCheck (s : State) : Nat := if s.twin.peerFw ≠ s.nose.fwVersion then 1 else ownFault s

/-- Ask the peer for a resync. -/
def askResync (s : State) : State :=
  sendResync resyncAsk 1 (itemsBytes (resyncItems s)) (setTwin (fun t => { t with resync := true, asking := true, syncStart := counterMs s }) s)

/-- A resync starts on ACTIVE: the base point follows at its next audio tick. -/
def startResync (s : State) : State :=
  setTwin (fun t => { t with
    resync := true, asking := false, synced := 0, toSync := 0, syncStart := counterMs s, autoDue := false, todoObjs := [] }) (quietRole .active s)

/-- Resync may start: one device SOLO or ACTIVE, the other WITHDRAWN, on a paired link. -/
def mayResync (s : State) : Bool :=
  s.twin.paired && s.twin.link && !s.twin.resync &&
  ((isActive s && decide (s.twin.peerState = 4)) || (s.twin.state == .withdrawn && decide (s.twin.peerState.toNat ≤ 1)))

def ruleTwinResync : CmdRule where
  op := 0x0B03
  t0 := true
  bulk := true
  states _ s := [failIf (!s.twin.prot && !mayResync s) stState 0]
  effect _ s :=
    if s.twin.prot then ({ status := stNoop }, s)
    else
      let item := resyncCheck s
      let s := setTwin (fun t => { t with checkItem := item }) s
      if item ≠ 0 then ({ status := stDiverged, detail := BitVec.ofNat 32 item }, s) else ({ later := true }, askResync s)

def execTwinResync (c : Cmd) (s : State) : Host.Outcome State Fault Refusal := issue ruleTwinResync c s

/-- AUTO_RESYNC_START: at most once per 60 s, as TWIN_RESYNC would (R436). -/
def autoResync (s : State) : State :=
  let rested : Bool := match s.twin.autoAt with
    | some t => decide (t + 60 ≤ counterMs s / 1000)
    | none => true
  if ¬ s.twin.autoDue ∨ ¬ s.twin.autoResync ∨ s.twin.state ≠ .active ∨ ¬ mayResync s ∨ ¬ rested then s
  else
    let item := resyncCheck s
    let s := setTwin (fun t => { t with checkItem := item, autoDue := false, autoAt := some (counterMs s / 1000) }) s
    if item ≠ 0 then s else askResync s

def execAutoResyncStart (s : State) : Host.Outcome State Fault Refusal := done s (autoResync s)

/-! ### TWIN_QUERY (R450) -/

/-- TWN_STATUS (Table 16-17). -/
def twnStatus (t : Twin) : Nat :=
  t.cause.toNat * 2 ^ 28 + t.peerState.toNat * 2 ^ 25 + b2n t.liveIn * 2 ^ 24 + b2n t.liveOut * 2 ^ 23 + b2n t.paired * 2 ^ 22 + b2n t.pairFail * 2 ^ 21 +
  b2n t.pairKey.isSome * 2 ^ 7 + b2n t.resync * 2 ^ 6 + b2n t.prot * 2 ^ 5 + b2n t.link * 2 ^ 4 + t.state.code

/-- Bytes 0-31 of the output for a function (Table 16-15). -/
def twinRecord (s : State) (fn : Nat) : List Byte :=
  let t := s.twin
  if fn ≠ 0 then leBytes 4 (b2n t.prot * 32 + t.state.code) ++ List.replicate 28 0
  else leBytes 4 (twnStatus t) ++ leBytes 2 t.toSync ++ leBytes 2 t.synced ++ leBytes 8 (if followsLog s then t.applied else t.ordinal) ++
    leBytes 4 t.divObj.toNat ++ leBytes 4 t.divTick.toNat ++ leBytes 4 (if t.resync then counterMs s - t.syncStart else t.duration) ++
    leBytes 4 t.appliedCmd

/-- The record of a command ring: index and TAG of its last applied command. -/
def ringRecord (s : State) (fn r : Nat) : List Byte :=
  match ringOf s fn r, tget (fnOf s fn).applied r with
  | some x, some (i, tag) => if x.state = .free then List.replicate 8 0 else leBytes 4 i.toNat ++ leBytes 4 tag.toNat
  | _, _ => List.replicate 8 0

def ruleTwinQuery : CmdRule where
  op := 0x0B04
  plen := .fixed 12
  zeroFields c _ := [zeroAt c 24 4]
  fields c _ := [failIf (decide (c.u32 24 < 160)) stLength 24]
  effect c s :=
    let f := c.fn.val
    ({}, output (c.u64 16) (twinRecord s f ++ (List.range 16).flatMap (ringRecord s f)) s)

def execTwinQuery (c : Cmd) (s : State) : Host.Outcome State Fault Refusal := issue ruleTwinQuery c s

end Sys2Proof.Machine
end

