-- ==== Sys2Proof/Machine/Faults.lean ====
section
/-! DEFINITION. Single faults inside the device: local handling, what is absorbed and what is not (R446, Table 16-11). -/

namespace Sys2Proof.Machine

/-! ### Video engines -/

def vidCluster (s : State) (n : Nat) : VidCluster := tgetD s.video.clusters n {}

def modVid (n : Nat) (f : VidCluster → VidCluster) (s : State) : State :=
  { s with video := { s.video with clusters := tput s.video.clusters n (f (vidCluster s n)) } }

/-- The task of an engine that the spare replaces is dispatched again; the completer's number stays in service (R6). -/
def replaced (completer : Nat) (s : State) : State :=
  let t := quarantine completer s
  { t with orgue := { t.orgue with quarantined := s.orgue.quarantined } }

/-- Engines of a kind, 1 decode and 2 encode. -/
def engines (kind : Nat) (v : VidCluster) : List EngStatus := if kind = 1 then v.dec else v.enc

def setEngines (kind : Nat) (l : List EngStatus) (v : VidCluster) : VidCluster := if kind = 1 then { v with dec := l } else { v with enc := l }

/-- The completer and the device-wide number of an engine of a cluster. -/
def engineNumber (kind c e : Nat) : Nat := if kind = 1 then 2 * c + e else 16 + 2 * c + e

/-- A decode or encode engine fault: the spare substitutes while it is free, else the fault is not absorbed (R6, R7). Engine 2 is the spare. -/
def codecFault (kind c e : Nat) (s : State) : State :=
  let v := vidCluster s c
  let post := postDevice evQuarantined c e
  if e = 2 then
    if v.spare.quar then s
    else
      let used := decide (v.spareKind ≠ 0)
      let lost := engineNumber v.spareKind c (v.spareFor % 2)
      let s := modVid c (fun v => { v with spare := { v.spare with quar := true }, spareKind := 0, spareFor := 0 }) s
      let s := post s
      if used then escalate false (fun s => s) (quarantine lost s) else s
  else if ((engines kind v).getD e {}).quar then s
  else
    let s := modVid c (fun v => setEngines kind (modAt (engines kind v) e fun x => { x with quar := true }) v) s
    let s := post s
    if v.spareKind = 0 ∧ ¬ v.spare.quar then
      replaced (engineNumber kind c e) (modVid c (fun v => { v with spareKind := kind, spareFor := 2 * c + e }) s)
    else escalate false (fun s => s) (quarantine (engineNumber kind c e) s)

/-- A compose engine fault: the other one serves the cluster. -/
def composeFault (c e : Nat) (s : State) : State :=
  let v := vidCluster s c
  if (v.cmp.getD e {}).quar then s
  else
    let s := modVid c (fun v => { v with cmp := modAt v.cmp e fun x => { x with quar := true } }) s
    escalate false (fun s => s) (quarantine (32 + 2 * c + e) (postDevice evQuarantined c e s))

/-- A stitcher fault: the composites homed on it move at the next picture tick (Table 16-11, `rehome`). -/
def stitchFault (c : Nat) (s : State) : State :=
  if stitcherQuar s c then s
  else
    let s := modVid c (fun v => { v with stitch := { v.stitch with quar := true } }) s
    escalate false (fun s => s) (quarantine (48 + c) (postDevice evQuarantined c 0 s))

/-! ### Memories -/

/-- The start of an address's range of Table 12-1, which names the memory in events (DEDUCED, log entry 74). -/
def memoryOf (a : Nat) : Nat :=
  (([0, 0x800000, 0x1000000, 0x4000000, 0x8000000, 0x9000000, 0xA000000, 0xA400000] : List Nat).filter fun b => decide (b ≤ a)).getLast?.getD 0

/-- The Accord Cluster whose scratchpad holds an address. -/
def scratchOf (a : Nat) : Option Nat := if memoryOf a = 0x8000000 then some ((a - 0x8000000) / 0x200000) else none

/-- A corrected single-bit error on die. -/
def sramCorrected (a : Nat) (s : State) : State :=
  let s := match scratchOf a with
    | some n => count1 (accCtr n 0x100) s
    | none => s
  postDevice evEccCorrected (memoryOf a) 1 s

/-- The class and index of the pool buffer at an address (Table 12-1). -/
def bufferAt (a : Nat) : Option (Nat × Nat) :=
  if a < 0x800000 then some (0, a / 256) else if a < 0x1000000 then some (1, (a - 0x800000) / 1024)
  else if a < 0x4000000 then some (2, (a - 0x1000000) / 2048) else none

/-- The received frame that a pool buffer holds counts as never received: the parser drops it as one marked errored (log entry 74). -/
def spoilBuffer (b : Nat × Nat) (s : State) : State :=
  let hit := fun (r : RxFrame) => r.bufs.any fun h => decide (h.toNat / 2 ^ 29 = b.1) && decide (h.toNat / 128 % 2 ^ 22 = b.2)
  { s with ports := tmap s.ports fun _ x => { x with rx := x.rx.map fun r => if hit r then { r with err := true } else r } }

/-- An uncorrectable error in data that feeds output: the data is poisoned. -/
def dataLost (a : Nat) (s : State) : State :=
  let s := match scratchOf a with
    | some n =>
      let m := accClusterOf s n
      setAccCluster n { m with poison := m.poison ++ [(a - 0x8000000) % 0x200000 / 4] } s
    | none => s
  escalate false (fun s => ((bufferAt a).map fun b => spoilBuffer b s).getD s) (postDevice evEccUncorrectable (memoryOf a) a s)

/-- The packet in a datapath with a parity error is dropped: the newest frame that a MAC has written, the oldest that the parser has not taken, both as
ones marked errored, or the oldest that Sillage or Attar holds for egress (DESIGN CHOICE, log entry 164). -/
def dropAt (u : DatapathUnit) (s : State) : State :=
  let spoil := fun (r : RxFrame) => { r with err := true }
  match u with
  | .mac p => modPort p.val (fun x => { x with rx := modAt x.rx (x.rx.length - 1) spoil }) s
  | .parser p => modPort p.val (fun x => { x with rx := modAt x.rx 0 spoil }) s
  | .sillage => { s with media := { s.media with egress := s.media.egress.drop 1 } }
  | .attar => { s with media := { s.media with outQ := s.media.outQ.drop 1 } }

/-- A Nose core restarts; commands in flight reply ST_INTERNAL. -/
def noseFault (s : State) : State :=
  answerAll stInternal { s with nose := { s.nose with restarts := s.nose.restarts + 1 } }

/-- The codec assist unit of a cluster: the runtime emulates it bit for bit (Table 16-11). -/
def assistFault (c : Nat) (s : State) : State :=
  let m := accClusterOf s c
  if m.assistQuar then s
  else quarantine (184 + c) (postDevice evQuarantined c 0 (setAccCluster c { m with assistQuar := true } s))

/-- An uncorrectable key store error: the slot is erased; on a follower, key secrecy goes before twin consistency, and it withdraws (Tables 16-11,
16-13, R448). -/
def keyStoreFault (slot : Nat) (s : State) : State :=
  let t := eraseSlot slot true s
  escalate false (fun s => s) (if followsLog s then postConflict 1 2 (handleOf s tySlot slot).toNat true t else t)

/-- ENGINE_FAULT, row by row of Table 16-11. -/
def engineFault (f : FaultReport) (s : State) : State :=
  match f with
  | .sramCorrected a => sramCorrected a s
  | .decodeEngine c e => codecFault 1 c.val e.val s
  | .encodeEngine c e => codecFault 2 c.val e.val s
  | .composeEngine c e => composeFault c.val e.val s
  | .stitcher c => stitchFault c.val s
  | .accordCore n => coreFault n.val s
  | .assist c => assistFault c.val s
  | .aesPipeline n => quarantine (200 + n.val) s
  | .sha1Engine n => quarantine (216 + n.val) s
  | .dataUncorrectable a => dataLost a s
  | .keyStore slot => keyStoreFault slot s
  | .datapath u => escalate false (dropAt u) s
  | .tables => escalate true (fun s => s) s
  | .noseCore => noseFault s
  | .hbmFailed n => escalate true (fun s => s) (modStack n.val (fun k => { k with pcFailed := true }) s)

def execEngineFault (f : FaultReport) (s : State) : Host.Outcome State Fault Refusal := done s (engineFault f s)

end Sys2Proof.Machine
end

