-- ==== Sys2Proof/Machine/Status.lean ====
section
/-! DEFINITION. COUNTER_READ and STATUS_READ: the 64-bit counter groups and the status blocks (R501, R144, R184, R209, R237, R238, R268, R269,
R275, R306, R334, R494). -/

namespace Sys2Proof.Machine

/-! ### Counter groups -/

/-- A counter group: the object types that it names, and how many counters it has. -/
structure CtrGroup where
  types : List Nat
  size : Nat
  deriving DecidableEq, Repr

/-- The groups of R501. -/
def ctrGroup : Nat → Option CtrGroup
  | 0x0601 => some ⟨[tyIn, tyOut, tyLeg, tyTrunk], 8⟩
  | 0x0901 => some ⟨[tyLeg, tyTrunk], 12⟩
  | 0x0501 => some ⟨[tyIn], 13⟩
  | 0x0801 => some ⟨[tyLayout], 8⟩
  | 0x0802 => some ⟨[], 9⟩
  | 0x0502 => some ⟨[tyOut], 14⟩
  | 0x0803 => some ⟨[tyTileset], 8⟩
  | 0x0701 => some ⟨[tyIn], 9⟩
  | 0x0702 => some ⟨[tyOut], 7⟩
  | 0x0703 => some ⟨[tyImage], 7⟩
  | _ => none

/-- Context states as Table 07-8 numbers them. -/
def DecState.code : DecState → Nat
  | .idle => 0
  | .waitKey => 1
  | .clean => 2
  | .tainted => 3
  | .overLimit => 4

/-- Paths as Table 09-11 numbers them. -/
def CompPath.code : CompPath → Nat
  | .compose => 0
  | .stitched => 1
  | .bridged => 2
  | .waiting => 3

/-- Indexes 8-10 of Table 07-8. -/
def decodeNow (s : State) (i : Nat) (idx : Nat) : Option Nat :=
  match (s.obj.ins.at? i).bind (·.dec) with
  | none => none
  | some d => match idx with
    | 8 => some d.note
    | 9 => some d.state.code
    | 10 => some (d.home.val * 65536 + d.index)
    | _ => none

/-- Indexes 6 and 7 of Table 08-7. -/
def layoutNow (s : State) (i : Nat) (idx : Nat) : Option Nat :=
  match s.obj.layouts.at? i, idx with
  | some l, 6 => some l.home.val
  | some l, 7 => some l.reserved
  | _, _ => none

/-- The device-wide values of Table 08-8. -/
def cacheNow (s : State) (idx : Nat) : Nat :=
  match idx with
  | 0 => cacheSize s
  | 1 => contentUsed s
  | 2 => s.video.bases.length
  | 3 => total (s.video.bases.map (·.bytes))
  | 4 => s.video.hits
  | 5 => s.video.builds
  | 6 => s.video.evictions
  | 7 => s.video.uncached
  | _ => s.video.fenceDrops

/-- Indexes 7-9 of Table 09-11. -/
def compNow (s : State) (i : Nat) (idx : Nat) : Option Nat :=
  match s.obj.outs.at? i, (s.obj.outs.at? i).bind (·.comp), idx with
  | _, some c, 7 => some c.path.code
  | _, some c, 8 => some c.ceiling
  | some o, some c, 9 => some (budgetNow s o c)
  | _, _, _ => none

/-- Stitched composites with a stream of a tile set at some position. -/
def stitchedOn (s : State) (ts : Nat) : Nat :=
  tcount s.obj.outs.live fun _ o => match o.comp with
    | some c => c.path == .stitched && c.tiles.any fun t => (t.map fun p => decide (p.1 = ts)).getD false
    | none => false

/-- Indexes 5-7 of Table 09-12. -/
def tilesetNow (s : State) (i : Nat) (idx : Nat) : Option Nat :=
  match s.obj.tilesets.at? i, idx with
  | some t, 5 => some (t.bridges.filter (·.holder.isSome)).length
  | some t, 6 => some (((s.obj.confs.at? t.conf).map fun c => (c.bridgeWait.filter fun r => decide (r.codec = t.codec)).length).getD 0)
  | some _, 7 => some (stitchedOn s i)
  | _, _ => none

/-- The position of an inbound stream in the ranking of its conference, 255 when unranked. -/
def rankOf (s : State) (i : Nat) : Nat :=
  let conf := ((s.obj.ins.at? i).filter fun x => !x.onTrunk).bind fun x => (s.obj.legs.at? x.owner).map (·.conf)
  match conf.bind s.obj.confs.at? with
  | none => 255
  | some c => ((rankingNow s c).findIdx? fun r => r.leg.isSome && decide (r.stream = i)).getD 255

/-- Indexes 4-7 of Table 10-13; G is a two's complement number. -/
def soundNow (s : State) (i : Nat) (idx : Nat) : Option Nat :=
  match (s.obj.ins.at? i).bind (·.audio), idx with
  | some a, 4 => some a.depth
  | some a, 5 => some a.momentary
  | some a, 6 => some (wrapInt 64 a.gain)
  | some _, 7 => some (rankOf s i)
  | _, _ => none

/-- The build ID of the image that mixes an outbound audio stream, 0 for the fixed graph. -/
def buildOf (s : State) (i : Nat) : Nat :=
  let conf := ((s.obj.outs.at? i).bind fun o => s.obj.legs.at? o.leg).bind fun l => s.obj.confs.at? l.conf
  match conf with
  | none => 0
  | some c =>
    let h := if c.swapping ∧ c.swapAt.isNone then c.oldImage else c.image
    if h = 0 ∨ c.fallback ∨ s.nose.service = .blotter then 0 else ((s.obj.images.at? (hIndex h)).map (·.buildId.toNat)).getD 0

/-- The current target of a leg's or trunk's estimator. -/
def targetNow (s : State) (h : Handle) : Nat :=
  if hType h = tyLeg then ((s.obj.legs.at? (hIndex h)).map (·.est.target)).getD 0
  else ((s.obj.trunks.at? (hIndex h)).map (·.est.target)).getD 0

/-- Indexes 5 and 6 of Table 11-13. -/
def imageNow (s : State) (i : Nat) (idx : Nat) : Option Nat :=
  match s.obj.images.at? i, idx with
  | some m, 5 => some m.lastFault
  | some m, 6 => some m.buildId.toNat
  | _, _ => none

/-- One value of a group: a present value of the object, or its counter. -/
def groupValue (s : State) (group : Nat) (h : Handle) (idx : Nat) : Nat :=
  let live : Option Nat := match group with
    | 0x0501 => decodeNow s (hIndex h) idx
    | 0x0801 => layoutNow s (hIndex h) idx
    | 0x0802 => some (cacheNow s idx)
    | 0x0502 => compNow s (hIndex h) idx
    | 0x0803 => tilesetNow s (hIndex h) idx
    | 0x0901 => if idx = 3 then some (targetNow s h) else none
    | 0x0701 => soundNow s (hIndex h) idx
    | 0x0702 => if idx = 6 then some (buildOf s (hIndex h)) else none
    | 0x0703 => imageNow s (hIndex h) idx
    | _ => none
  live.getD (objCounter s group h idx)

/-- Every type of Table 02-2. -/
def allTypes : List Nat := [tyTenant, tyConf, tyLeg, tyIn, tyOut, tyLayout, tyMix, tyTileset, tySlot, tyTrunk, tyImage]

/-- OBJECT of COUNTER_READ (R501): a type that a known group names; 0 for group 0x0802, which only tenant 0 reads (R238); of an unknown
group any valid handle, or 0. -/
def counterObject (c : Cmd) (s : State) : Check :=
  match ctrGroup (c.u16 16) with
  | some g =>
    if g.types = [] then
      if c.fn.val ≠ 0 then some ⟨stNotOwner, 12⟩ else failIf (decide (c.object ≠ 0)) stHandle 12
    else (handleFault s c.fn.val true g.types c.object).map fun st => ⟨st, 12⟩
  | none => if c.object = 0 then none else (handleFault s c.fn.val true allTypes c.object).map fun st => ⟨st, 12⟩

/-- COUNTER_READ (R501). -/
def ruleCounterRead : CmdRule where
  op := 0x0C01
  plen := .fixed 16
  types := allTypes
  zeroObject := true
  anyTenant := true
  lengths c _ := [zeroAt c 20 2]
  zeroFields c s := [counterObject c s]
  fields c _ :=
    match ctrGroup (c.u16 16) with
    | none => [failIf true stRange 16]
    | some g => [failIf (decide (g.size ≤ c.u16 18)) stRange 18, failIf (decide (g.size < c.u16 18 + c.u16 20)) stRange 20, padAt c 22 2, alignAt c 24 8]
  states c s := [stateFail (handleGoing s c.object) c.object]
  effect c s :=
    let vs := (List.range (c.u16 20)).map fun i => groupValue s (c.u16 16) c.object (c.u16 18 + i)
    ({ res := [BitVec.ofNat 32 (c.u16 20)] }, output (c.u64 24) (vs.flatMap (leBytes 8)) s)

def execCounterRead (c : Cmd) (s : State) : Host.Outcome State Fault Refusal := issue ruleCounterRead c s

/-! ### STATUS_READ -/

/-- The number of words of each fixed table (Table 10-2). -/
def fixedWords : List Nat := [54, 49, 51, 49, 240, 32, 4096, 10, 1025, 1025, 4097, 20000, 262144, 901]

/-- The words of a block that STATUS_READ gives with OBJECT 0: the tenant's key slot handles (R494), or a fixed table (R275). Block 0x0601
is both; the handles are given (DESIGN CHOICE, log entry 75). -/
def statusWords (s : State) (fn block : Nat) : Option (List Word) :=
  if block = 0x0601 then some ((s.obj.slots.live.filter fun kv => decide (kv.2.tenant = fn)).map fun kv => handleOf s tySlot kv.1)
  else if 0x0600 ≤ block ∧ block < 0x060E then
    some ((List.range (fixedWords.getD (block - 0x0600) 0)).map (Config.fixedTable (block - 0x0600)))
  else none

/-- STATUS_READ (R501). No block is given for an object (Table 03-12), so with one every block is unknown. -/
def ruleStatusRead : CmdRule where
  op := 0x0C02
  plen := .fixed 20
  types := allTypes
  zeroObject := true
  zeroFields c _ := [zeroAt c 32 4]
  fields c s :=
    match (if c.object = 0 then statusWords s c.fn.val (c.u16 16) else none) with
    | none => [failIf true stRange 16]
    | some ws => [padAt c 18 6, failIf (decide (c.u32 32 < 4 * ws.length)) stLength 32]
  states c s := [stateFail (handleGoing s c.object) c.object]
  effect c s := ({}, output (c.u64 24) (dwBytes ((statusWords s c.fn.val (c.u16 16)).getD [])) s)

def execStatusRead (c : Cmd) (s : State) : Host.Outcome State Fault Refusal := issue ruleStatusRead c s

end Sys2Proof.Machine
end

