-- ==== Sys2Proof/Machine/Registers.lean ====
section
/-! DEFINITION. The register windows of BAR0 and BAR4: what each register reads, and what a write of it does (R4, R63-R65, Tables 03-3, 03-4, 04-7,
05-2, 06-10, 07-9, 08-9, 09-13, 10-15, 11-14, 11-15, 12-11, 13-7, 14-6, 15-6, 16-16, 17-8). -/

namespace Sys2Proof.Machine

/-- A number as a register value. -/
def w32 (n : Nat) : Word := BitVec.ofNat 32 n

/-- The low or high word of a 64-bit value. -/
def halfWord (v : Word64) (hi : Bool) : Word := if hi then v.extractLsb' 32 32 else v.extractLsb' 0 32

/-! ### HST function pages (Tables 03-4 to 03-6) -/

/-- HST_ADM_CTL (Table 03-5). -/
def HstFn.admCtl (p : HstFn) : Nat :=
  b2n p.enable * 2 ^ 31 + p.evtLog2.toNat * 2 ^ 20 + p.rplLog2.toNat * 2 ^ 16 + p.cmdLog2.toNat * 4096 + b2n p.errRes * 4 + b2n p.errCfg * 2 + b2n p.ready

def RingState.code : RingState → Nat
  | .free => 0
  | .running => 1
  | .error => 2
  | .draining => 3

def RingKind.code : RingKind → Nat
  | .command => 0
  | .reply => 1
  | .event => 2
  | .media => 3

/-- HST_RING_STAT (Table 03-6). -/
def Ring.stat (r : Ring) : Nat :=
  r.state.code * 2 ^ 30 + r.kind.code * 2 ^ 28 + b2n r.injection * 2 ^ 27 + r.vector % 32 * 2 ^ 22 + r.sizeLog2 % 16 * 2 ^ 18 + r.cause.toNat * 256

/-- The ring that HST_RING_SEL shows. -/
def HstFn.shown (p : HstFn) : Ring := tgetD p.rings p.ringSel.toNat {}

/-- A register of the function page of tenant t (Table 03-4). -/
def hstReg (s : State) (t off : Nat) : Word :=
  let p := fnOf s t
  match off with
  | 0x0 => w32 (b2n (decide (t = 0)) * 256 + t)
  | 0x4 => w32 (b2n p.flr * 8 + b2n (isActive s) * 4 + b2n (s.nose.service == .full) * 2 + b2n (live s t))
  | 0x8 => p.badAccess
  | 0xC => p.isoViol
  | 0x10 => w32 p.admCtl
  | 0x20 => halfWord p.cmdBase false
  | 0x24 => halfWord p.cmdBase true
  | 0x28 => halfWord p.cmdWb false
  | 0x2C => halfWord p.cmdWb true
  | 0x30 => halfWord p.rplBase false
  | 0x34 => halfWord p.rplBase true
  | 0x38 => halfWord p.evtBase false
  | 0x3C => halfWord p.evtBase true
  | 0x100 => p.ringSel.zeroExtend 32
  | 0x104 => w32 p.shown.stat
  | 0x108 => p.shown.prod
  | 0x10C => p.shown.cons
  | _ => 0

/-! ### MAC (Tables 04-6 to 04-9) -/

/-- MAC_PORT_STATUS (Table 04-8). -/
def macStatus (s : State) (p : Nat) : Nat :=
  let x := portOf s p
  let now := coreCents s
  let ph := physOf s (p / 2)
  ph.mode % 4 * 2 ^ 26 + b2n x.pln7200 * 2 ^ 25 + b2n (portExists s p) * 2 ^ 24 +
  total ((List.range 8).map fun n => if now < tgetD x.pfcEnd n 0 then 2 ^ (16 + n) else 0) +
  b2n (s.twin.state == .standby) * 64 + b2n ph.mapErr * 32 + b2n (decide (now < x.pauseEnd)) * 16 + b2n x.fecLock * 8 + b2n x.alignLock * 4 + b2n x.link * 2

/-- Pause quanta that remain, rounded up to whole quanta, within the 16 bits of the field. -/
def pauseLeft (s : State) (p : Nat) : Nat := let e := (portOf s p).pauseEnd; least 0xFFFF (ceilDiv (e - coreCents s) (quantaTime s p 1))

/-- A register or counter of the block of logical port p (R113). -/
def macReg (s : State) (p off : Nat) : Word :=
  let x := portOf s p
  match off with
  | 0x0 => w32 (macStatus s p)
  | 0x4 => w32 x.maxLen
  | 0x8 => w32 x.txStart
  | 0xC => w32 (pauseLeft s p)
  | 0x10 => x.addr.extractLsb' 0 32
  | 0x14 => w32 (x.addr.toNat / 2 ^ 32)
  | 0x18 => w32 (x.rxBudget % 2 ^ 21)
  | 0x1C => if p % 2 = 0 then (physOf s (p / 2)).laneMap else 0
  | _ =>
    if 0x40 ≤ off ∧ off < 0xC0 then halfWord (tgetD x.mcast ((off - 0x40) / 8) 0) (decide (off % 8 = 4))
    else if 0x100 ≤ off then counterOf s (portCtr p off) else 0

/-! ### SLG and ATR pages (Tables 06-10, 05-2) -/

/-- Bytes that wait for port p in Sillage. -/
def portBacklog (s : State) (p : Nat) : Nat := total ((s.media.egress.filter fun q => decide (q.port.val = p)).map fun q => q.frameLen s)

/-- SLG_PORT_GATE. -/
def portGate (s : State) (p : Nat) : Nat :=
  let x := portOf s p
  let flag := fun (f : GatePlan → Bool) => b2n ((x.gatePlan.map f).getD false)
  x.gates.toNat + flag (·.mode) * 256 + flag (·.fixed) * 512 + b2n x.gateNext.isSome * 1024

/-- A register of tenant t's SLG page (R183). -/
def slgReg (s : State) (t off : Nat) : Word :=
  if off = 0 then w32 t
  else if 0x8000 ≤ off ∧ off < 0x8080 then
    (if t ≠ 0 then 0 else if off % 16 = 0 then w32 (portGate s (off / 16 % 8)) else if off % 16 = 4 then w32 (portBacklog s (off / 16 % 8)) else 0)
  else if off = 0x2C ∧ t ≠ 0 then 0
  else if 0x10 ≤ off ∧ off < 0x40 then counterOf s (slgCtr t off) else 0

/-- The value that tenant t reads for a slot (Table 05-3). -/
def slotView (s : State) (t i : Nat) : Nat :=
  match slotAt s i with
  | some k => if k.tenant = t then k.code else 15
  | none => 15

/-- A register of tenant t's ATR page (Table 05-2). -/
def atrReg (s : State) (t off : Nat) : Word :=
  if off = 0 then w32 t
  else if off = 4 then w32 (tcount s.obj.slots.live fun _ k => decide (k.tenant = t))
  else if off = 8 then w32 (tcount s.obj.slots.live fun _ k => decide (k.tenant = t) && !(k.state == .empty))
  else if 0x10 ≤ off ∧ off < 0x28 then counterOf s (atrCtr t off)
  else if 0x8000 ≤ off ∧ off < 0x10000 then w32 (total ((List.range 8).map fun j => slotView s t ((off - 0x8000) * 2 + j) * 16 ^ j))
  else 0

/-! ### VID blocks (Tables 07-9, 07-10, 08-9, 08-10, 09-13 to 09-15) -/

/-- The index of a kind of encode context in Table 09-14. -/
def encTaskCode : EncKind → Nat
  | .priv _ => 0
  | .tile _ _ => 1
  | .bridge _ _ => 2

/-- TASK and index of a piece of work as the status registers show them: its context, layout, tile set or leg. A base build is part of the task of the
layout picture that needs it (log entry 161). -/
def workField (s : State) : Work → Nat
  | .decode i => ((s.obj.ins.at? i).bind fun x => x.dec.map fun d => d.index).getD 0 % 4096
  | .layout i _ _ => i % 8192
  | .scale i _ => 1 * 2 ^ 13 + i % 8192
  | .encode i _ _ _ => ((s.obj.encs.at? i).map fun e => encTaskCode e.kind).getD 0 * 2 ^ 13 + i % 2048
  | .stitch i => ((s.obj.outs.at? i).map fun o => o.leg).getD 0 % 8192

/-- BUSY, TASK and index of the task that a completer runs; 0 while it runs none. A task that a TASK_ADMIT row brought names no work, and shows BUSY
alone. -/
def busyFields (s : State) (completer : Nat) : Nat :=
  match tget s.orgue.running completer with
  | none => 0
  | some slot => 2 ^ 15 + (((tget s.orgue.tasks slot).bind fun t => t.job).map fun j => workField s j.work).getD 0

/-- A status register: QUAR, and what the engine runs while it is in service; a spare runs the tasks of the engine that it replaces (R388). -/
def engStatus (s : State) (e : EngStatus) (completer : Nat) : Nat := if e.quar then 2 ^ 31 else busyFields s completer

/-- VID_DEC_STATUSe of a decode engine, kind 1. -/
def decStatus (s : State) (e : EngStatus) (completer : Nat) : Nat := 2 ^ 29 + engStatus s e completer

/-- Of the spare: the engine that it replaces is decode engine SUBST, or encode engine SUBST (Table 07-10). -/
def spareStatus (s : State) (v : VidCluster) : Nat :=
  v.spareKind % 4 * 2 ^ 29 + v.spareFor % 32 * 2 ^ 24 +
    (if v.spareKind = 0 then 0 else busyFields s (v.spareFor + if v.spareKind = 2 then 16 else 0))

/-- Decode contexts homed on a cluster. -/
def decHomed (s : State) (n : Nat) : Nat := tcount s.obj.ins.live fun _ x => (x.dec.map fun d => decide (d.home.val = n)).getD false

/-- A register of Video Cluster n; rates are shown in whole kpixels/s (DEDUCED, log entry 77). -/
def vidReg (s : State) (n off : Nat) : Word :=
  let v := tgetD s.video.clusters n {}
  match off with
  | 0x0 => w32 (decStatus s (v.dec.getD 0 {}) (2 * n))
  | 0x4 => w32 (decStatus s (v.dec.getD 1 {}) (2 * n + 1))
  | 0x8 => w32 (spareStatus s v)
  | 0x10 => w32 (decUsed s n / 1000)
  | 0x14 => w32 (decHomed s n)
  | 0x100 => w32 (engStatus s (v.cmp.getD 0 {}) (32 + 2 * n))
  | 0x104 => w32 (engStatus s (v.cmp.getD 1 {}) (33 + 2 * n))
  | 0x110 => w32 (cmpUsed s n / 1000)
  | 0x114 => w32 (tcount s.obj.layouts.live (fun _ l => decide (l.home.val = n)) + tcount s.obj.tilesets.live (fun _ t => decide (t.home.val = n)))
  | 0x200 => w32 (engStatus s (v.enc.getD 0 {}) (16 + 2 * n))
  | 0x204 => w32 (engStatus s (v.enc.getD 1 {}) (17 + 2 * n))
  | 0x210 => w32 (encUsed s n / 1000)
  | 0x214 => w32 (tcount s.obj.encs.live fun _ e => decide (e.home.val = n))
  | 0x300 => w32 (engStatus s v.stitch (48 + n))
  | 0x310 => w32 (stitchUsed s n)
  | 0x314 => w32 (tcount s.obj.outs.live fun _ o => (o.comp.map fun c => decide (c.stitcher = some n)).getD false)
  | _ => if off < 0x400 then counterOf s (vidCtr n off) else 0

/-! ### ACC blocks (Tables 10-15, 10-16, 11-14, 11-15) -/

/-- Core cycles per block that the audio placed on a cluster reserves (R297). -/
def clusterCycles (s : State) (n : Nat) : Nat :=
  total (s.obj.confs.live.map fun (i, c) => total ([c.image, c.oldImage].map fun h =>
    match (liveIndex s tyImage h).bind s.obj.images.at? with
    | none => 0
    | some m =>
      (if Config.confCore i / 16 = n then m.confCycles else 0) +
      m.inCycles * tcount s.obj.ins.live (fun j x => decide (x.decl.kind = 0) && !x.onTrunk && decide ((Config.audioCluster (2 * j)).toNat = n) &&
        ((s.obj.legs.at? x.owner).map fun l => decide (l.conf = i)).getD false) +
      m.lisCycles * ((audioOuts s i).filter fun o => decide ((Config.audioCluster (2 * o.1 + 1)).toNat = n)).length))

/-- Outbound audio streams placed on a cluster. -/
def outsOn (s : State) (n : Nat) : List (Nat × OutStream) :=
  s.obj.outs.live.filter fun (i, o) => decide (o.decl.kind = 0) && decide ((Config.audioCluster (2 * i + 1)).toNat = n)

/-- ACC_CL_STATUS (Table 10-16). -/
def accStatus (a : AccCluster) : Nat := b2n a.assistQuar * 65536 + a.coreQuar.toNat

/-- ACC_DBG_DATA: the value that ACC_DBG_SEL selects (R336); 0 for a selection that names nothing, and after DEBUG_LOCK. -/
def dbgData (s : State) (n : Nat) : Word :=
  let c := coreOf s n
  let k := c.dbgSel.toNat
  if s.mon.debugLock then 0
  else if k < 0x20 then c.g (BitVec.ofNat 5 k)
  else if k < 0x2C then
    let a := c.a (BitVec.ofNat 2 ((k - 0x20) / 3))
    (match (k - 0x20) % 3 with
     | 0 => a.extractLsb' 0 32
     | 1 => a.extractLsb' 32 32
     | _ => (a.extractLsb' 64 8).signExtend 32)
  else
    match [0x000, 0x001, 0x002, 0x003, 0x004, 0x010, 0x011, 0x020, 0x021, 0x022, 0x023, 0x024, 0x025, 0x030, 0x031, 0x040][k - 0x40]? with
    | some num => if k < 0x40 then 0 else if num = 0 then c.status ||| w32 (b2n (decide (0 < c.rep)) * 8) else c.csr n num
    | none => 0

/-- A debug register of core n of the device (Table 11-15). -/
def dbgReg (s : State) (n off : Nat) : Word :=
  let c := coreOf s n
  match off with
  | 0x0 => w32 (b2n c.haltReq)
  | 0x4 => w32 (b2n (decide (0 < c.rep)) * 8 + b2n c.user * 4 + b2n c.waiting * 2 + b2n c.halted)
  | 0x8 => c.pc
  | 0xC => c.dbgSel.zeroExtend 32
  | 0x10 => dbgData s n
  | _ => 0

/-- A register of Accord Cluster n. -/
def accReg (s : State) (n off : Nat) : Word :=
  let a := accClusterOf s n
  match off with
  | 0x0 => w32 (accStatus a)
  | 0x10 => w32 (least (clusterCycles s n / 1000) 24000)
  | 0x14 => w32 (tcount s.obj.ins.live fun i x => decide (x.decl.kind = 0) && decide ((Config.audioCluster (2 * i)).toNat = n))
  | 0x18 => w32 (outsOn s n).length
  | 0x1C => w32 (distinct ((outsOn s n).map fun (i, o) => (o.audio.map (groupOf i)).getD i)).length
  | 0x20 => w32 (tonesOn s n)
  | 0x24 => w32 (fadesInUse s s.media.tick)
  | 0x110 => w32 (a.dmaWait.toNat / 4 * 4 + b2n a.dmaBusy)
  | _ => if off < 0x200 then counterOf s (accCtr n off) else if 0x1000 ≤ off ∧ off < 0x1400 then dbgReg s (n * 16 + (off - 0x1000) / 0x40) (off % 0x40) else 0

/-! ### MEM, HBM, ORG, TIM, TWN, MON -/

/-- MEM_SQ_STAT (Table 12-12). -/
def sqStat (s : State) : Nat :=
  match tget s.mem.queues s.mem.sqSel.toNat with
  | none => 2 ^ 27
  | some q =>
    2 ^ 31 + b2n q.pinned * 2 ^ 30 + b2n q.pkt * 2 ^ 29 + b2n q.full * 2 ^ 28 + b2n (decide (q.visible = 0)) * 2 ^ 27 + b2n q.disc * 2 ^ 26 +
    q.kind % 16 * 2 ^ 16 + b2n q.frame.isSome * 2 ^ 15 + q.frame.getD 0

/-- A register of the MEM window (Table 12-11). -/
def memReg (s : State) (off : Nat) : Word :=
  match off with
  | 0x200 => w32 (32768 - s.mem.frameFresh + s.mem.frameFreed.length)
  | 0x204 => w32 s.mem.queues.length
  | 0x208 => w32 s.mem.midFree
  | 0x300 => s.mem.sqSel.zeroExtend 32
  | 0x304 => w32 (sqStat s)
  | 0x308 => w32 (((tget s.mem.queues s.mem.sqSel.toNat).map (·.visible)).getD 0)
  | _ =>
    if off < 0x60 then
      (match s.mem.pools[off / 16]?, off % 16 with
       | some p, 0 => w32 p.count
       | some p, 4 => w32 p.free
       | _, _ => counterOf s (memCtr off))
    else if off < 0x220 then counterOf s (memCtr off) else 0

/-- HBM_STACK_STATUS (Table 13-10). -/
def stackStatus (s : State) (n : Nat) : Nat :=
  let k := stackOf s n
  b2n k.pcFailed * 256 + b2n k.poisonFull * 128 + b2n ((List.range 32).all fun i => decide ((pcOf s (n * 32 + i)).sr = 4)) * 64 + b2n k.doubled * 32 +
  k.trainStep % 8 * 4 + b2n k.trainFail * 2 + b2n k.trained

/-- A register of the HBM window (Table 13-7); the read of HBM_MAX_DEBT does not clear it here (`clearDebt`). -/
def hbmReg (s : State) (off : Nat) : Word :=
  let k := stackOf s (off / 65536 - 1)
  match off with
  | 0x0 => s.hbm.postpone.zeroExtend 32
  | 0x4 => s.hbm.log2n.zeroExtend 32
  | 0x8 => s.hbm.seedLo
  | 0xC => s.hbm.seedHi
  | _ =>
    if off < 0x10000 ∨ 0x50000 ≤ off then 0
    else match off % 65536 with
      | 0x0 => w32 (stackStatus s (off / 65536 - 1))
      | 0x4 => k.temp.zeroExtend 32
      | 0x8 => k.repairCa.zeroExtend 32
      | 0xC => k.repairDq
      | 0x10 => w32 k.maxDebt
      | 0x30 => w32 k.poison.length
      | o => if o < 0x48 then counterOf s (hbmCtr (off / 65536 - 1) o) else 0

/-- A register of the ORG window (Table 14-6). -/
def orgReg (s : State) (off : Nat) : Word :=
  if off = 0x30 then w32 (262144 - s.orgue.used) else if off < 0x30 then counterOf s (orgCtr off) else 0

/-- A register of the TIM window (Table 15-6); a VF's page shows its first four (R415). -/
def timReg (s : State) (fn off : Nat) : Word :=
  let t := s.tim
  match off with
  | 0x0 => w32 (nowNs s)
  | 0x4 => (fnOf s fn).timHi
  | 0x8 => (fnOf s fn).timFrac
  | 0xC => timStatus t
  | _ =>
    if fn ≠ 0 then 0
    else match off with
      | 0x10 => w32 (wrapInt 64 (t.r + t.s))
      | 0x14 => w32 (wrapInt 64 (t.r + t.s) / 2 ^ 32)
      | 0x18 => t.lastTheta
      | 0x1C => w32 t.jumpLimit
      | _ =>
        if 0x100 ≤ off ∧ off < 0x180 then
          let x := portOf s (off / 16 - 16)
          (match off % 16 with
           | 0x0 => x.tsIngress
           | 0x4 => x.tsEgress
           | 0x8 => x.tsAsym
           | _ => x.residence)
        else if off < 0x2C then counterOf s (timCtr off) else 0

/-- A register of the TWN window (Table 16-16). -/
def twnReg (s : State) (off : Nat) : Word :=
  let t := s.twin
  match off with
  | 0x0 => w32 (twnStatus t)
  | 0x4 => w32 (t.group.toNat * 256 + t.working.toNat)
  | 0x8 => t.laneMap
  | 0x10 => halfWord s.mon.fusedId false
  | 0x14 => halfWord s.mon.fusedId true
  | 0x18 => halfWord t.peerId false
  | 0x1C => halfWord t.peerId true
  | _ => if 0x100 ≤ off ∧ off < 0x130 then counterOf s (twnCtr off) else 0

/-- ms until the watchdog next expires, 0 while it is disabled. -/
def wdogLeft (s : State) : Nat := if s.nose.wdogInterval = 0 then 0 else s.nose.wdogSince + s.nose.wdogInterval - counterMs s

/-- MON_BOOT (Table 17-10). -/
def monBoot (m : Mon) : Nat := b2n m.staged * 2 ^ 19 + b2n m.fallback * 2 ^ 18 + b2n m.slotB * 2 ^ 17 + m.bootStage.toNat

/-- A register of the MON window (Table 17-8). -/
def monReg (s : State) (off : Nat) : Word :=
  let m := s.mon
  match off with
  | 0x0 => m.resetCause.zeroExtend 32
  | 0x4 => w32 (monBoot m)
  | 0x8 => w32 (m.rollback.toNat * 65536 + b2n m.debugLock)
  | 0xC => w32 (b2n m.opLock)
  | 0x10 => w32 (b2n m.quiesceEn)
  | 0x14 => w32 (b2n (s.nose.service == .full) * 2 + b2n m.quiesce)
  | 0x18 => w32 (m.throttleSensor.toNat * 256 + m.throttle.toNat)
  | 0x1C => w32 m.tempWarn
  | 0x20 => m.vmonAlarm.zeroExtend 32
  | 0x24 => w32 (wdogLeft s)
  | _ =>
    if 0x100 ≤ off ∧ off < 0x170 then w32 (wrapInt 11 (m.temps.getD ((off - 0x100) / 4) 0))
    else if 0x200 ≤ off ∧ off < 0x240 then w32 (m.volts.getD ((off - 0x200) / 4) 0 % 65536)
    else if 0x300 ≤ off ∧ off < 0x380 then w32 (m.procs.getD ((off - 0x300) / 4) 0 % 2 ^ 20)
    else if 0x400 ≤ off ∧ off < 0x414 then counterOf s (monCtr off) else 0

/-! ### The BARs (R63, R64) -/

/-- A register of the PF's BAR0 (Table 03-3). -/
def pfReg (s : State) (a : Nat) : Word :=
  let off := a % 0x400000
  match a / 0x400000 with
  | 0 => hstReg s (off / 65536) (off % 65536)
  | 1 => Config.nosWord off s.nose.fwVersion s.mon.bootStage.toNat s.nose.restarts
  | 2 => if off < 0x80000 then macReg s (off / 65536) (off % 65536) else 0
  | 3 => slgReg s (off / 65536) (off % 65536)
  | 4 => atrReg s (off / 65536) (off % 65536)
  | 5 => vidReg s (off / 0x80000) (off % 0x80000)
  | 6 => accReg s (off / 0x80000) (off % 0x80000)
  | 7 => memReg s off
  | 8 => hbmReg s off
  | 9 => orgReg s off
  | 10 => timReg s 0 off
  | 11 => twnReg s off
  | 12 => monReg s off
  | _ => 0

/-- A register of VF fn's BAR0: four pages of its own tenant (R64). -/
def vfReg (s : State) (fn a : Nat) : Word :=
  match a / 65536 with
  | 0 => hstReg s fn (a % 65536)
  | 1 => atrReg s fn (a % 65536)
  | 2 => slgReg s fn (a % 65536)
  | 3 => timReg s fn (a % 65536)
  | _ => 0

/-- Where BAR4 begins in the addresses of the register commands (log entry 78). -/
def bar4 : Nat := 4 * 2 ^ 32

/-- A doubleword of BAR4: the MSI-X table and the pending bit array (Table 03-2). -/
def msixReg (s : State) (fn off : Nat) : Word :=
  let v := vectorOf s fn (off / 16)
  if off < 512 then
    (match off % 16 with
     | 0 => halfWord v.addr false
     | 4 => halfWord v.addr true
     | 8 => v.data
     | _ => w32 (b2n v.masked))
  else if off = 0x8000 then w32 (total ((List.range 32).map fun i => b2n (vectorOf s fn i).pending * 2 ^ i))
  else 0

/-- What a function reads at an address, before the effects of the read. -/
def regView (s : State) (fn a : Nat) : Word :=
  if bar4 ≤ a then msixReg s fn (a - bar4) else if fn = 0 then pfReg s a else vfReg s fn a

/-! ### Reads with an effect (R377, R396) -/

/-- TIM_NOW_LO of a function. -/
def timNowAt (fn : Nat) : Nat := if fn = 0 then 0x2800000 else 0x30000

/-- A read of TIM_NOW_LO latches the high word and the fraction of its instant for the function. -/
def latchTime (fn : Nat) (s : State) : State := modFn fn (fun p => { p with timHi := w32 (nowNs s / 2 ^ 32), timFrac := w32 (nowFrac s) }) s

/-- The stack whose HBM_MAX_DEBT stands at an address of the PF's BAR0. -/
def debtAt (a : Nat) : Option Nat := if a % 65536 = 0x10 ∧ 0x2010000 ≤ a ∧ a < 0x2050000 then some (a / 65536 % 64 - 1) else none

/-- What a read of one register changes. -/
def readEffect (fn a : Nat) (s : State) : State :=
  if a = timNowAt fn then latchTime fn s
  else match (if fn = 0 then debtAt a else none) with
    | some n => modStack n (fun k => { k with maxDebt := 0 }) s
    | none => s

/-- The access is a naturally aligned one of 32 or 64 bits (R65). -/
def accessOk (a size : Nat) : Bool := (size == 4 || size == 8) && decide (a % size = 0)

/-- With no image booted, STAGE reads 0xF and BAR0 answers reads of the PF's NOS and MON windows alone (R453). -/
def answersRead (s : State) (fn a : Nat) : Bool :=
  s.mon.bootStage != 0xF || (fn == 0 && (a / 0x400000 == 1 || a / 0x400000 == 12))

/-- A register read: the low address first (R65); one of another size or alignment reads 0 and is counted. -/
def readReg (fn a size : Nat) (s : State) : State :=
  let give := fun (v : Nat) (s : State) => { s with hst := { s.hst with lastRead := BitVec.ofNat 64 v } }
  if ¬ answersRead s fn a then s
  else if ¬ accessOk a size then give 0 (badAccess fn s)
  else
    let lo := regView s fn a
    let s := readEffect fn a s
    if size = 4 then give lo.toNat s
    else give (lo.toNat + (regView s fn (a + 4)).toNat * 2 ^ 32) (readEffect fn (a + 4) s)

/-- TIM_NOW_READ: a read of TIM_NOW_LO, or of the register that the address names. -/
def execTimNowRead (fn : Fn) (addr size : Nat) (s : State) : Host.Outcome State Fault Refusal := done s (readReg fn.val addr size s)

/-- SMBUS_BLOCK_READ: the MON register at 4k, from the AON domain (R472). -/
def execSmbusBlockRead (code : Byte) (s : State) : Host.Outcome State Fault Refusal :=
  doneAon s { s with hst := { s.hst with lastRead := (monReg s (4 * code.toNat)).zeroExtend 64 } }

/-! ### Writes -/

/-- A 64-bit register with one half replaced. -/
def putHalf (old : Word64) (hi : Bool) (v : Word) : Word64 :=
  if hi then BitVec.ofNat 64 (v.toNat * 2 ^ 32 + old.toNat % 2 ^ 32) else BitVec.ofNat 64 (old.toNat / 2 ^ 32 * 2 ^ 32 + v.toNat)

/-- A write of a function's own page (Table 03-4). -/
def writeHst (fn off : Nat) (v : Word) (s : State) : State :=
  match off with
  | 0x10 => if v.getLsbD 31 then admEnable fn v s else admDisable fn v s
  | 0x20 => modFn fn (fun p => { p with cmdBase := putHalf p.cmdBase false v }) s
  | 0x24 => modFn fn (fun p => { p with cmdBase := putHalf p.cmdBase true v }) s
  | 0x28 => modFn fn (fun p => { p with cmdWb := putHalf p.cmdWb false v }) s
  | 0x2C => modFn fn (fun p => { p with cmdWb := putHalf p.cmdWb true v }) s
  | 0x30 => modFn fn (fun p => { p with rplBase := putHalf p.rplBase false v }) s
  | 0x34 => modFn fn (fun p => { p with rplBase := putHalf p.rplBase true v }) s
  | 0x38 => modFn fn (fun p => { p with evtBase := putHalf p.evtBase false v }) s
  | 0x3C => modFn fn (fun p => { p with evtBase := putHalf p.evtBase true v }) s
  | 0x100 => modFn fn (fun p => { p with ringSel := v.extractLsb' 0 14 }) s
  | _ => s

/-- A write of MAC_RX_BUDGET [20:0]: below 256 it writes 256; above 1,048,576 the manual states no value (log entry 79). -/
def writeBudget (p : Nat) (v : Word) (s : State) : State :=
  let n := v.toNat % 2 ^ 21
  if 1048576 < n then
    let (x, s) := drawFree s
    modPort p (fun q => { q with rxBudget := x % 2 ^ 21 }) s
  else modPort p (fun q => { q with rxBudget := if n < 256 then 256 else n }) s

/-- A write of a port register (Table 04-7). -/
def writeMac (p off : Nat) (v : Word) (s : State) : State :=
  match off with
  | 0x10 => modPort p (fun q => { q with addr := BitVec.ofNat 48 (q.addr.toNat / 2 ^ 32 * 2 ^ 32 + v.toNat) }) s
  | 0x14 => modPort p (fun q => { q with addr := BitVec.ofNat 48 (v.toNat % 65536 * 2 ^ 32 + q.addr.toNat % 2 ^ 32) }) s
  | 0x18 => writeBudget p v s
  | 0x1C => if p % 2 = 0 then writeLaneMap (p / 2) v s else s
  | _ =>
    if 0x40 ≤ off ∧ off < 0xC0 then
      modPort p (fun q =>
        let i := (off - 0x40) / 8
        { q with mcast := tput q.mcast i (putHalf (tgetD q.mcast i 0) (decide (off % 8 = 4)) v &&& 0x8000FFFFFFFFFFFF) }) s
    else s

/-- A write of a debug register of core n (Table 11-15); R336 refuses a halt or a step. -/
def writeDbg (n off : Nat) (v : Word) (s : State) : State :=
  match off with
  | 0x0 =>
    if dbgRefused s v then dbgDenied s
    else
      let t := haltCore n (v.getLsbD 0) s
      if v.getLsbD 1 then stepHalted n t else t
  | 0xC => if s.mon.debugLock then s else setCore n { coreOf s n with dbgSel := v.extractLsb' 0 8 } s
  | _ => s

/-- A write of the HBM window's common block (Tables 13-7 to 13-9). -/
def writeHbmReg (off : Nat) (v : Word) (s : State) : State :=
  match off with
  | 0x0 => { s with hbm := { s.hbm with postpone := BitVec.ofNat 4 (if 8 < v.toNat % 16 then 8 else v.toNat % 16) } }
  | 0x4 => { s with hbm := { s.hbm with log2n := BitVec.ofNat 4 (clampN 6 13 (v.toNat % 16)) } }
  | 0x8 => reseed { s with hbm := { s.hbm with seedLo := v } }
  | 0xC => reseed { s with hbm := { s.hbm with seedHi := v } }
  | _ => s

/-- A write of the MON window (Table 17-8). -/
def writeMon (off : Nat) (v : Word) (s : State) : State :=
  match off with
  | 0x0 => setMon (fun m => { m with resetCause := m.resetCause &&& ~~~v.extractLsb' 0 10 }) s
  | 0xC => setMon (fun m => { m with opLock := m.opLock || v.getLsbD 0 }) s
  | 0x10 => writePwrCtl v s
  | 0x1C => if s.mon.opLock then s else setMon (fun m => { m with tempWarn := clampN 60 95 (v.toNat % 128) }) s
  | 0x20 => setMon (fun m => { m with vmonAlarm := m.vmonAlarm &&& ~~~v.extractLsb' 0 16 }) s
  | _ => s

/-- A 32-bit write of the PF's BAR0; the windows and pages that are read-only to it take none. -/
def writePf (a : Nat) (v : Word) (s : State) : State :=
  let off := a % 0x400000
  match a / 0x400000 with
  | 0 => if off < 65536 then writeHst 0 off v s else s
  | 2 => if off < 0x80000 then writeMac (off / 65536) (off % 65536) v s else s
  | 6 =>
    let o := off % 0x80000
    if 0x1000 ≤ o ∧ o < 0x1400 then writeDbg (off / 0x80000 * 16 + (o - 0x1000) / 0x40) (o % 0x40) v s else s
  | 7 => if off = 0x300 then { s with mem := { s.mem with sqSel := v.extractLsb' 0 16 } } else s
  | 8 => writeHbmReg off v s
  | 11 => if off = 0xC ∧ v.getLsbD 0 then retrainLink s else s
  | 12 => writeMon off v s
  | _ => s

/-- A 32-bit write of the MSI-X table; a vector that is unmasked while it is pending fires (R78). -/
def writeMsix (fn off : Nat) (v : Word) (s : State) : State :=
  if 512 ≤ off then s
  else
    let x := vectorOf s fn (off / 16)
    let x := match off % 16 with
      | 0 => { x with addr := putHalf x.addr false v }
      | 4 => { x with addr := putHalf x.addr true v }
      | 8 => { x with data := v }
      | _ => { x with masked := v.getLsbD 0 }
    setVector fn (off / 16) (if (fnOf s fn).mute then x else x.release) s

/-- A 32-bit write of a function: a VF writes its own HST page only (R64). -/
def writeOne (fn a : Nat) (v : Word) (s : State) : State :=
  if bar4 ≤ a then writeMsix fn (a - bar4) v s
  else if fn = 0 then writePf a v s
  else if a < 65536 then writeHst fn a v s else s

/-- A page that is read-only to the PF: pages 1-63 of HST, the NOS window, the SLG, ATR and VID pages, and what the MEM window holds beside
MEM_SQ_SEL (Tables 03-3, 06-10, 05-2, 12-11). -/
def readOnlyPage (a : Nat) : Bool :=
  match a / 0x400000 with
  | 0 => decide (0x10000 ≤ a)
  | 1 | 3 | 4 | 5 => true
  | 7 => decide (a / 8 ≠ 0x1C00300 / 8)
  | _ => false

/-- A register write: a 64-bit one covers two registers, the low address first; one of another size or alignment, and one of the PF to a
read-only page, is discarded and counted once (R65, R121). -/
def writeReg (fn a size : Nat) (v : Word64) (s : State) : State :=
  if ¬ accessOk a size then badAccess fn s
  else if fn = 0 ∧ readOnlyPage a then badAccess fn s
  else if size = 4 then writeOne fn a (halfWord v false) s
  else writeOne fn (a + 4) (halfWord v true) (writeOne fn a (halfWord v false) s)

/-- REGISTER_WRITE. -/
def execRegisterWrite (fn : Fn) (addr size : Nat) (value : Word64) (s : State) : Host.Outcome State Fault Refusal :=
  done s (writeReg fn.val addr size value s)

end Sys2Proof.Machine
end

