-- ==== Sys2Proof/Machine/NoseRun.lean ====
section
/-! DEFINITION. The commands by opcode, commands that wait in the Nose, and the events that let them go on: a parsed frame and the drains of key
slots (R30, R48, R99, R138, R140, R141). -/

namespace Sys2Proof.Machine

/-! ### Commands by opcode (Table 03-12) -/

/-- Every host command's rules. -/
def allRules : List CmdRule :=
  [ruleDevQuery, ruleDevReset, ruleRingCreate, ruleRingDestroy, ruleRingReset, ruleVectorConfig, rulePortConfig, ruleWatchdogSet, ruleFwUpdate, ruleDebugLock] ++
  [ruleTenantCreate, ruleTenantModify, ruleTenantDestroy, ruleTenantQuery, ruleTenantRoute] ++
  [ruleConfCreate, ruleConfModify, ruleConfDestroy, ruleConfQuery] ++
  [ruleLegAttach, ruleLegEnable, ruleLegModify, ruleLegHold, ruleLegResume, ruleLegMove, ruleLegDetach, ruleLegQuery] ++
  [ruleStreamAdd, ruleStreamRemove, ruleStreamModify, ruleStreamRoute, ruleStreamKeypic, ruleSlotAssign] ++
  [ruleKeyLoad, ruleKeyErase, ruleKeyDerive, ruleKeyQuery] ++
  [ruleGraphLoad, ruleGraphSwap, ruleGraphUnload, ruleMixCreate, ruleMixModify, ruleMixDestroy, ruleTonePlay, ruleToneStop, ruleIsolationSet] ++
  [ruleLayoutCreate, ruleLayoutModify, ruleLayoutDestroy, ruleLayerFlip, ruleFenceSignal, ruleTilesetCreate, ruleTilesetDestroy, ruleScalerBankLoad] ++
  [rulePolicerSet, ruleEstimatorSet, ruleShaperSet, ruleSchedWeightSet, ruleGateSet, ruleDscpMapSet] ++
  [ruleTimeStep, ruleTimeRate, ruleTimeQuery, rulePtpConfig, rulePpsConfig, rulePortTsComp] ++
  [ruleTwinConfig, ruleTwinRoleSet, ruleTwinResync, ruleTwinQuery, ruleCounterRead, ruleStatusRead, rulePortLoopback, ruleSelftest] ++
  [rulePartitionSet, rulePartitionQuery, rulePoolQuery, ruleCascadeConfig, ruleTrunkCreate, ruleTrunkModify, ruleTrunkDestroy]

/-- The rules of an opcode. -/
def ruleOf (op : Nat) : Option CmdRule := allRules.find? fun r => r.op == op

/-! ### Commands that wait in the Nose (R30, R48, R138, R141) -/

/-- A waiting command tries again: it stays behind an earlier one of its ring, and while what it waits for lasts; else it takes effect or fails
by the checks as they stand now (R82). -/
def retryOne (f : Fetched) (s : State) : State :=
  let c := f.cmd
  if ¬ s.nose.waiting.any f.same then s else
  match ruleOf f.opcode with
  | none => s
  | some r =>
    let before := s.nose.waiting.takeWhile fun g => !f.same g
    let t := { s with nose := { s.nose with waiting := s.nose.waiting.filter fun g => !f.same g } }
    if before.any fun g => g.cmd.fn == c.fn && g.cmd.ring == c.ring then s
    else match fullCheck r c t with
      | some e => answer r.op c (.ofFail e) (countFailure r c e t)
      | none => if r.waits c t ∨ (r.logged ∧ logBusy t) then s else perform r c t

/-- Every waiting command tries again, in the order in which they came; a reset that an answered DEV_RESET asked for may then start (R459). -/
def retryWaiting (s : State) : State := softDue (s.nose.waiting.foldl (fun s f => retryOne f s) s)

/-! ### PARSE_FRAME (R99, R343) -/

/-- PARSE_FRAME; the inputs that waited behind the frame then take their log positions. -/
def execParseFrame (port : PortNo) (s : State) : Host.Outcome State Fault Refusal := done s (retryWaiting (parseNext port.val s))

/-- ATTAR_INGRESS; the inputs that waited behind the packet then take their log positions (R133). -/
def execAttarIngress (s : State) : Host.Outcome State Fault Refusal := done s (retryWaiting (attarIn s))

/-! ### Drains of key slots (R138, R140) -/

/-- KEY_DRAIN_END: the retiring key's work has left the pipeline; the key is discarded, and a key command that waited goes on (R138, R141). -/
def endKeyDrain (i : Nat) (s : State) : State :=
  match slotAt s i with
  | none => s
  | some k => if k.state ≠ .erasing ∧ k.retiring.isSome then retryWaiting (updSlot i (fun k => { k with retiring := none }) s) else s

def execKeyDrainEnd (slot : Nat) (s : State) : Host.Outcome State Fault Refusal := done s (endKeyDrain slot s)

/-- A KEY_ERASE has ended and is answered. -/
def answerErase (f : Fetched) (s : State) : State := answer f.opcode f.cmd {} s

/-- KEY_ERASE_COMPLETE: the keys are overwritten with zeros, the slot is EMPTY, and the command is answered (R140). -/
def endErase (i : Nat) (s : State) : State :=
  match slotAt s i with
  | none => s
  | some k =>
    if k.state = .erasing then
      let s := updSlot i emptySlot s
      let s := match k.eraseOwed with
        | some f => answerErase f s
        | none => s
      retryWaiting s
    else s

def execKeyEraseComplete (slot : Nat) (s : State) : Host.Outcome State Fault Refusal := done s (endErase slot s)

end Sys2Proof.Machine
end

