-- ==== Sys2Proof/Machine/OrgueTasks.lean ====
section
/-! DEFINITION. The Orgue's rows: admission, flag events, dispatch and the completion collector (chapter 14). TASK_RELEASE stands in Engines, beside the
work that it makes visible. -/

namespace Sys2Proof.Machine

/-- TASK_ADMIT: the task enters a slot, or its producer stalls and repeats (R378, R379, R384). -/
def execTaskAdmit (t : TaskReq) (s : State) : Host.Outcome State Fault Refusal := done s (produce t [] none s).2

/-- FLAG_EVENT (R380, R381). -/
def execFlagEvent (slot gen : Nat) (bits : Word) (s : State) : Host.Outcome State Fault Refusal :=
  done s (setFlags slot gen bits s)

/-- TASK_DISPATCH: a free engine takes the head of the highest-priority non-empty list of its target (R382). -/
def execTaskDispatch (completer : Fin 224) (s : State) : Host.Outcome State Fault Refusal :=
  done s <|
    if completerFree s completer.val then
      match headTask (readyFor s completer.val) with
      | none => s
      | some (slot, t) =>
        let s := setTask slot { t with stage := 2 } s
        { s with orgue := { s.orgue with ready := s.orgue.ready.filter (· != slot),
                                         running := tput s.orgue.running completer.val slot } }
    else s

/-- A completion enters its completer's hold; a full hold stalls the completer (R389). -/
def arrive (a : Nat × Nat) (s : State) : State :=
  let hold := tgetD s.orgue.holds a.1 []
  match tget s.orgue.running a.1, tget s.orgue.tasks a.2 with
  | some slot, some t =>
    if slot = a.2 ∧ hold.length < 4 then
      let s := setTask slot { t with stage := 3 } s
      { s with orgue := { s.orgue with running := tdel s.orgue.running a.1, holds := tput s.orgue.holds a.1 (hold ++ [slot]) } }
    else s
  | _, _ => s

/-- Take the oldest completion of a completer's hold (R390). -/
def collect (c : Nat) (s : State) : State :=
  match tgetD s.orgue.holds c [] with
  | [] => s
  | slot :: r =>
    let s := { s with orgue := { s.orgue with holds := if r.isEmpty then tdel s.orgue.holds c else tput s.orgue.holds c r } }
    match tget s.orgue.tasks slot with
    | some t => setTask slot { t with stage := 4 } s
    | none => s

/-- COMPLETION_COLLECT: one CORE cycle of the collector: a window starts over the holds that are not empty, up to 16 completions are taken in
ascending completer number, and the cycle's arrivals enter their holds for a later window (R389, R390). -/
def execCompletionCollect (arrivals : List (Nat × Nat)) (s : State) : Host.Outcome State Fault Refusal :=
  done s <|
    let window := if s.orgue.window.isEmpty then s.orgue.holds.map (·.1) else s.orgue.window
    let s := (window.take 16).foldl (fun s c => collect c s) s
    let s := { s with orgue := { s.orgue with window := window.drop 16 } }
    arrivals.foldl (fun s a => arrive a s) s

/-- Write a task's queue entry at its release (R385). -/
def releaseWrite (flow : Nat) (w : Nat × Nat) (s : State) : State :=
  writeQueue w.1 { buf := BitVec.ofNat 32 w.2, sop := true, eop := true, err := false, len := 1, off := 0, obj := 0,
                          time := BitVec.ofNat 64 (nowNs s), ord := 0, flow := BitVec.ofNat 16 flow, tag := 0 } s

end Sys2Proof.Machine
end

