-- ==== Sys2Proof/Machine/Engines.lean ====
section
/-! DEFINITION. The release of a task, and the rows of the video engines: each takes one task of its kind through an engine (R194, R211, R242, R258, R382,
R385, R386). -/

namespace Sys2Proof.Machine

/-- A task completed more than one picture period after its tick (Tables 08-9, 09-13). -/
def lateBy (s : State) (j : Job) : Nat := b2n (decide (j.due + j.period < nowNs s))

/-- Waits for a decode task that last past their picture tick (R208). -/
def lateWaits (s : State) (num : Nat) : Nat :=
  let late := fun (waits : List Nat) (j : Option Job) => waits.contains num && (j.map fun j => decide (j.due < nowNs s)).getD false
  (s.orgue.tasks.filter fun kt => late kt.2.waits kt.2.job).length + (s.orgue.stalled.filter fun x => late x.waits x.job).length

/-- Count a coded picture in the registers of its cluster, and with its object: key pictures and the encode kinds (Tables 09-11 to 09-13). -/
def countCoded (n : Nat) (c : Coded) (group : Nat) (h : Handle) (s : State) : State :=
  let reg := fun (off k : Nat) (s : State) => count 0 (vidCtr n off) k s
  let s := reg 0x220 1 (reg 0x224 (b2n c.key) (reg 0x228 (b2n c.past) (reg 0x22C (b2n (bit c.flags 0)) (reg 0x230 (b2n (bit c.flags 1)) s))))
  let first := if group = 0x0803 then 2 else 4
  let s := countObj group h first (b2n c.past) (countObj group h (first + 1) (b2n (bit c.flags 0)) (countObj group h (first + 2) (b2n (bit c.flags 1)) s))
  if group = 0x0803 then countObj group h 0 1 (countObj group h 1 (b2n c.intra) s) else s

/-- What the release of a task makes visible (R385). -/
def publish (t : Task) (s : State) : State :=
  let home : ClusterNo := Fin.ofNat 8 t.cluster
  match t.job with
  | none => s
  | some j => match j.work with
    | .decode i =>
      let s := count 0 (vidCtr t.cluster 0x38) (lateWaits s t.num) s
      countDec i 0 0x20 (modDec i (fun d => { d with bufs := d.bufs.map fun b => if b.task = some t.num then { b with task := none } else b }) s)
    | .layout i _ base =>
      let s := countObj 0x0801 (handleOf s tyLayout i) 0 1 (useBase i base home s)
      count 0 (vidCtr t.cluster 0x128) (lateBy s j) (count1 (vidCtr t.cluster 0x120) s)
    | .scale _ _ => count 0 (vidCtr t.cluster 0x128) (lateBy s j) (count1 (vidCtr t.cluster 0x124) s)
    | .encode _ c group h => count 0 (vidCtr t.cluster 0x234) (lateBy s j) (countCoded t.cluster c group h s)
    | .stitch _ => count 0 (vidCtr t.cluster 0x324) (lateBy s j) (count1 (vidCtr t.cluster 0x320) s)

/-- Release the next task of a flow: its results become visible, its queue entries are written, its dependants' flags set, and its slot returns; an empty
or cancelled task writes nothing and sets no flag (R384-R386). -/
def releaseNext (flow : Nat) (s : State) : State :=
  match nextRelease s flow with
  | none => s
  | some (slot, t) =>
    let s := if t.empty then s else
      t.dependants.foldl (fun s d => setFlags d.1 d.2.1 (BitVec.ofNat 32 (2 ^ (d.2.2 % 32))) s)
        (t.writes.foldl (fun s w => releaseWrite flow w s) (publish t s))
    returnSlot slot t s

/-- A LEG_ATTACH that waited for a task of an earlier leg may go on (R48). -/
def afterRelease (s : State) : State := if s.nose.waiting.isEmpty then s else retryWaiting s

/-- TASK_RELEASE (R385). -/
def execTaskRelease (flow : Nat) (s : State) : Host.Outcome State Fault Refusal := done s (afterRelease (releaseNext flow s))

/-- The ready task of a flow that comes first and whose work a test selects. -/
def readyWork (s : State) (flow : Nat) (pick : Job → Bool) : Option (Nat × Task) :=
  (s.orgue.tasks.filter fun kt => decide (kt.2.flow = flow) && decide (kt.2.stage = 1) && (kt.2.job.map pick).getD false).foldl
    (fun (a : Option (Nat × Task)) kt => match a with
      | none => some kt
      | some b => if seqBefore kt.2.seq b.2.seq then some kt else some b) none

/-- Release what a flow has to release. -/
def releaseFlow (flow : Nat) : Nat → State → State
  | 0, s => s
  | fuel + 1, s => if (nextRelease s flow).isSome then releaseFlow flow fuel (releaseNext flow s) else s

/-- A free engine of its target takes the first ready task of an object's flow whose work a test selects, and runs it to completion; the collector takes the
completion, and the flow releases (R382, R385, R390; log entry 160). Without such a task or engine nothing happens. -/
def runWork (owner : Nat) (pick : Job → Bool) (s : State) : State :=
  match flowFor s owner with
  | none => s
  | some f =>
    match readyWork s f pick with
    | none => s
    | some (slot, t) =>
      if (completersOf t.kind t.cluster).any (completerFree s) then
        let s := setTask slot { t with stage := 4 } { s with orgue := { s.orgue with ready := s.orgue.ready.filter (· != slot) } }
        afterRelease (releaseFlow f (s.orgue.tasks.length + 1) s)
      else s

/-- DECODE_PICTURE: the task of the source's picture of an RTP timestamp (R194). -/
def execDecodePicture (stream ts : Nat) (s : State) : Host.Outcome State Fault Refusal := done s (runWork (objRef 4 stream) (fun j => decide (j.tick = ts)) s)

/-- LAYOUT_PICTURE: the first task of the layout for tick k (R211, R228). -/
def execLayoutPicture (layout k : Nat) (s : State) : Host.Outcome State Fault Refusal := done s (runWork (objRef 6 layout) (fun j => decide (j.tick = k)) s)

/-- TILE_SCALING: the task of member `member` for tick k (R211, R228). -/
def execTileScaling (tileset member k : Nat) (s : State) : Host.Outcome State Fault Refusal :=
  done s (runWork (objRef 8 tileset) (fun j => decide (j.work = .scale tileset member) && decide (j.tick = k)) s)

/-- ENCODE_PICTURE: the task of the context for tick k (R242, R249). -/
def execEncodePicture (ctx k : Nat) (s : State) : Host.Outcome State Fault Refusal := done s (runWork (objRef tyEnc ctx) (fun j => decide (j.tick = k)) s)

/-- STITCH_PICTURE: the task of the composite for tick k, on its leg's flow (R258). -/
def execStitchPicture (stream k : Nat) (s : State) : Host.Outcome State Fault Refusal :=
  done s (match s.obj.outs.at? stream with
    | some o => runWork (objRef 3 o.leg) (fun j => decide (j.work = .stitch stream) && decide (j.tick = k)) s
    | none => s)

end Sys2Proof.Machine
end

