-- ==== Sys2Proof/Machine/Failover.lean ====
section
/-! DEFINITION. The Twin Complex, receiving side: link blocks and messages, the received log and its application, failover, planned switchover and
resync (R419, R423, R424, R429, R430, R432, R438-R445). -/

namespace Sys2Proof.Machine

/-! ### The log entries of received messages (Table 16-5) -/

/-- A 64-bit time-stamp in 2^-16 ns as the 80-bit one nearest to now. -/
def extendStamp (now low : Nat) : Nat := ((now : Int) + sext 64 (low + 2 ^ 64 - now % 2 ^ 64)).toNat

/-- A body opened under the pair key with the peer's nonce and its count of sealed messages (R425). -/
def openBody (body : List Byte) (s : State) : Option (List Byte) × State :=
  match s.twin.pairKey with
  | none => (some body, s)
  | some k =>
    (gcmOpen k (leBytes 4 s.twin.peerNonce.toNat ++ leBytes 8 s.twin.peerSealed) [] body, setTwin (fun t => { t with peerSealed := t.peerSealed + 1 }) s)

/-- The command of a whole COMMAND body: its opcode and descriptor, extended block and other data. -/
def commandOf (arg : Nat) (b : List Byte) : Nat × Cmd :=
  let dw0 := BitVec.ofNat 16 (leAt b 6 2)
  let n := if dw0.getLsbD 0 then leAt b 12 4 else 0
  let rest := b.drop 68
  (leAt b 4 2,
   { fn := Fin.ofNat 64 (arg / 2 ^ 24), ring := Fin.ofNat 16 arg, index := BitVec.ofNat 32 (leAt b 0 4), dw0 := dw0,
     tag := BitVec.ofNat 32 (leAt b 8 4), plen := BitVec.ofNat 32 (leAt b 12 4), object := BitVec.ofNat 32 (leAt b 16 4), params := slice b 20 48,
     ext := if dw0.getLsbD 0 then some (rest.take n) else none
     data := if (rest.drop n).isEmpty then none else some (rest.drop n) })

/-- The entry of a log message whose body is whole and open; none for a type that is not of the log class. -/
def entryOf (now : Nat) (m : Msg) (body : List Byte) : Option LogEntry :=
  match m.ty with
  | 0x01 => some (.frame { port := Fin.ofNat 8 m.flags, bytes := body, wire := body.length, stamp := extendStamp now m.arg, err := bit m.flags 7,
                           logged := true, charged := 0 })
  | 0x02 => some (.stub m.arg)
  | 0x03 => some (.tick (bits m.flags 6 2) (m.flags % 64) m.arg)
  | 0x04 => let (op, c) := commandOf m.arg body; some (.command op c (BitVec.ofNat 16 (m.arg / 2 ^ 32)))
  | 0x05 => some (.estimate (BitVec.ofNat 32 (m.arg / 2 ^ 32)) (m.arg % 2 ^ 32))
  | 0x06 => some (.inject (bits m.arg 24 6) (m.arg % 16384) ((List.range 8).map fun i => BitVec.ofNat 32 (leAt body (4 * i) 4)) (body.drop 32))
  | 0x07 => some (.state m.arg (leAt body 0 4))
  | _ => none

/-- The ordinal that the next received entry must have. -/
def nextOrdinal (t : Twin) : Nat :=
  match t.rxLog.getLast? with
  | some e => e.ord + e.entry.ordinals
  | none => t.applied + 1

/-- Blocks of the log receive queue are freed, which returns credit (R424). -/
def freeBlocks (n : Nat) : State → State := setTwin fun t => { t with credit := t.credit + BitVec.ofNat 16 n }

/-- A message of the log class: parts of a command are collected; a whole entry waits to be applied; a missing or repeated ordinal is a link fault
with cause 4, as a body is that does not open (R425, R429). -/
def logMsg (m : Msg) (s : State) : State :=
  if ¬ followsLog s then s
  else if m.ord ≠ nextOrdinal s.twin % 2 ^ 32 then withdraw 4 s
  else if m.ty = 0x04 ∧ bit m.flags 0 then setTwin (fun t => { t with rxCommand := t.rxCommand ++ m.body }) s
  else
    let (body, s) := if m.ty = 0x04 ∧ bit m.flags 1 then openBody m.body s else (some (s.twin.rxCommand ++ m.body), s)
    match body.bind (entryOf (nowStamp s) m) with
    | none => withdraw 4 s
    | some e => setTwin (fun t => { t with
        rxLog := t.rxLog ++ [{ ord := nextOrdinal t, entry := e, blocks := t.rxBlocks }], rxBlocks := 0, rxCommand := [] }) s

/-! ### LOG_APPLY (R429, R444, R445) -/

/-- The conference of a leg, or the trunk: what a resync syncs as one object. -/
def ownerObject (s : State) (trunk : Bool) (i : Nat) : Option Handle :=
  if trunk then some (handleOf s tyTrunk i) else (s.obj.legs.at? i).map fun l => handleOf s tyConf l.conf

/-- The object whose media an entry concerns; none for ticks, commands and the rest. -/
def entryObject (s : State) : LogEntry → Option Handle
  | .frame f => ((datagramOf f.body).bind (classifyTo s)).bind fun (t, i) => ownerObject s t i
  | .estimate h _ => ownerObject s (decide (hType h = tyTrunk)) (hIndex h)
  | .inject _ _ e _ =>
    let h := injObj (dwBytes e)
    if hType h = tyLeg then ownerObject s false (hIndex h) else (s.obj.outs.at? (hIndex h)).bind fun o => ownerObject s false o.leg
  | _ => none

/-- The command of an entry waits for a slot's drain, and its application with it (R138, R141). -/
def entryWaits (s : State) : LogEntry → Bool
  | .command op c _ => ((ruleOf op).map fun r => r.waits c s).getD false
  | _ => false

/-- Apply a logged command: its checks and its effect at its log position, without a reply. An error where ACTIVE had a success is a divergence
(R429). -/
def applyCommand (op : Nat) (c : Cmd) (st : Status) (s : State) : State :=
  match ruleOf op with
  | none => s
  | some r =>
    let (rep, t) := match bodyCheck r c s with
      | some e => (Reply.ofFail e, s)
      | none => r.effect c (setTwin (fun t => { t with applying := true }) s)
    let t := noteApplied c (setTwin (fun t => { t with applying := false, appliedCmd := t.applied }) t)
    let t := if hType c.object = tySlot then updSlot (hIndex c.object) (fun k => { k with eraseOwed := none }) t else t
    if tookEffect st ∧ ¬ tookEffect rep.status then diverge c.object s.media.tick t else t

/-- What an entry other than a frame does, once Attar has processed what came before it (log entry 145). -/
def applyOther (e : LogEntry) (s : State) : State :=
  match e with
  | .frame _ | .stub _ => s
  | .tick 0 _ n => audioTick n s
  | .tick 1 _ m => halfTick m s
  | .tick _ rate k => atPosition (pictureTime rate k) (pictureTick rate k) s
  | .command op c st => applyCommand op c st s
  | .estimate h target => inInput (applyDecision (decide (hType h = tyTrunk)) (hIndex h) target s.media.tick) s
  | .inject _ ring e pkt => inInput (injectPacket ring 0 (dwBytes e) pkt) s
  | .state 1 n => flrTenant n s
  | .state _ _ => s

/-- Apply one entry at its log position. -/
def applyEntry (e : LogEntry) (s : State) : State :=
  match e with
  | .frame f => parseRx none f s
  | _ => applyOther e (attarAll s)

/-- A frame of the log stands in a buffer that the Twin Complex requests for it and hands to the parser; none while no fitting class has one (R351,
R352, Table 12-7). -/
def holdEntry (e : LogEntry) (s : State) : Option LogEntry × State :=
  match e with
  | .frame f =>
    let (got, s) := requestBuffer 14 (max f.bytes.length 1) s
    match got with
    | some h => (some (.frame { f with bufs := [h] }), freeBuffer 0x80 h (some 0x20) s)
    | none => (none, s)
  | _ => (some e, s)

/-- Bytes of an entry in the shadow region. -/
def LogEntry.size : LogEntry → Nat
  | .frame f => 16 + f.bytes.length
  | .inject _ _ _ pkt => 48 + pkt.length
  | .command _ c _ => 84 + (c.ext.getD []).length + (c.data.getD []).length
  | .stub _ | .tick .. | .estimate .. | .state .. => 20

/-- Buffer an entry of an object that is not synced yet. With more than 256 MiB the object restarts its sync point: what is held goes, and ACTIVE is
asked for the object's state again (R444; log entry 73). -/
def bufferEntry (h : Handle) (x : RxEntry) (s : State) : State :=
  let s := setTwin (fun t => { t with buffered := t.buffered ++ [(h, x)] }) s
  if total ((s.twin.buffered.filter fun e => decide (e.1 = h)).map fun e => e.2.entry.size) ≤ 2 ^ 28 then s
  else sendResync resyncAgain 1 (leBytes 4 h.toNat) (setTwin (fun t => { t with
    buffered := t.buffered.filter fun e => !(decide (e.1 = h)), readyObjs := t.readyObjs.filter (· != h) }) s)

/-- The next entry in ordinal order. Media of an object that is not synced yet is buffered (R444). -/
def applyNext (s : State) : State :=
  match s.twin.rxLog with
  | [] => s
  | x :: rest =>
    if ¬ followsLog s ∨ entryWaits s x.entry then s
    else
      let pop := fun (s : State) => freeBlocks x.blocks (setTwin (fun t => { t with rxLog := rest, applied := x.ord + x.entry.ordinals - 1 }) s)
      match (entryObject s x.entry).filter fun h => s.twin.todoObjs.contains h with
      | some h => bufferEntry h x (pop s)
      | none => match holdEntry x.entry s with
        | (some e, s) => applyEntry e (pop s)
        | (none, s) => s

def execLogApply (s : State) : Host.Outcome State Fault Refusal := done s (applyNext s)

/-! ### Failover (R419, R440, R441) -/

/-- The work under a slot's retiring key ends at once, so that a command that waits for it can be applied. -/
def settleSlot (i : Nat) (s : State) : State := endErase i (endKeyDrain i (attarAll s))

/-- Every complete entry is applied (R440 step 2). -/
def applyAll : Nat → State → State
  | 0, s => s
  | fuel + 1, s =>
    match s.twin.rxLog with
    | [] => s
    | x :: _ =>
      let s := match x.entry with
        | .command _ c _ => if entryWaits s x.entry then settleSlot (hIndex c.object) s else s
        | _ => s
      applyAll fuel (applyNext s)

/-- An announce frame, 64 bytes with its FCS: untagged, or with a VID (R419). -/
def announceFrame (addr : BitVec 48) (vid : Option Nat) : List Byte :=
  let tag := match vid with
    | some v => [0x81, 0x00] ++ beBytes 2 v
    | none => []
  slice (List.replicate 6 0xFF ++ beBytes 6 addr.toNat ++ tag ++ [0x88, 0xB5]) 0 60

/-- VIDs that egress legs use on a port, at most 64. -/
def portVids (s : State) (p : Nat) : List Nat :=
  (distinct (s.obj.legs.live.filterMap fun kv =>
    if kv.2.transport.port.val = p ∧ kv.2.transport.vid ≠ 0 then some kv.2.transport.vid else none)).take 64

/-- A frame of the device's own. -/
def ownFrame (bytes : List Byte) : TxFrame := { bytes := bytes, prio := 0, gate := 0, mark := none, ptp := none, tenant := 0 }

/-- A port of a new ACTIVE: unpaused, its announce frames, then its shadow packets after the confirmed numbers (R111, R419, R440 step 4). -/
def startPort (p : Nat) (s : State) : State :=
  let a := (portOf s p).addr
  let hello := if (portOf s p).link ∧ portExists s p then (none :: (portVids s p).map some).map fun v => ownFrame (announceFrame a v) else []
  let shadow := (s.twin.shadow.filter fun e => decide (e.port.val = p) && decide (tgetD s.twin.confirmed e.stream 0 < e.number)).map (·.frame)
  modPort p (fun x => { x with pauseEnd := 0, pfcEnd := [], consumed := [], tx := x.tx ++ hello ++ shadow }) (flushRx p s)

/-- An estimator of a new ACTIVE: the last logged target, empty delay history (R157). -/
def restartEst (e : Estimator) : Estimator := { e with delays := [], group := none, before := none, overuseAt := none, since := 0 }

/-- The Time Unit takes the role of the last PTP_CONFIG (R414). -/
def resumeTime (t : Tim) : Tim := { t with follow := false, ri := t.r, good := 0, master := none, lastSync := none, syncWait := none }

/-- A slot of a tenant whose indexes are not known any more (R441). -/
def loseSlot (i : Nat) (s : State) : State :=
  match slotAt s i with
  | none => s
  | some k =>
    postEvent k.tenant evKeyExhausted (handleOf s tySlot i) 0 0 0
      (updSlot i (fun k => { k with state := .exhausted, spent := k.key, key := none, retiring := none, fallback := none }) s)

/-- Mixes that start from silence. -/
def silentMix (a : AudioOut) : AudioOut := { a with std := [], outPos := none, smooth := [], look := [], down := [], frame := [] }

/-- A decode context in WAIT_KEY, with a key request owed (R205, R441). -/
def loseDecoder (x : InStream) : InStream :=
  match x.dec with
  | none => x
  | some d => { x with dec := some { d with state := .waitKey }, encs := oweKey (encOfNote x d.note) x.encs }

/-- A tenant that the log did not cover: slots EXHAUSTED, contexts in WAIT_KEY, a key picture from each private encode, mixes from silence,
EV_PRECEDENCE (R441). -/
def loseTenant (n : Nat) (s : State) : State :=
  let s := (tfilter s.obj.slots.live fun _ k => decide (k.tenant = n)).foldl (fun s kv => loseSlot kv.1 s) s
  let s := setIns (fun t => { t with live := tmap t.live fun _ x => if x.tenant = n then loseDecoder x else x }) s
  let s := setOuts (fun t => { t with live := tmap t.live fun _ o =>
    if o.tenant = n then { o with
      audio := o.audio.map silentMix
      comp := o.comp.map fun c => if c.priv.isSome ∧ c.requests = 0 then { c with requests := 1 } else c } else o }) s
  postPrecedence 1 3 (handleOf s tyTenant n).toNat true s

/-- Tenants without protection, or whose objects are not synced yet (R441, R445). -/
def lostTenants (s : State) : List Nat := (tfilter s.obj.tenants.live fun n _ => !tenantProtected s n).map (·.1)

/-- STANDBY becomes ACTIVE (R440, R441). After a planned switchover the pair stays protected, and the log goes on after the HANDOVER. -/
def takeOver (cause : Nat) (handover : Option Nat) (s : State) : State :=
  let s := setTwin (fun t => { t with rxBytesLog := [], rxBytesCtl := [], rxCommand := [], rxBlocks := 0 }) s
  let s := applyAll s.twin.rxLog.length s
  if s.twin.state ≠ .standby then s
  else
    let lost := lostTenants s
    let s := (List.range 8).foldl (fun s p => startPort p s) s
    let s := setTwin (fun t => { t with shadow := [], shadowBytes := 0, confirmed := [] }) s
    let s := match handover with
      | some n => setTwin (fun t => { t with logging := true, ordinal := n, pend := [], parseOrder := [] }) s
      | none => endProtection s
    let s := changeRole .active cause { s with tim := resumeTime s.tim }
    let s := setLegs (fun t => { t with live := tmap t.live fun _ l => { l with est := restartEst l.est } }) s
    let s := setTrunks (fun t => { t with live := tmap t.live fun _ l => { l with est := restartEst l.est } }) s
    lost.foldl (fun s n => loseTenant n s) s

/-! ### Loss of the peer (R438, R439) -/

/-- Three heartbeat periods are missing and TWIN_LIVE_IN is low: STANDBY takes over; ACTIVE goes on unprotected; a resync ends. -/
def peerLost (s : State) : State :=
  if s.twin.hbMissed < 3 ∨ s.twin.liveIn then s
  else match s.twin.state with
    | .standby => takeOver 0 none s
    | .syncing => withdraw 0 s
    | .active => if s.twin.logging ∨ s.twin.prot ∨ s.twin.resync then noteCause 8 (unprotect false s) else s
    | _ => s

/-- HEARTBEAT_TIMEOUT: three periods without HB, counted (R437, R438). -/
def execHeartbeatTimeout (s : State) : Host.Outcome State Fault Refusal :=
  done s (if s.twin.paired then peerLost (setTwin (fun t => { t with hbMissed := 3 }) (count 0 (twnCtr 0x118) 3 s)) else s)

/-- TWIN_LIVE_IN_CHANGE. -/
def execTwinLiveInChange (level : Bool) (s : State) : Host.Outcome State Fault Refusal :=
  done s (peerLost (setTwin (fun t => { t with liveIn := level }) s))

/-! ### Planned switchover (R442) -/

/-- The numbers up to which ACTIVE's packets have been consumed, by egress stream. -/
def consumedNumbers (s : State) : Tbl Nat :=
  let waiting := (s.media.egress ++ s.media.outQ).map (fun p => (p.streamId, p.number)) ++ s.ports.flatMap fun kv => kv.2.tx.filterMap (·.mark)
  s.media.numbers.map fun (id, n) =>
    (id, (waiting.filter fun w => decide (w.1 = id)).foldl (fun m w => if w.2 ≤ m then w.2 - 1 else m) n)

/-- The frames of a port that were not sent, as shadow packets. -/
def shadowsOf (p : Nat) (x : Port) : List Shadow :=
  x.tx.filterMap fun f => f.mark.map fun m => { stream := m.1, number := m.2, port := Fin.ofNat 8 p, frame := f }

/-- The old ACTIVE as STANDBY: what it had not sent becomes its shadow, its ports are quiet, its clock follows (R114, R115, R414, R442). -/
def shadowSelf (s : State) : State :=
  let done_ := consumedNumbers s
  let sh := (s.ports.flatMap fun kv => shadowsOf kv.1 kv.2).filter fun e => tenantProtected s e.frame.tenant
  let s := setTwin (fun t => { t with
    shadow := sh, shadowBytes := total (sh.map (·.frame.bytes.length)), confirmed := done_, logging := false, switchReq := false
    applied := t.ordinal, rxLog := [], rxBytesLog := [], rxCommand := [], rxBlocks := 0, firstTime := false }) s
  let s := (List.range 8).foldl (fun s p => flushRx p s) s
  let ports := tmap s.ports fun _ x => { x with tx := [], consumed := [], loopback := 0 }
  { s with ports := ports, tim := { s.tim with follow := true } }

/-- PLANNED_SWITCHOVER at the audio tick after the request: final watermarks, HANDOVER, and the device is STANDBY. It waits while the log still
holds inputs that are not sent or frames that are not parsed. -/
def switchOver (s : State) : State :=
  if s.twin.state ≠ .active ∨ ¬ s.twin.prot ∨ ¬ s.twin.switchReq ∨ logBusy s then s
  else
    let s := flushLog false (s.twin.pend.length + 1) s
    if ¬ s.twin.pend.isEmpty then s
    else
      let s := finalWatermarks s
      let s := sendControl { ty := 0x45, flags := 0, ord := 0, arg := s.twin.ordinal, body := [] } s
      retryWaiting (changeRole .standby 2 (shadowSelf s))

def execPlannedSwitchover (s : State) : Host.Outcome State Fault Refusal := done s (switchOver s)

/-! ### Resync (R443-R445) -/

/-- The Time Unit of a device that takes a base: settings and STEPPED of ACTIVE, its own counter and clock (R414). -/
def baseTim (own base : Tim) : Tim :=
  { base with c := own.c, o := own.o, r := own.r, s := own.s, slew := own.slew, refclkLost := own.refclkLost, follow := true }

/-- A port with ACTIVE's settings and gate state, and its own link and queues. -/
def basePort (own base : Port) : Port :=
  { base with fecLock := own.fecLock, alignLock := own.alignLock, link := own.link, pauseEnd := own.pauseEnd, pfcEnd := own.pfcEnd, loopback := 0,
              rx := own.rx, tx := [], lastTx := own.lastTx, consumed := [] }

/-- The Memory Complex of a device that takes a base: ACTIVE's queue assignments, without entries, and its own pools. -/
def baseMem (own base : Mem) : Mem :=
  { base with pools := own.pools, cycle := own.cycle, granted := own.granted
              queues := tmap base.queues fun _ q => { kind := q.kind, owner := q.owner, cap := q.cap, pinned := q.pinned, pkt := q.pkt, frame := q.frame } }

/-- The base of a resync: STANDBY builds the same tables and is SYNCING (Table 16-10). What its own engines, cores and scratchpads are is no table of
the base. -/
def takeBase (bs : List Byte) (s : State) : State :=
  let b := resyncTables bs
  let s := (List.range 8).foldl (fun s p => flushRx p s) s
  let s := { s with
    obj := b.obj, media := b.media, video := { b.video with clusters := s.video.clusters }, mem := baseMem s.mem b.mem
    orgue := { b.orgue with quarantined := s.orgue.quarantined }, tim := baseTim s.tim b.tim
    ports := tmap b.ports fun p x => basePort (portOf s p) x
    phys := tmap b.phys fun n x => { physOf s n with mode := x.mode } }
  let objs := protectedObjects s
  quietRole .syncing (setTwin (fun t => { t with
    resync := true, asking := false, applied := 0, appliedCmd := 0, rxLog := [], buffered := [], readyObjs := [], todoObjs := objs, toSync := objs.length, synced := 0
    confirmed := [], shadow := [], shadowBytes := 0, syncStart := if t.resync then t.syncStart else counterMs s }) s)

/-- Entries of a received table that meet a condition, put over the own ones. -/
def past {α : Type} (p : Nat → α → Bool) (base own : Tbl α) : Tbl α := (tfilter base p).foldl (fun t kv => tput t kv.1 kv.2) own

/-- The slots that a leg and its streams name. -/
def slotsNamed (o : Objects) (l : Leg) : List Nat :=
  let decls := (l.ins.filterMap o.ins.at?).map (·.decl) ++ (l.outs.filterMap o.outs.at?).map (·.decl)
  ([l.rtcpIn, l.rtcpOut] ++ l.slots.flatMap (fun f => [f.slot, f.rtxSlot]) ++ decls.flatMap fun d => [d.slot, d.rtxSlot, d.fecSlot]).map hIndex

/-- The media state of one conference, with its legs, or of one trunk, as of its sync point (Table 16-10). -/
def takeObject (h : Handle) (bs : List Byte) (s : State) : State :=
  let b := resyncTables bs
  let i := hIndex h
  let conf := decide (hType h = tyConf)
  let legs := b.obj.legs.live.filter fun kv => conf && decide (kv.2.conf = i)
  let isLeg := fun (n : Nat) => legs.any fun kv => decide (kv.1 = n)
  let owned := fun (n : Nat) (trunk : Bool) => if trunk then !conf && decide (n = i) else isLeg n
  let tls := (b.obj.tilesets.live.filter fun kv => conf && decide (kv.2.conf = i)).map (·.1)
  let slots := legs.flatMap (fun kv => slotsNamed b.obj kv.2) ++
    (if conf then [] else ((b.obj.trunks.at? i).map fun t => (t.tx ++ t.rx).map hIndex).getD [])
  let o := s.obj
  let o := { o with
    confs := { o.confs with live := past (fun n _ => conf && decide (n = i)) b.obj.confs.live o.confs.live }
    trunks := { o.trunks with live := past (fun n _ => !conf && decide (n = i)) b.obj.trunks.live o.trunks.live }
    legs := { o.legs with live := past (fun n _ => isLeg n) b.obj.legs.live o.legs.live }
    ins := { o.ins with live := past (fun _ (x : InStream) => owned x.owner x.onTrunk) b.obj.ins.live o.ins.live }
    outs := { o.outs with live := past (fun _ (x : OutStream) => isLeg x.leg) b.obj.outs.live o.outs.live }
    layouts := { o.layouts with live := past (fun _ (x : Layout) => conf && decide (x.conf = i)) b.obj.layouts.live o.layouts.live }
    mixes := { o.mixes with live := past (fun _ (x : Mix) => conf && decide (x.conf = i)) b.obj.mixes.live o.mixes.live }
    tilesets := { o.tilesets with live := past (fun _ (x : TileSet) => conf && decide (x.conf = i)) b.obj.tilesets.live o.tilesets.live }
    encs := { o.encs with live := past (fun _ (x : EncCtx) => match x.kind with
      | .priv k => ((b.obj.outs.at? k).map fun u => isLeg u.leg).getD false
      | .tile t _ => tls.contains t
      | .bridge t _ => tls.contains t) b.obj.encs.live o.encs.live }
    slots := { o.slots with live := past (fun n _ => slots.contains n) b.obj.slots.live o.slots.live } }
  let m := s.media
  let m := { m with
    egress := m.egress.filter (fun p => !owned p.owner p.onTrunk) ++ b.media.egress.filter fun p => owned p.owner p.onTrunk
    cache := m.cache.filter (fun e => !isLeg e.owner) ++ b.media.cache.filter fun e => isLeg e.owner
    numbers := past (fun n _ => slots.contains n) b.media.numbers m.numbers }
  { s with obj := o, media := m }

/-- A record that asks for a resync: the checks of Table 16-9 against the items that it carries. The device that is ACTIVE then starts. -/
def askedResync (bs : List Byte) (s : State) : State :=
  if ¬ mayResync s then s
  else
    let item := failedItem s (itemsOf 7 bs)
    let s := setTwin (fun t => { t with checkItem := item }) s
    if item ≠ 0 then sendResync resyncRefused 1 [BitVec.ofNat 8 item] s
    else if isActive s then startResync s
    else sendResync resyncAgreed 1 [] s

/-- The peer found an item that differs: the asking device is told, and its TWIN_RESYNC fails. -/
def refusedResync (item : Nat) (s : State) : State :=
  if s.twin.asking then
    answerResync { status := stDiverged, detail := BitVec.ofNat 32 item } (setTwin (fun t => { t with resync := false, asking := false, checkItem := item }) s)
  else s

/-- The peer has lost an object's buffered log: the object is to be synced again. -/
def againResync (h : Handle) (s : State) : State :=
  if ¬ s.twin.resync ∨ ¬ s.twin.logging ∨ s.twin.todoObjs.contains h then s
  else setTwin (fun t => { t with todoObjs := t.todoObjs ++ [h], synced := t.synced - 1 }) s

/-- A resync message (R444): a request, its answer, the base, or the state of one object. -/
def resyncMsg (m : Msg) (s : State) : State :=
  let (body, s) := if bit m.flags 0 then openBody m.body s else (some m.body, s)
  match body with
  | none => if followsLog s then withdraw 4 s else s
  | some bs =>
    let whole := decide (bs.length < 65504)
    if m.arg = resyncAsk then askedResync bs s
    else if m.arg = resyncRefused then refusedResync (beAt bs 0 1) s
    else if m.arg = resyncAgain then againResync (BitVec.ofNat 32 (leAt bs 0 4)) s
    else if m.arg = resyncAgreed then (if s.twin.asking ∧ isActive s then startResync s else s)
    else
      let all := s.twin.resyncRx ++ bs
      let s := setTwin (fun t => { t with resyncRx := if whole then [] else all }) s
      if ¬ whole then s
      else if m.arg = resyncBase then (if s.twin.state = .withdrawn ∧ s.twin.paired then takeBase all s else s)
      else if s.twin.todoObjs.contains (BitVec.ofNat 32 m.arg) ∧ followsLog s then
        setTwin (fun t => { t with
          readyObjs := t.readyObjs ++ [BitVec.ofNat 32 m.arg]
          buffered := t.buffered.filter fun e => !(decide (e.1 = BitVec.ofNat 32 m.arg) && decide (e.2.ord % 2 ^ 32 ≤ m.ord)) })
          (takeObject (BitVec.ofNat 32 m.arg) all s)
      else s

/-- An object is synced. -/
def noteSynced (h : Handle) : State → State :=
  setTwin fun t => { t with synced := t.synced + 1, todoObjs := t.todoObjs.filter (· != h), readyObjs := t.readyObjs.filter (· != h) }

/-- The object whose sync point is next: the first that still exists (Table 16-10). -/
def nextObject (s : State) : Option Handle := s.twin.todoObjs.find? fun h => (liveIndex s (hType h) h).isSome

/-- RESYNC_OBJECT_SYNC: ACTIVE sends an object's media state at its sync point, the objects in their order; the other device, once it has it, replays the object's buffered
log and processes it live from there. -/
def syncObject (h : Handle) (s : State) : State :=
  if ¬ s.twin.resync ∨ ¬ s.twin.todoObjs.contains h then s
  else if s.twin.state = .active ∧ s.twin.logging then
    if nextObject s ≠ some h then s else
    let bs := resyncBytes h.toNat (baseTables s)
    noteSynced h (sendResync h.toNat (bs.length + 1) bs s)
  else if followsLog s ∧ s.twin.readyObjs.contains h then
    let mine := s.twin.buffered.filter fun e => decide (e.1 = h)
    let s := noteSynced h (setTwin (fun t => { t with buffered := t.buffered.filter fun e => !(decide (e.1 = h)) }) s)
    mine.foldl (fun s e => applyEntry e.2.entry s) s
  else s

def execResyncObjectSync (obj : Handle) (s : State) : Host.Outcome State Fault Refusal := done s (syncObject obj s)

/-- Every object that still exists is synced. -/
def allSynced (s : State) : Bool := s.twin.todoObjs.all fun h => (liveIndex s (hType h) h).isNone

/-- The pair is protected: duration, event, the reply of a TWIN_RESYNC (R443). -/
def protect (s : State) : State :=
  let ms := counterMs s - s.twin.syncStart
  let s := postDevice evTwinProtected ms 0 (setTwin (fun t => { t with
    prot := true, duration := ms, todoObjs := [], unsynced := [], forming := [], ownDigests := [], peerDigests := [], ownTicks := [], peerTicks := [] }) s)
  let s := answerResync {} s
  let ports := tmap s.ports fun _ x => { x with consumed := [] }
  setTwin (fun t => { t with resync := false }) { s with ports := ports }

/-- Numbers from which records of 15 bits are extended at first. -/
def firstConfirmed (s : State) : Tbl Nat := s.media.numbers.map fun (id, n) => (id, n - 16384)

/-- RESYNC_COMPLETE: the device that synced is STANDBY and protects; for a tenant of a pair that is protected already, its objects now are
(R443, R445). -/
def endResync (s : State) : State :=
  if ¬ s.twin.resync ∨ ¬ allSynced s then s
  else if s.twin.prot then setTwin (fun t => { t with resync := false, unsynced := [], todoObjs := [] }) s
  else match s.twin.state with
    | .active => if ¬ groupServes s then unprotect false s else if s.twin.logging then protect s else s
    | .syncing =>
      if ¬ groupServes s then withdraw 9 s else
      let ports := tmap s.ports fun _ x => { x with loopback := 0 }
      protect (quietRole .standby (setTwin (fun t => { t with confirmed := firstConfirmed s, shadow := [], shadowBytes := 0 }) { s with ports := ports }))
    | _ => s

def execResyncComplete (s : State) : Host.Outcome State Fault Refusal := done s (endResync s)

/-! ### Control messages (R430, R432, R435, R442) -/

/-- The number nearest at or above a confirmed one whose low 15 bits are n (R432). -/
def extendNumber (confirmed n : Nat) : Nat := confirmed + (n + 32768 - confirmed % 32768) % 32768

/-- One watermark record confirms a stream, and the shadow packets up to its number go (R432, R433). -/
def confirmStream (r : Nat) (s : State) : State :=
  let id := r / 32768 % 131072
  let n := extendNumber (tgetD s.twin.confirmed id 0) (r % 32768)
  setTwin (fun t =>
    let sh := t.shadow.filter fun e => !(decide (e.stream = id) && decide (e.number ≤ n))
    { t with confirmed := tput t.confirmed id n, shadow := sh, shadowBytes := total (sh.map (·.frame.bytes.length)) }) s

/-- The records of a body, each of n bytes. -/
def recordsOf (n : Nat) (body : List Byte) : List (List Byte) := (List.range (body.length / n)).map fun i => slice body (n * i) n

/-- A digest record of interval n. -/
def digestOf (n : Nat) (b : List Byte) : DigestRec := { tick := n, object := leAt b 0 2, count := leAt b 2 2, crc := BitVec.ofNat 64 (leAt b 8 8) }

/-- A DIGEST message; one with fewer than 4,000 records ends the interval (R435; log entry 71). -/
def takeDigests (n : Nat) (body : List Byte) (s : State) : State :=
  let rs := (recordsOf 16 body).map (digestOf n)
  compareDigests (setTwin (fun t => { t with
    peerDigests := t.peerDigests ++ rs, peerTicks := if rs.length < 4000 then t.peerTicks ++ [n] else t.peerTicks }) s)

/-- Interval between TIME messages, 125 µs in 2^-16 ns. -/
def timeInterval : Nat := 125000 * 65536

/-- A TIME message: its stamps are kept; a follower forms θ from the exchange, steps at the first one after pairing, and steers by rate without
the jump limit (R430; PRESUMED which device's stamps are t1 to t4, log entry 80). -/
def takeTime (sent : Nat) (body : List Byte) (s : State) : State :=
  let t1 := s.twin.timeSent
  let t2 := leAt body 0 8
  let t4 := nowStamp s
  let s := setTwin (fun t => { t with timePeer := sent, timeRx := t4 % 2 ^ 64 }) s
  if ¬ followsLog s ∨ t1 = 0 ∨ t2 = 0 then s
  else
    let diff := fun (a b : Nat) => sext 64 (a % 2 ^ 64 + 2 ^ 64 - b % 2 ^ 64)
    let theta := (diff t2 t1 - diff t4 sent).tdiv 2
    let s := setTim (fun t => { t with lastTheta := BitVec.ofNat 32 (wholeNs theta) }) s
    if s.twin.firstTime then setTwin (fun t => { t with firstTime := false }) (addOffset (theta * 2 ^ 16) s)
    else steer theta timeInterval s

/-- A HANDOVER message: a withdrawal, the other device's takeover, or to ACTIVE a request to hand over (R424, R442; log entry 72). -/
def takeHandover (m : Msg) (s : State) : State :=
  if bit m.flags 0 then (if followsLog s then withdraw 6 s else s)
  else match s.twin.state with
    | .standby => takeOver 2 (some m.arg) s
    | .active => if s.twin.prot then setTwin (fun t => { t with switchReq := true }) s else s
    | _ => s

/-- A message of the control class; PAIR is the PAIR row's (log entry 81). -/
def controlMsg (m : Msg) (s : State) : State :=
  match m.ty with
  | 0x41 => if s.twin.state = .standby then (recordsOf 4 m.body).foldl (fun s r => confirmStream (leAt r 0 4) s) s else s
  | 0x42 => if s.twin.prot then takeDigests m.arg m.body s else s
  | 0x43 => takeTime m.arg m.body s
  | 0x44 => resyncMsg m s
  | 0x45 => takeHandover m s
  | _ => s

/-! ### BLOCK_RECEIVE (R422-R424, R437, R438) -/

/-- The bytes of a class that are not parsed yet. -/
def classBytes (control : Bool) (t : Twin) : List Byte := if control then t.rxBytesCtl else t.rxBytesLog

def setClass (control : Bool) (bs : List Byte) : State → State :=
  setTwin fun t => if control then { t with rxBytesCtl := bs } else { t with rxBytesLog := bs }

/-- Take every whole message of a class; bytes of TYPE 0 pad the block out (log entry 32). -/
def takeMsgs (control : Bool) : Nat → State → State
  | 0, s => s
  | fuel + 1, s =>
    match firstMsg (classBytes control s.twin) with
    | none => s
    | some (m, rest) =>
      if m.ty = 0 then setClass control [] s
      else
        let s := setClass control rest s
        takeMsgs control fuel (if control then controlMsg m s else logMsg m s)

/-- The stream of a class with a further payload: a message that begins in it stands at FIRST, and nothing before it belongs to a message that
was not begun. -/
def joinPayload (old : List Byte) (first : Nat) (payload : List Byte) : List Byte :=
  if first = 0 then payload
  else if old.isEmpty then (if first = 0x1FF then [] else payload.drop first)
  else old ++ payload

/-- The payload of an accepted block. A device that follows no log frees log blocks at once. -/
def takePayload (h : BlockHead) (payload : List Byte) (s : State) : State :=
  if h.idle then s
  else
    let s := if h.control then s else if followsLog s then setTwin (fun t => { t with rxBlocks := t.rxBlocks + 1 }) s else freeBlocks 1 s
    let bs := joinPayload (classBytes h.control s.twin) h.first payload
    takeMsgs h.control (bs.length / 16 + 1) (setClass h.control bs s)

/-- Acknowledged blocks leave the replay buffer; NAK has the rest sent again (R423). -/
def takeAck (h : BlockHead) (s : State) : State :=
  let kept := lastN (s.twin.txSeq - BitVec.ofNat 16 h.ack).toNat s.twin.replay
  let s := setTwin (fun t => { t with replay := kept, peerCredit := BitVec.ofNat 16 h.credit }) s
  if h.nak then count 0 (twnCtr 0x100) kept.length (count 0 (twnCtr 0x110) kept.length s) else s

/-- The peer's state: a peer that leaves STANDBY or SYNCING for WITHDRAWN or FAULT_STOP protects no longer. After a withdrawal a resync is owed under
AUTO_RESYNC (R436; log entry 82). -/
def takePeerState (h : BlockHead) (s : State) : State :=
  let was := s.twin.peerState.toNat
  let s := setTwin (fun t => { t with peerState := BitVec.ofNat 3 h.state }) s
  if (was = 2 ∨ was = 3) ∧ (h.state = 4 ∨ h.state = 5) ∧ s.twin.state = .active ∧ (s.twin.prot ∨ s.twin.logging) then unprotect (decide (h.state = 4)) s else s

/-- A block with FAULT: STANDBY takes over, a resync ends (R438, R444). -/
def takeFault (s : State) : State :=
  match s.twin.state with
  | .standby => takeOver 1 none s
  | .syncing => withdraw 1 s
  | _ => s

/-- BLOCK_RECEIVE: corrected, checked, and accepted in sequence; else discarded, and NAK is owed. -/
def receiveBlock (blk : List Byte) (s : State) : State :=
  if ¬ s.twin.link ∨ s.twin.state = .faultStop then s
  else
    let (b, fixed) := correctBlock (slice blk 0 448)
    let s := count 0 (twnCtr 0x108) fixed s
    let nak := setTwin fun t => { t with nak := true }
    if ¬ blockGood b then nak (count1 (twnCtr 0x10C) s)
    else
      let s := count1 (twnCtr 0x104) s
      let h := headOf b
      if h.bseq ≠ (s.twin.rxSeq + 1).toNat then nak s
      else
        let s := setTwin (fun t => { t with rxSeq := t.rxSeq + 1, hbMissed := if h.hb then 0 else t.hbMissed }) s
        let s := takePayload h (slice b 16 400) (takeAck h s)
        let s := takePeerState h s
        softDue (if h.fault then takeFault s else s)

def execBlockReceive (blk : List Byte) (s : State) : Host.Outcome State Fault Refusal := done s (receiveBlock blk s)

end Sys2Proof.Machine
end

