-- ==== Sys2Proof/Machine/Pcie.lean ====
section
/-! DEFINITION. The PCI Express configuration space (R61, R63, R78, R452, Tables 03-1 and 03-2). The manual gives the features and their values;
where a field stands in its register is PCI Express's (PRESUMED, log entry 142). -/

namespace Sys2Proof.Machine

/-- The size of BAR0, BAR2 or BAR4, n = 0, 1, 2, of a PF or a VF (Table 03-2). -/
def barSize (vf : Bool) (n : Nat) : Nat := match n with
  | 0 => if vf then 0x40000 else 0x4000000
  | 1 => 0x20000
  | _ => 0x10000

/-- A 64-bit, non-prefetchable memory BAR as it reads: the base that its size leaves, and its type bits (R63). -/
def barView (vf : Bool) (n : Nat) (base : Word64) : Nat := base.toNat / barSize vf n * barSize vf n + 4

/-- Capabilities by identifier, and extended ones: power management, MSI-X, PCI Express; AER, SR-IOV of the PF, L1 PM substates. No other capability
is in configuration space (R61). -/
def hasCapability (fn : Nat) (ext : Bool) (id : Nat) : Bool :=
  if ext then id == 0x0001 || (id == 0x0010 && fn == 0) || id == 0x001E else id == 0x01 || id == 0x11 || id == 0x10

/-- What a read of a configuration register returns. -/
def cfgView (s : State) (fn : Nat) (r : CfgReg) : Nat :=
  let p := fnOf s fn
  let c := p.cfg
  match r with
  | .deviceId => if fn = 0 then 0x9416 else 0x9417
  | .classCode => 0x048000
  | .bar n => if fn = 0 then barView false n.val (c.bars.getD n.val 0) else 0
  | .vfBar n => if fn = 0 then barView true n.val (c.vfBars.getD n.val 0) else 0
  | .msixControl => 31 + b2n c.funcMask * 2 ^ 14 + b2n c.msixEnable * 2 ^ 15
  | .deviceCapabilities => 2 + 2 ^ 28
  | .deviceControl => c.payload % 8 * 2 ^ 5 + c.readReq % 8 * 2 ^ 12
  | .deviceCapabilities2 => 2 ^ 16 + 2 ^ 17
  | .deviceControl2 => b2n c.tag10 * 2 ^ 12
  | .linkCapabilities => 5 + 8 * 2 ^ 4 + 2 * 2 ^ 10
  | .linkControl => b2n (c.aspm.getLsbD 0) * 2
  | .l1Control => b2n (c.aspm.getLsbD 2) * 4 + b2n (c.aspm.getLsbD 1) * 8
  | .powerControl => if p.d3hot then 3 else 0
  | .aerControl => 2 ^ 5 + b2n c.ecrcGen * 2 ^ 6 + 2 ^ 7 + b2n c.ecrcCheck * 2 ^ 8
  | .sriovControl => if fn = 0 then b2n s.hst.vfEnable else 0
  | .sriovVfs => if fn = 0 then 63 + 63 * 2 ^ 16 else 0
  | .numVfs => if fn = 0 then c.numVfs else 0
  | .vfOffsetStride => if fn = 0 then 1 + 1 * 2 ^ 16 else 0
  | .vfDeviceId => if fn = 0 then 0x9417 * 2 ^ 16 else 0
  | .systemPageSize => if fn = 0 then 1 else 0
  | .capability e id => b2n (hasCapability fn e id)

/-- What a write of a configuration register leaves in a function's space; a read-only register stays. -/
def PcieCfg.write (c : PcieCfg) (fn : Nat) (r : CfgReg) (v : Word64) : PcieCfg :=
  let n := v.toNat
  match r with
  | .bar i => if fn = 0 then { c with bars := c.bars.set i.val v } else c
  | .vfBar i => if fn = 0 then { c with vfBars := c.vfBars.set i.val v } else c
  | .msixControl => { c with funcMask := v.getLsbD 14, msixEnable := v.getLsbD 15 }
  | .deviceControl =>
    { c with payload := if n / 32 % 8 ≤ 2 then n / 32 % 8 else c.payload, readReq := if n / 4096 % 8 ≤ 5 then n / 4096 % 8 else c.readReq }
  | .deviceControl2 => { c with tag10 := v.getLsbD 12 }
  | .linkControl => { c with aspm := c.aspm &&& 6 ||| BitVec.ofNat 3 (n / 2 % 2) }
  | .l1Control => { c with aspm := c.aspm &&& 1 ||| BitVec.ofNat 3 (n / 8 % 2 * 2 + n / 4 % 2 * 4) }
  | .aerControl => { c with ecrcGen := v.getLsbD 6, ecrcCheck := v.getLsbD 8 }
  | .numVfs => if fn = 0 ∧ n ≤ 63 then { c with numVfs := n } else c
  | _ => c

/-- A write of a configuration register: the vectors of a function that may now send fire (R78). D3hot and function-level resets have rows of
their own. -/
def writeCfg (fn : Nat) (r : CfgReg) (v : Word64) (s : State) : State :=
  let s := modFn fn (fun p => ({ p with cfg := p.cfg.write fn r v } : HstFn).unmuted) s
  if r = .sriovControl ∧ fn = 0 then { s with hst := { s.hst with vfEnable := v.getLsbD 0 } } else s

/-- PCIE_CONFIG_REQUEST: retry status within 100 ms of the release, counted through SOFT resets, and no effect; else the read or the write
completes (R452). -/
def configRequest (fn : Nat) (r : CfgReg) (write : Option Word64) (s : State) : State :=
  if s.mon.sinceNs + s.tim.c < 100000000 then { s with hst := { s.hst with cfgRetry := true } }
  else
    let s := { s with hst := { s.hst with cfgRetry := false } }
    match write with
    | some v => writeCfg fn r v s
    | none => { s with hst := { s.hst with lastRead := BitVec.ofNat 64 (cfgView s fn r) } }

def execPcieConfigRequest (req : CfgRequest) (s : State) : Host.Outcome State Fault Refusal :=
  done s (configRequest req.fn.val req.reg req.write s)

/-- ASPM_L1_ENTRY: L1, L1.1 or L1.2; no setting changes. -/
def execAspmL1Entry (sub : Fin 3) (s : State) : Host.Outcome State Fault Refusal :=
  done s { s with hst := { s.hst with linkL1 := sub.val + 1 } }

/-- LINK_L1_EXIT. -/
def execLinkL1Exit (s : State) : Host.Outcome State Fault Refusal := done s { s with hst := { s.hst with linkL1 := 0 } }

end Sys2Proof.Machine
end

