-- ==== Sys2Proof/Machine/Dispatch.lean ====
section
/-! DEFINITION. One arm per command: each is one direct call of its meaning. -/

namespace Sys2Proof.Machine

def exec (i : Instr) (s : State) : Host.Outcome State Fault Refusal :=
  match i with
  | .devQuery c => Sys2Proof.Machine.execDevQuery c s
  | .devReset c => Sys2Proof.Machine.execDevReset c s
  | .ringCreate c => Sys2Proof.Machine.execRingCreate c s
  | .ringDestroy c => Sys2Proof.Machine.execRingDestroy c s
  | .ringReset c => Sys2Proof.Machine.execRingReset c s
  | .vectorConfig c => Sys2Proof.Machine.execVectorConfig c s
  | .portConfig c => Sys2Proof.Machine.execPortConfig c s
  | .watchdogSet c => Sys2Proof.Machine.execWatchdogSet c s
  | .fwUpdate c => Sys2Proof.Machine.execFwUpdate c s
  | .debugLock c => Sys2Proof.Machine.execDebugLock c s
  | .tenantCreate c => Sys2Proof.Machine.execTenantCreate c s
  | .tenantModify c => Sys2Proof.Machine.execTenantModify c s
  | .tenantDestroy c => Sys2Proof.Machine.execTenantDestroy c s
  | .tenantQuery c => Sys2Proof.Machine.execTenantQuery c s
  | .tenantRoute c => Sys2Proof.Machine.execTenantRoute c s
  | .confCreate c => Sys2Proof.Machine.execConfCreate c s
  | .confModify c => Sys2Proof.Machine.execConfModify c s
  | .confDestroy c => Sys2Proof.Machine.execConfDestroy c s
  | .confQuery c => Sys2Proof.Machine.execConfQuery c s
  | .legAttach c => Sys2Proof.Machine.execLegAttach c s
  | .legEnable c => Sys2Proof.Machine.execLegEnable c s
  | .legModify c => Sys2Proof.Machine.execLegModify c s
  | .legHold c => Sys2Proof.Machine.execLegHold c s
  | .legResume c => Sys2Proof.Machine.execLegResume c s
  | .legMove c => Sys2Proof.Machine.execLegMove c s
  | .legDetach c => Sys2Proof.Machine.execLegDetach c s
  | .legQuery c => Sys2Proof.Machine.execLegQuery c s
  | .streamAdd c => Sys2Proof.Machine.execStreamAdd c s
  | .streamRemove c => Sys2Proof.Machine.execStreamRemove c s
  | .streamModify c => Sys2Proof.Machine.execStreamModify c s
  | .streamRoute c => Sys2Proof.Machine.execStreamRoute c s
  | .streamKeypic c => Sys2Proof.Machine.execStreamKeypic c s
  | .slotAssign c => Sys2Proof.Machine.execSlotAssign c s
  | .keyLoad c => Sys2Proof.Machine.execKeyLoad c s
  | .keyErase c => Sys2Proof.Machine.execKeyErase c s
  | .keyDerive c => Sys2Proof.Machine.execKeyDerive c s
  | .keyQuery c => Sys2Proof.Machine.execKeyQuery c s
  | .graphLoad c => Sys2Proof.Machine.execGraphLoad c s
  | .graphSwap c => Sys2Proof.Machine.execGraphSwap c s
  | .graphUnload c => Sys2Proof.Machine.execGraphUnload c s
  | .mixCreate c => Sys2Proof.Machine.execMixCreate c s
  | .mixModify c => Sys2Proof.Machine.execMixModify c s
  | .mixDestroy c => Sys2Proof.Machine.execMixDestroy c s
  | .tonePlay c => Sys2Proof.Machine.execTonePlay c s
  | .toneStop c => Sys2Proof.Machine.execToneStop c s
  | .isolationSet c => Sys2Proof.Machine.execIsolationSet c s
  | .layoutCreate c => Sys2Proof.Machine.execLayoutCreate c s
  | .layoutModify c => Sys2Proof.Machine.execLayoutModify c s
  | .layoutDestroy c => Sys2Proof.Machine.execLayoutDestroy c s
  | .layerFlip c => Sys2Proof.Machine.execLayerFlip c s
  | .fenceSignal c => Sys2Proof.Machine.execFenceSignal c s
  | .tilesetCreate c => Sys2Proof.Machine.execTilesetCreate c s
  | .tilesetDestroy c => Sys2Proof.Machine.execTilesetDestroy c s
  | .scalerBankLoad c => Sys2Proof.Machine.execScalerBankLoad c s
  | .policerSet c => Sys2Proof.Machine.execPolicerSet c s
  | .shaperSet c => Sys2Proof.Machine.execShaperSet c s
  | .estimatorSet c => Sys2Proof.Machine.execEstimatorSet c s
  | .schedWeightSet c => Sys2Proof.Machine.execSchedWeightSet c s
  | .gateSet c => Sys2Proof.Machine.execGateSet c s
  | .dscpMapSet c => Sys2Proof.Machine.execDscpMapSet c s
  | .timeStep c => Sys2Proof.Machine.execTimeStep c s
  | .timeRate c => Sys2Proof.Machine.execTimeRate c s
  | .timeQuery c => Sys2Proof.Machine.execTimeQuery c s
  | .ptpConfig c => Sys2Proof.Machine.execPtpConfig c s
  | .ppsConfig c => Sys2Proof.Machine.execPpsConfig c s
  | .portTsComp c => Sys2Proof.Machine.execPortTsComp c s
  | .twinConfig c => Sys2Proof.Machine.execTwinConfig c s
  | .twinRoleSet c => Sys2Proof.Machine.execTwinRoleSet c s
  | .twinResync c => Sys2Proof.Machine.execTwinResync c s
  | .twinQuery c => Sys2Proof.Machine.execTwinQuery c s
  | .counterRead c => Sys2Proof.Machine.execCounterRead c s
  | .statusRead c => Sys2Proof.Machine.execStatusRead c s
  | .portLoopback c => Sys2Proof.Machine.execPortLoopback c s
  | .selftest c => Sys2Proof.Machine.execSelftest c s
  | .partitionSet c => Sys2Proof.Machine.execPartitionSet c s
  | .partitionQuery c => Sys2Proof.Machine.execPartitionQuery c s
  | .poolQuery c => Sys2Proof.Machine.execPoolQuery c s
  | .cascadeConfig c => Sys2Proof.Machine.execCascadeConfig c s
  | .trunkCreate c => Sys2Proof.Machine.execTrunkCreate c s
  | .trunkModify c => Sys2Proof.Machine.execTrunkModify c s
  | .trunkDestroy c => Sys2Proof.Machine.execTrunkDestroy c s
  | .commandFetch dma => Sys2Proof.Machine.execCommandFetch dma s
  | .injectionFetch dma => Sys2Proof.Machine.execInjectionFetch dma s
  | .doorbell fn ring size value => Sys2Proof.Machine.execDoorbell fn ring size value s
  | .hstAdmEnable fn value => Sys2Proof.Machine.execHstAdmEnable fn value s
  | .hstAdmDisable fn value => Sys2Proof.Machine.execHstAdmDisable fn value s
  | .admErrResClear fn => Sys2Proof.Machine.execAdmErrResClear fn s
  | .admErrCfgClear fn => Sys2Proof.Machine.execAdmErrCfgClear fn s
  | .adminRingsFree fn => Sys2Proof.Machine.execAdminRingsFree fn s
  | .registerWrite fn addr size value => Sys2Proof.Machine.execRegisterWrite fn addr size value s
  | .timNowRead fn addr size => Sys2Proof.Machine.execTimNowRead fn addr size s
  | .hbmMaxDebtRead stack => Sys2Proof.Machine.execHbmMaxDebtRead stack s
  | .macLaneMapWrite phys value => Sys2Proof.Machine.execMacLaneMapWrite phys value s
  | .twnRetrain => Sys2Proof.Machine.execTwnRetrain s
  | .hbmMitSeedWrite hi value => Sys2Proof.Machine.execHbmMitSeedWrite hi value s
  | .hbmRefCtlWrite value => Sys2Proof.Machine.execHbmRefCtlWrite value s
  | .hbmMitCtlWrite value => Sys2Proof.Machine.execHbmMitCtlWrite value s
  | .monOpLockSet value => Sys2Proof.Machine.execMonOpLockSet value s
  | .monResetCauseClear value => Sys2Proof.Machine.execMonResetCauseClear value s
  | .monVmonAlarmClear value => Sys2Proof.Machine.execMonVmonAlarmClear value s
  | .quiesceEnWrite value => Sys2Proof.Machine.execQuiesceEnWrite value s
  | .accDbgHalt core value => Sys2Proof.Machine.execAccDbgHalt core value s
  | .accDbgStep core value => Sys2Proof.Machine.execAccDbgStep core value s
  | .smbusBlockRead code => Sys2Proof.Machine.execSmbusBlockRead code s
  | .jtagLockDebug => Sys2Proof.Machine.execJtagLockDebug s
  | .pcieConfigRequest fn => Sys2Proof.Machine.execPcieConfigRequest fn s
  | .resetNRelease => Sys2Proof.Machine.execResetNRelease s
  | .coldReset cause => Sys2Proof.Machine.execColdReset cause s
  | .warmReset cause => Sys2Proof.Machine.execWarmReset cause s
  | .pfFlr => Sys2Proof.Machine.execPfFlr s
  | .vfFlr fn => Sys2Proof.Machine.execVfFlr fn s
  | .d3hotEntry fn => Sys2Proof.Machine.execD3hotEntry fn s
  | .d3hotExit fn => Sys2Proof.Machine.execD3hotExit fn s
  | .linkL1Exit => Sys2Proof.Machine.execLinkL1Exit s
  | .bootVerify slotA slotB => Sys2Proof.Machine.execBootVerify slotA slotB s
  | .hbmTraining stack r => Sys2Proof.Machine.execHbmTraining stack r s
  | .blotterServiceStart => Sys2Proof.Machine.execBlotterServiceStart s
  | .fullServiceStart => Sys2Proof.Machine.execFullServiceStart s
  | .quiesceEntry => Sys2Proof.Machine.execQuiesceEntry s
  | .quiesceExit forCommand => Sys2Proof.Machine.execQuiesceExit forCommand s
  | .watchdogExpiry => Sys2Proof.Machine.execWatchdogExpiry s
  | .refclkSysLoss => Sys2Proof.Machine.execRefclkSysLoss s
  | .timeRefclkLoss => Sys2Proof.Machine.execTimeRefclkLoss s
  | .timeRefclkReturn => Sys2Proof.Machine.execTimeRefclkReturn s
  | .ethRefclkLoss => Sys2Proof.Machine.execEthRefclkLoss s
  | .monitorSample temps volts procs => Sys2Proof.Machine.execMonitorSample temps volts procs s
  | .throttleStageChange rise sensor => Sys2Proof.Machine.execThrottleStageChange rise sensor s
  | .thermTrip sensor => Sys2Proof.Machine.execThermTrip sensor s
  | .vmonAlarm monitor => Sys2Proof.Machine.execVmonAlarm monitor s
  | .vmonTrip monitor => Sys2Proof.Machine.execVmonTrip monitor s
  | .frameReceive port f => Sys2Proof.Machine.execFrameReceive port f s
  | .pauseExpiry port prio => Sys2Proof.Machine.execPauseExpiry port prio s
  | .linkUp port => Sys2Proof.Machine.execLinkUp port s
  | .linkDown port => Sys2Proof.Machine.execLinkDown port s
  | .frameTransmit port => Sys2Proof.Machine.execFrameTransmit port s
  | .txUnderrun port => Sys2Proof.Machine.execTxUnderrun port s
  | .logTransmit port => Sys2Proof.Machine.execLogTransmit port s
  | .parseFrame port => Sys2Proof.Machine.execParseFrame port s
  | .attarIngress => Sys2Proof.Machine.execAttarIngress s
  | .attarEgress => Sys2Proof.Machine.execAttarEgress s
  | .egressSchedule port => Sys2Proof.Machine.execEgressSchedule port s
  | .taskAdmit t => Sys2Proof.Machine.execTaskAdmit t s
  | .flagEvent slot gen bits => Sys2Proof.Machine.execFlagEvent slot gen bits s
  | .taskDispatch completer => Sys2Proof.Machine.execTaskDispatch completer s
  | .completionCollect arrivals => Sys2Proof.Machine.execCompletionCollect arrivals s
  | .taskRelease flow => Sys2Proof.Machine.execTaskRelease flow s
  | .engineFault f => Sys2Proof.Machine.execEngineFault f s
  | .bufferRequest port size => Sys2Proof.Machine.execBufferRequest port size s
  | .bufferFree owner handle handoff => Sys2Proof.Machine.execBufferFree owner handle handoff s
  | .bufferShare owner handle mask => Sys2Proof.Machine.execBufferShare owner handle mask s
  | .sqWrite queue e => Sys2Proof.Machine.execSqWrite queue e s
  | .sqRead queue => Sys2Proof.Machine.execSqRead queue s
  | .sqRetract queue => Sys2Proof.Machine.execSqRetract queue s
  | .discardRest queue => Sys2Proof.Machine.execDiscardRest queue s
  | .sqFrameRelease queue => Sys2Proof.Machine.execSqFrameRelease queue s
  | .hbmRequest r => Sys2Proof.Machine.execHbmRequest r s
  | .caParityError stack faulty again => Sys2Proof.Machine.execCaParityError stack faulty again s
  | .refreshInterval pc => Sys2Proof.Machine.execRefreshInterval pc s
  | .refreshMakeup pc => Sys2Proof.Machine.execRefreshMakeup pc s
  | .hbmTempRead stack temp => Sys2Proof.Machine.execHbmTempRead stack temp s
  | .patrolScrub addr errorBits => Sys2Proof.Machine.execPatrolScrub addr errorBits s
  | .selfRefreshEntry pc phase => Sys2Proof.Machine.execSelfRefreshEntry pc phase s
  | .selfRefreshExit pc => Sys2Proof.Machine.execSelfRefreshExit pc s
  | .audioTick n => Sys2Proof.Machine.execAudioTick n s
  | .halfTick m => Sys2Proof.Machine.execHalfTick m s
  | .pictureTick rate k => Sys2Proof.Machine.execPictureTick rate k s
  | .fenceTimeout layout layer => Sys2Proof.Machine.execFenceTimeout layout layer s
  | .rankingResort conf n => Sys2Proof.Machine.execRankingResort conf n s
  | .talkerTimeout conf n => Sys2Proof.Machine.execTalkerTimeout conf n s
  | .playoutDepthMove stream n => Sys2Proof.Machine.execPlayoutDepthMove stream n s
  | .loudnessUpdate stream n => Sys2Proof.Machine.execLoudnessUpdate stream n s
  | .audioSilenceReset stream => Sys2Proof.Machine.execAudioSilenceReset stream s
  | .estimatorDecision leg n => Sys2Proof.Machine.execEstimatorDecision leg n s
  | .feedbackTimeoutHalving leg n => Sys2Proof.Machine.execFeedbackTimeoutHalving leg n s
  | .audioBlock conf n => Sys2Proof.Machine.execAudioBlock conf n s
  | .talkerReport conf n => Sys2Proof.Machine.execTalkerReport conf n s
  | .cascadeReturnMix conf n => Sys2Proof.Machine.execCascadeReturnMix conf n s
  | .toneCadenceEdge obj n => Sys2Proof.Machine.execToneCadenceEdge obj n s
  | .toneEnd obj n => Sys2Proof.Machine.execToneEnd obj n s
  | .decodePicture stream pic => Sys2Proof.Machine.execDecodePicture stream pic s
  | .pictureAbandon stream n => Sys2Proof.Machine.execPictureAbandon stream n s
  | .nackRepeat stream n => Sys2Proof.Machine.execNackRepeat stream n s
  | .keyRequestRepeat stream n => Sys2Proof.Machine.execKeyRequestRepeat stream n s
  | .layoutPicture layout k => Sys2Proof.Machine.execLayoutPicture layout k s
  | .tileScaling tileset member k => Sys2Proof.Machine.execTileScaling tileset member k s
  | .encodePicture ctx k => Sys2Proof.Machine.execEncodePicture ctx k s
  | .stitchPicture stream k => Sys2Proof.Machine.execStitchPicture stream k s
  | .bridgeRejoin stream k => Sys2Proof.Machine.execBridgeRejoin stream k s
  | .keyDrainEnd slot => Sys2Proof.Machine.execKeyDrainEnd slot s
  | .keyEraseComplete slot => Sys2Proof.Machine.execKeyEraseComplete slot s
  | .fallbackKeyExpiry slot => Sys2Proof.Machine.execFallbackKeyExpiry slot s
  | .legDrainEnd leg => Sys2Proof.Machine.execLegDrainEnd leg s
  | .gateScheduleSwitch port => Sys2Proof.Machine.execGateScheduleSwitch port s
  | .gateInstant port => Sys2Proof.Machine.execGateInstant port s
  | .audioGateOverride leg => Sys2Proof.Machine.execAudioGateOverride leg s
  | .trunkKeepalive trunk => Sys2Proof.Machine.execTrunkKeepalive trunk s
  | .trunkDown trunk => Sys2Proof.Machine.execTrunkDown trunk s
  | .eventFlush fn ring => Sys2Proof.Machine.execEventFlush fn ring s
  | .vectorModTimeExpiry fn vector => Sys2Proof.Machine.execVectorModTimeExpiry fn vector s
  | .dmaForcedGrant cluster bank => Sys2Proof.Machine.execDmaForcedGrant cluster bank s
  | .dmaTransfer core t => Sys2Proof.Machine.execDmaTransfer core t s
  | .interruptEntry core cause => Sys2Proof.Machine.execInterruptEntry core cause s
  | .add core f => Sys2Proof.Machine.execAdd core f s
  | .sub core f => Sys2Proof.Machine.execSub core f s
  | .and core f => Sys2Proof.Machine.execAnd core f s
  | .or core f => Sys2Proof.Machine.execOr core f s
  | .xor core f => Sys2Proof.Machine.execXor core f s
  | .sll core f => Sys2Proof.Machine.execSll core f s
  | .srl core f => Sys2Proof.Machine.execSrl core f s
  | .sra core f => Sys2Proof.Machine.execSra core f s
  | .min core f => Sys2Proof.Machine.execMin core f s
  | .max core f => Sys2Proof.Machine.execMax core f s
  | .abs core f => Sys2Proof.Machine.execAbs core f s
  | .slt core f => Sys2Proof.Machine.execSlt core f s
  | .clz core f => Sys2Proof.Machine.execClz core f s
  | .jr core f => Sys2Proof.Machine.execJr core f s
  | .aadd core f => Sys2Proof.Machine.execAadd core f s
  | .aswp core f => Sys2Proof.Machine.execAswp core f s
  | .addi core f => Sys2Proof.Machine.execAddi core f s
  | .andi core f => Sys2Proof.Machine.execAndi core f s
  | .ori core f => Sys2Proof.Machine.execOri core f s
  | .lui core f => Sys2Proof.Machine.execLui core f s
  | .slli core f => Sys2Proof.Machine.execSlli core f s
  | .srli core f => Sys2Proof.Machine.execSrli core f s
  | .srai core f => Sys2Proof.Machine.execSrai core f s
  | .srar core f => Sys2Proof.Machine.execSrar core f s
  | .lw core f => Sys2Proof.Machine.execLw core f s
  | .lh core f => Sys2Proof.Machine.execLh core f s
  | .sw core f => Sys2Proof.Machine.execSw core f s
  | .sh core f => Sys2Proof.Machine.execSh core f s
  | .csrr core f => Sys2Proof.Machine.execCsrr core f s
  | .csrw core f => Sys2Proof.Machine.execCsrw core f s
  | .beqz core f => Sys2Proof.Machine.execBeqz core f s
  | .bnez core f => Sys2Proof.Machine.execBnez core f s
  | .bltz core f => Sys2Proof.Machine.execBltz core f s
  | .bgez core f => Sys2Proof.Machine.execBgez core f s
  | .j core f => Sys2Proof.Machine.execJ core f s
  | .call core f => Sys2Proof.Machine.execCall core f s
  | .rpt core f => Sys2Proof.Machine.execRpt core f s
  | .wait core f => Sys2Proof.Machine.execWait core f s
  | .reti core f => Sys2Proof.Machine.execReti core f s
  | .mac core f => Sys2Proof.Machine.execMac core f s
  | .msu core f => Sys2Proof.Machine.execMsu core f s
  | .mac2m core f => Sys2Proof.Machine.execMac2m core f s
  | .mac4m core f => Sys2Proof.Machine.execMac4m core f s
  | .aclr core f => Sys2Proof.Machine.execAclr core f s
  | .rnd core f => Sys2Proof.Machine.execRnd core f s
  | .ard core f => Sys2Proof.Machine.execArd core f s
  | .awr core f => Sys2Proof.Machine.execAwr core f s
  | .ashr core f => Sys2Proof.Machine.execAshr core f s
  | .ppsInEdge => Sys2Proof.Machine.execPpsInEdge s
  | .ppsLost => Sys2Proof.Machine.execPpsLost s
  | .announceTimeout => Sys2Proof.Machine.execAnnounceTimeout s
  | .ptpTransmit port kind => Sys2Proof.Machine.execPtpTransmit port kind s
  | .slewEnd => Sys2Proof.Machine.execSlewEnd s
  | .llynasLinkTraining working order inverted => Sys2Proof.Machine.execLlynasLinkTraining working order inverted s
  | .laneFastRetrain working => Sys2Proof.Machine.execLaneFastRetrain working s
  | .blockReceive blk => Sys2Proof.Machine.execBlockReceive blk s
  | .pair peer => Sys2Proof.Machine.execPair peer s
  | .logApply => Sys2Proof.Machine.execLogApply s
  | .watermark port => Sys2Proof.Machine.execWatermark port s
  | .digest n => Sys2Proof.Machine.execDigest n s
  | .digestTimeout => Sys2Proof.Machine.execDigestTimeout s
  | .autoResyncStart => Sys2Proof.Machine.execAutoResyncStart s
  | .time => Sys2Proof.Machine.execTime s
  | .heartbeat => Sys2Proof.Machine.execHeartbeat s
  | .heartbeatTimeout => Sys2Proof.Machine.execHeartbeatTimeout s
  | .linkLossTimeout => Sys2Proof.Machine.execLinkLossTimeout s
  | .creditTimeout => Sys2Proof.Machine.execCreditTimeout s
  | .plannedSwitchover => Sys2Proof.Machine.execPlannedSwitchover s
  | .resyncObjectSync obj => Sys2Proof.Machine.execResyncObjectSync obj s
  | .resyncComplete => Sys2Proof.Machine.execResyncComplete s
  | .twinLiveInChange level => Sys2Proof.Machine.execTwinLiveInChange level s
  | .perstNRelease => Sys2Proof.Machine.execPerstNRelease s
  | .aonPowerUp straps => Sys2Proof.Machine.execAonPowerUp straps s
  | .aspmL1Entry sub => Sys2Proof.Machine.execAspmL1Entry sub s
  | .heartbeatGeneratorStall => Sys2Proof.Machine.execHeartbeatGeneratorStall s
  | .reservedOpcode core w => Sys2Proof.Machine.execReservedOpcode core w s

end Sys2Proof.Machine
end

