-- ==== Sys2Proof/Machine/Tick.lean ====
section
/-! DEFINITION. What the block does while no command waits. -/

namespace Sys2Proof.Machine

/-- The TIME domain counts while the device is out of reset: the counter c of the Time Unit (R393) advances by one
nanosecond for each step on an empty queue, and nothing else changes (DESIGN CHOICE, log entry 1). -/
def idle (s : State) : State :=
  if s.mon.inReset then s else { s with tim := { s.tim with c := s.tim.c + 1 } }

end Sys2Proof.Machine
end

