-- ==== Sys2Proof/WellFormed.lean ====
section
/-! DEFINITION. Which commands are well formed: the lengths that the manual fixes for what a command carries. What a
well-formed command holds is checked where the manual checks it, in its meaning. -/

namespace Sys2Proof

/-- A descriptor is 64 bytes, of which 48 follow DW3 (R79); an extended block or other data is read only with EXT set, and the block has PLEN
bytes (R80). -/
def Cmd.wf (c : Cmd) : Bool :=
  decide (c.params.length = 48) &&
  match c.ext with
  | none => true
  | some b => c.dw0.getLsbD 0 && decide (b.length = c.plen.toNat)

/-- Training reports each of the 16 channels of a stack (R360, R363). -/
def TrainResult.wf (r : TrainResult) : Bool := decide (r.caFails.length = 16) && decide (r.dqFails.length = 16)

/-- The command that a row carries from the host; none for an event row. -/
def Instr.cmd? : Instr → Option Cmd
  | .devQuery c => some c
  | .devReset c => some c
  | .ringCreate c => some c
  | .ringDestroy c => some c
  | .ringReset c => some c
  | .vectorConfig c => some c
  | .portConfig c => some c
  | .watchdogSet c => some c
  | .fwUpdate c => some c
  | .debugLock c => some c
  | .tenantCreate c => some c
  | .tenantModify c => some c
  | .tenantDestroy c => some c
  | .tenantQuery c => some c
  | .tenantRoute c => some c
  | .confCreate c => some c
  | .confModify c => some c
  | .confDestroy c => some c
  | .confQuery c => some c
  | .legAttach c => some c
  | .legEnable c => some c
  | .legModify c => some c
  | .legHold c => some c
  | .legResume c => some c
  | .legMove c => some c
  | .legDetach c => some c
  | .legQuery c => some c
  | .streamAdd c => some c
  | .streamRemove c => some c
  | .streamModify c => some c
  | .streamRoute c => some c
  | .streamKeypic c => some c
  | .slotAssign c => some c
  | .keyLoad c => some c
  | .keyErase c => some c
  | .keyDerive c => some c
  | .keyQuery c => some c
  | .graphLoad c => some c
  | .graphSwap c => some c
  | .graphUnload c => some c
  | .mixCreate c => some c
  | .mixModify c => some c
  | .mixDestroy c => some c
  | .tonePlay c => some c
  | .toneStop c => some c
  | .isolationSet c => some c
  | .layoutCreate c => some c
  | .layoutModify c => some c
  | .layoutDestroy c => some c
  | .layerFlip c => some c
  | .fenceSignal c => some c
  | .tilesetCreate c => some c
  | .tilesetDestroy c => some c
  | .scalerBankLoad c => some c
  | .policerSet c => some c
  | .shaperSet c => some c
  | .estimatorSet c => some c
  | .schedWeightSet c => some c
  | .gateSet c => some c
  | .dscpMapSet c => some c
  | .timeStep c => some c
  | .timeRate c => some c
  | .timeQuery c => some c
  | .ptpConfig c => some c
  | .ppsConfig c => some c
  | .portTsComp c => some c
  | .twinConfig c => some c
  | .twinRoleSet c => some c
  | .twinResync c => some c
  | .twinQuery c => some c
  | .counterRead c => some c
  | .statusRead c => some c
  | .portLoopback c => some c
  | .selftest c => some c
  | .partitionSet c => some c
  | .partitionQuery c => some c
  | .poolQuery c => some c
  | .cascadeConfig c => some c
  | .trunkCreate c => some c
  | .trunkModify c => some c
  | .trunkDestroy c => some c
  | .commandFetch _ => none
  | .injectionFetch _ => none
  | .doorbell _ _ _ _ => none
  | .hstAdmEnable _ _ => none
  | .hstAdmDisable _ _ => none
  | .admErrResClear _ => none
  | .admErrCfgClear _ => none
  | .adminRingsFree _ => none
  | .registerWrite _ _ _ _ => none
  | .timNowRead _ _ _ => none
  | .hbmMaxDebtRead _ => none
  | .macLaneMapWrite _ _ => none
  | .twnRetrain => none
  | .hbmMitSeedWrite _ _ => none
  | .hbmRefCtlWrite _ => none
  | .hbmMitCtlWrite _ => none
  | .monOpLockSet _ => none
  | .monResetCauseClear _ => none
  | .monVmonAlarmClear _ => none
  | .quiesceEnWrite _ => none
  | .accDbgHalt _ _ => none
  | .accDbgStep _ _ => none
  | .smbusBlockRead _ => none
  | .jtagLockDebug => none
  | .pcieConfigRequest _ => none
  | .resetNRelease => none
  | .coldReset _ => none
  | .warmReset _ => none
  | .pfFlr => none
  | .vfFlr _ => none
  | .d3hotEntry _ => none
  | .d3hotExit _ => none
  | .linkL1Exit => none
  | .bootVerify _ _ => none
  | .hbmTraining _ _ => none
  | .blotterServiceStart => none
  | .fullServiceStart => none
  | .quiesceEntry => none
  | .quiesceExit _ => none
  | .watchdogExpiry => none
  | .refclkSysLoss => none
  | .timeRefclkLoss => none
  | .timeRefclkReturn => none
  | .ethRefclkLoss => none
  | .monitorSample _ _ _ => none
  | .throttleStageChange _ _ => none
  | .thermTrip _ => none
  | .vmonAlarm _ => none
  | .vmonTrip _ => none
  | .frameReceive _ _ => none
  | .pauseExpiry _ _ => none
  | .linkUp _ => none
  | .linkDown _ => none
  | .frameTransmit _ => none
  | .txUnderrun _ => none
  | .logTransmit _ => none
  | .parseFrame _ => none
  | .attarIngress => none
  | .attarEgress => none
  | .egressSchedule _ => none
  | .taskAdmit _ => none
  | .flagEvent _ _ _ => none
  | .taskDispatch _ => none
  | .completionCollect _ => none
  | .taskRelease _ => none
  | .engineFault _ => none
  | .bufferRequest _ _ => none
  | .bufferFree _ _ _ => none
  | .bufferShare _ _ _ => none
  | .sqWrite _ _ => none
  | .sqRead _ => none
  | .sqRetract _ => none
  | .discardRest _ => none
  | .sqFrameRelease _ => none
  | .hbmRequest _ => none
  | .caParityError _ _ _ => none
  | .refreshInterval _ => none
  | .refreshMakeup _ => none
  | .hbmTempRead _ _ => none
  | .patrolScrub _ _ => none
  | .selfRefreshEntry _ _ => none
  | .selfRefreshExit _ => none
  | .audioTick _ => none
  | .halfTick _ => none
  | .pictureTick _ _ => none
  | .fenceTimeout _ _ => none
  | .rankingResort _ _ => none
  | .talkerTimeout _ _ => none
  | .playoutDepthMove _ _ => none
  | .loudnessUpdate _ _ => none
  | .audioSilenceReset _ => none
  | .estimatorDecision _ _ => none
  | .feedbackTimeoutHalving _ _ => none
  | .audioBlock _ _ => none
  | .talkerReport _ _ => none
  | .cascadeReturnMix _ _ => none
  | .toneCadenceEdge _ _ => none
  | .toneEnd _ _ => none
  | .decodePicture _ _ => none
  | .pictureAbandon _ _ => none
  | .nackRepeat _ _ => none
  | .keyRequestRepeat _ _ => none
  | .layoutPicture _ _ => none
  | .tileScaling _ _ _ => none
  | .encodePicture _ _ => none
  | .stitchPicture _ _ => none
  | .bridgeRejoin _ _ => none
  | .keyDrainEnd _ => none
  | .keyEraseComplete _ => none
  | .fallbackKeyExpiry _ => none
  | .legDrainEnd _ => none
  | .gateScheduleSwitch _ => none
  | .gateInstant _ => none
  | .audioGateOverride _ => none
  | .trunkKeepalive _ => none
  | .trunkDown _ => none
  | .eventFlush _ _ => none
  | .vectorModTimeExpiry _ _ => none
  | .dmaForcedGrant _ _ => none
  | .dmaTransfer _ _ => none
  | .interruptEntry _ _ => none
  | .add _ _ => none
  | .sub _ _ => none
  | .and _ _ => none
  | .or _ _ => none
  | .xor _ _ => none
  | .sll _ _ => none
  | .srl _ _ => none
  | .sra _ _ => none
  | .min _ _ => none
  | .max _ _ => none
  | .abs _ _ => none
  | .slt _ _ => none
  | .clz _ _ => none
  | .jr _ _ => none
  | .aadd _ _ => none
  | .aswp _ _ => none
  | .addi _ _ => none
  | .andi _ _ => none
  | .ori _ _ => none
  | .lui _ _ => none
  | .slli _ _ => none
  | .srli _ _ => none
  | .srai _ _ => none
  | .srar _ _ => none
  | .lw _ _ => none
  | .lh _ _ => none
  | .sw _ _ => none
  | .sh _ _ => none
  | .csrr _ _ => none
  | .csrw _ _ => none
  | .beqz _ _ => none
  | .bnez _ _ => none
  | .bltz _ _ => none
  | .bgez _ _ => none
  | .j _ _ => none
  | .call _ _ => none
  | .rpt _ _ => none
  | .wait _ _ => none
  | .reti _ _ => none
  | .mac _ _ => none
  | .msu _ _ => none
  | .mac2m _ _ => none
  | .mac4m _ _ => none
  | .aclr _ _ => none
  | .rnd _ _ => none
  | .ard _ _ => none
  | .awr _ _ => none
  | .ashr _ _ => none
  | .ppsInEdge => none
  | .ppsLost => none
  | .announceTimeout => none
  | .ptpTransmit _ _ => none
  | .slewEnd => none
  | .llynasLinkTraining _ _ _ => none
  | .laneFastRetrain _ => none
  | .blockReceive _ => none
  | .pair _ => none
  | .logApply => none
  | .watermark _ => none
  | .digest _ => none
  | .digestTimeout => none
  | .autoResyncStart => none
  | .time => none
  | .heartbeat => none
  | .heartbeatTimeout => none
  | .linkLossTimeout => none
  | .creditTimeout => none
  | .plannedSwitchover => none
  | .resyncObjectSync _ => none
  | .resyncComplete => none
  | .twinLiveInChange _ => none
  | .perstNRelease => none
  | .aonPowerUp _ => none
  | .aspmL1Entry _ => none
  | .heartbeatGeneratorStall => none
  | .reservedOpcode _ _ => none

/-- A command of the block is well formed; a sample has the 24 die sensors and the 16 rail monitors (Table 17-5, R471). -/
def Instr.wf (i : Instr) : Bool :=
  match i.cmd?, i with
  | some c, _ => c.wf
  | none, .hbmTraining _ r => r.wf
  | none, .monitorSample temps volts _ => decide (temps.length = 24) && decide (volts.length = 16)
  | none, _ => true

end Sys2Proof
end

