-- ==== Sys2Proof/Safety.lean ====
section
/-! DEFINITION. What counts as a safe run, and the conditions under which a command completes: the terms in which claims about the block are stated. -/

namespace Sys2Proof.Machine

/-- The device is out of reset and takes what comes from outside the AON domain (R458). -/
def Awake (s : State) : Prop := s.mon.inReset = false

/-- A step is safe when it answers a next state. -/
def SafeStep (s : State) : Prop := ∃ t, step s = .next t

/-- A host command meets every condition to take effect at once: the device is out of reset, the Nose runs (R454), every check of Table 03-13
passes (R82), and nothing before it holds its log position (R30, R48, R138, R343). -/
def Admits (r : CmdRule) (c : Cmd) (s : State) : Prop :=
  Awake s ∧ noseRuns s = true ∧ fullCheck r c s = none ∧ r.waits c s = false ∧ behindWaiting c s = false ∧
  (r.logged = true → logBusy s = false)

/-- A signed command meets every condition but, perhaps, the signature and the device it names, which the manual leaves to what signs it (R82 order 8,
R473, R476; log entries 8, 66). -/
def AdmitsIfSigned (r : CmdRule) (c : Cmd) (s : State) : Prop :=
  Awake s ∧ noseRuns s = true ∧ (fullCheck r c s = none ∨ fullCheck r c s = some ⟨stSignature, 0⟩) ∧ r.waits c s = false ∧
  behindWaiting c s = false ∧ (r.logged = true → logBusy s = false)

/-- The rules of a host command's row, and its descriptor. DEV_RESET has its rules too, but its reset may start with its reply (R459), so it is not
among them; an event row has none. -/
def hostRule? : Instr → Option (CmdRule × Cmd)
  | .devQuery c => some (ruleDevQuery, c)
  | .ringCreate c => some (ruleRingCreate, c)
  | .ringDestroy c => some (ruleRingDestroy, c)
  | .ringReset c => some (ruleRingReset, c)
  | .vectorConfig c => some (ruleVectorConfig, c)
  | .portConfig c => some (rulePortConfig, c)
  | .watchdogSet c => some (ruleWatchdogSet, c)
  | .fwUpdate c => some (ruleFwUpdate, c)
  | .debugLock c => some (ruleDebugLock, c)
  | .tenantCreate c => some (ruleTenantCreate, c)
  | .tenantModify c => some (ruleTenantModify, c)
  | .tenantDestroy c => some (ruleTenantDestroy, c)
  | .tenantQuery c => some (ruleTenantQuery, c)
  | .tenantRoute c => some (ruleTenantRoute, c)
  | .confCreate c => some (ruleConfCreate, c)
  | .confModify c => some (ruleConfModify, c)
  | .confDestroy c => some (ruleConfDestroy, c)
  | .confQuery c => some (ruleConfQuery, c)
  | .legAttach c => some (ruleLegAttach, c)
  | .legEnable c => some (ruleLegEnable, c)
  | .legModify c => some (ruleLegModify, c)
  | .legHold c => some (ruleLegHold, c)
  | .legResume c => some (ruleLegResume, c)
  | .legMove c => some (ruleLegMove, c)
  | .legDetach c => some (ruleLegDetach, c)
  | .legQuery c => some (ruleLegQuery, c)
  | .streamAdd c => some (ruleStreamAdd, c)
  | .streamRemove c => some (ruleStreamRemove, c)
  | .streamModify c => some (ruleStreamModify, c)
  | .streamRoute c => some (ruleStreamRoute, c)
  | .streamKeypic c => some (ruleStreamKeypic, c)
  | .slotAssign c => some (ruleSlotAssign, c)
  | .keyLoad c => some (ruleKeyLoad, c)
  | .keyErase c => some (ruleKeyErase, c)
  | .keyDerive c => some (ruleKeyDerive, c)
  | .keyQuery c => some (ruleKeyQuery, c)
  | .graphLoad c => some (ruleGraphLoad, c)
  | .graphSwap c => some (ruleGraphSwap, c)
  | .graphUnload c => some (ruleGraphUnload, c)
  | .mixCreate c => some (ruleMixCreate, c)
  | .mixModify c => some (ruleMixModify, c)
  | .mixDestroy c => some (ruleMixDestroy, c)
  | .tonePlay c => some (ruleTonePlay, c)
  | .toneStop c => some (ruleToneStop, c)
  | .isolationSet c => some (ruleIsolationSet, c)
  | .layoutCreate c => some (ruleLayoutCreate, c)
  | .layoutModify c => some (ruleLayoutModify, c)
  | .layoutDestroy c => some (ruleLayoutDestroy, c)
  | .layerFlip c => some (ruleLayerFlip, c)
  | .fenceSignal c => some (ruleFenceSignal, c)
  | .tilesetCreate c => some (ruleTilesetCreate, c)
  | .tilesetDestroy c => some (ruleTilesetDestroy, c)
  | .scalerBankLoad c => some (ruleScalerBankLoad, c)
  | .policerSet c => some (rulePolicerSet, c)
  | .shaperSet c => some (ruleShaperSet, c)
  | .estimatorSet c => some (ruleEstimatorSet, c)
  | .schedWeightSet c => some (ruleSchedWeightSet, c)
  | .gateSet c => some (ruleGateSet, c)
  | .dscpMapSet c => some (ruleDscpMapSet, c)
  | .timeStep c => some (ruleTimeStep, c)
  | .timeRate c => some (ruleTimeRate, c)
  | .timeQuery c => some (ruleTimeQuery, c)
  | .ptpConfig c => some (rulePtpConfig, c)
  | .ppsConfig c => some (rulePpsConfig, c)
  | .portTsComp c => some (rulePortTsComp, c)
  | .twinConfig c => some (ruleTwinConfig, c)
  | .twinRoleSet c => some (ruleTwinRoleSet, c)
  | .twinResync c => some (ruleTwinResync, c)
  | .twinQuery c => some (ruleTwinQuery, c)
  | .counterRead c => some (ruleCounterRead, c)
  | .statusRead c => some (ruleStatusRead, c)
  | .portLoopback c => some (rulePortLoopback, c)
  | .selftest c => some (ruleSelftest, c)
  | .partitionSet c => some (rulePartitionSet, c)
  | .partitionQuery c => some (rulePartitionQuery, c)
  | .poolQuery c => some (rulePoolQuery, c)
  | .cascadeConfig c => some (ruleCascadeConfig, c)
  | .trunkCreate c => some (ruleTrunkCreate, c)
  | .trunkModify c => some (ruleTrunkModify, c)
  | .trunkDestroy c => some (ruleTrunkDestroy, c)
  | _ => none

/-- The rows that the AON domain takes while the rest of the device is held in reset (R458, R468, R472). -/
def aonRow : Instr → Bool
  | .aonPowerUp _ => true
  | .coldReset _ => true
  | .warmReset _ => true
  | .refclkSysLoss => true
  | .thermTrip _ => true
  | .vmonTrip _ => true
  | .vmonAlarm _ => true
  | .throttleStageChange _ _ => true
  | .monitorSample _ _ _ => true
  | .resetNRelease => true
  | .perstNRelease => true
  | .jtagLockDebug => true
  | .smbusBlockRead _ => true
  | _ => false

/-- The rows that are a COLD or WARM reset, or the loss of the AON supply: what ends the operator lock (R475, Table 17-4). -/
def wideReset : Instr → Bool
  | .aonPowerUp _ => true
  | .coldReset _ => true
  | .warmReset _ => true
  | .refclkSysLoss => true
  | .thermTrip _ => true
  | .vmonTrip _ => true
  | _ => false

/-- The host memory keeps its canonical form (log entry 11). -/
def HostMemoryWf (s : State) : Prop := Memory.wf s.hst.mem = true

/-- The command completes: exec answers a next state that keeps the queue and of which P holds. -/
def Yields (i : Instr) (s : State) (P : State → Prop) : Prop := ∃ t, exec i s = .next t ∧ t.pending = s.pending ∧ P t

/-- What only a function's own rings, vectors and pages, the Nose's records and the log may differ in: the rest of the device is as it was. -/
def HostOnly (s t : State) : Prop :=
  t.free = s.free ∧ t.obj = s.obj ∧ t.ports = s.ports ∧ t.phys = s.phys ∧ t.media = s.media ∧ t.video = s.video ∧ t.accord = s.accord ∧
  t.hbm = s.hbm ∧ t.tim = s.tim ∧ t.mon = s.mon ∧ t.objCounters = s.objCounters

/-- The HBM is as it was, but that a command which ends QUIESCE brings every pseudo-channel out of self-refresh (R374, R464). -/
def HbmKept (s t : State) : Prop := t.hbm = if s.mon.quiesce = t.mon.quiesce then s.hbm else s.hbm.roused

/-- A free engine can take an object's task and finish it at once (R382, R384, R385): the flow `f` of the object holds it in `slot` as the first ready task that
`pick` selects, a completer of its target is free, it is the flow's oldest task and no other of the flow is completed, its release writes no entry and sets
no flag, and nothing stalls or waits. -/
def Workable (s : State) (owner : Nat) (pick : Job → Bool) (f slot : Nat) (t : Task) : Prop :=
  flowFor s owner = some f ∧ readyWork s f pick = some (slot, t) ∧ (completersOf t.kind t.cluster).any (completerFree s) = true ∧
  (s.orgue.tasks.map (·.1)).Pairwise (· < ·) ∧ (∀ kt ∈ s.orgue.tasks, kt.1 ≠ slot → kt.2.flow = f → seqBefore t.seq kt.2.seq = true ∧ kt.2.stage ≠ 4) ∧
  t.empty = false ∧ t.writes = [] ∧ t.dependants = [] ∧ s.orgue.stalled = [] ∧ s.nose.waiting = []

/-- A task has been released (R385, R378): its slot is free with the next generation, and packets that waited for it may leave. -/
def TaskGone (slot num : Nat) (s t : State) : Prop :=
  tget t.orgue.tasks slot = none ∧ tgetD t.orgue.gens slot 0 = (tgetD s.orgue.gens slot 0 + 1) % 256 ∧
  t.media = { s.media with egress := s.media.egress.map fun p => if p.wait = some num then { p with wait := none } else p }

/-- The reply ring of a command takes its entry at once: the command ring is bound to ring `rpl`, which is `q`, RUNNING with room and nothing held back,
the entry can be written, no reply waits, and no earlier command of its ring waits for its own (R72, R73). -/
def ReplyReady (c : Cmd) (rpl : Nat) (q : Ring) (s : State) : Prop :=
  c.ring ≠ 0 ∧ (∃ cr, ringOf s c.fn c.ring = some cr ∧ cr.boundReply = rpl) ∧ 16 < rpl ∧ ringOf s c.fn rpl = some q ∧ q.state = .running ∧
  q.full = false ∧ q.held = [] ∧ q.dropped = 0 ∧ (fnOf s c.fn).d3hot = false ∧ (fnOf s c.fn).flr = false ∧ entryReaches s c.fn rpl = true ∧ s.nose.behind = [] ∧
  (∀ g ∈ unanswered s, g.cmd.fn = c.fn → g.cmd.ring = c.ring → indexBefore g.cmd.index c.index = false) ∧ Memory.wf s.hst.mem = true

/-- The entry at ring q's producer index is the reply of a command: TAG, CMD_RING and STATUS, DETAIL, RES0-RES3, and the opcode with PHASE of the
index in bit 31 (R71, Table 03-11). -/
def Replied (op : Nat) (c : Cmd) (q : Ring) (st : Status) (detail : Word) (res : List Word) (t : State) : Prop :=
  mreadN t.hst.mem (q.entryAddr q.prod) 32 =
    dwBytes [c.tag, BitVec.ofNat 32 (c.ring.val * 65536 + st.toNat), detail, res.getD 0 0, res.getD 1 0, res.getD 2 0, res.getD 3 0,
             BitVec.ofNat 32 op ||| (if q.prod.toNat / q.entries % 2 = 0 then 0x80000000 else 0)]

/-! ### The Accord core -/

/-- A core issues a word without a fault of its fetch: it is neither halted nor waiting, no RPT asks for more than one issue, and user code
lies in its code window and within its budget (R309, R314, R331). -/
def Core.clear (c : Core) : Bool :=
  !c.halted && !c.waiting && decide (c.rep ≤ 1) &&
  (!c.user || (inWindow c.codeBase c.codeLimit c.pc.toNat 4 && (!c.counting || decide (c.icount.toNat + 1 ≤ c.ibudget.toNat))))

/-- What register r holds after an instruction that writes v to d: a load that was on its way is written last (R312), and g0 stays 0. -/
def Core.gAfter (c : Core) (d : BitVec 5) (v : Word) (r : BitVec 5) : Word :=
  if r = 0 then 0
  else match c.load with
    | some (x, w) => if r = x then w else if r = d then v else c.g r
    | none => if r = d then v else c.g r

/-- What register r holds after an instruction that writes no register. -/
def Core.gKept (c : Core) (r : BitVec 5) : Word :=
  if r = 0 then 0
  else match c.load with
    | some (x, w) => if r = x then w else c.g r
    | none => c.g r

/-- The control registers that only CSRW, an entry, RETI or the counters change. -/
def Core.sameControl (c d : Core) : Prop :=
  d.vbase = c.vbase ∧ d.imask = c.imask ∧ d.ibudget = c.ibudget ∧ d.codeBase = c.codeBase ∧ d.codeLimit = c.codeLimit ∧
  d.win0Base = c.win0Base ∧ d.win0Limit = c.win0Limit ∧ d.win1Base = c.win1Base ∧ d.win1Limit = c.win1Limit

/-- An Accord instruction on core n leaves every other core and all of the device outside the Accord Complex as it was; `free` may advance, and
the queue is the step's. -/
def AccordOnly (n : Nat) (s t : State) : Prop :=
  (∀ k, k ≠ n → coreOf t k = coreOf s k) ∧ t.pending = s.pending ∧ t.hst = s.hst ∧ t.nose = s.nose ∧ t.obj = s.obj ∧ t.ports = s.ports ∧
  t.phys = s.phys ∧ t.media = s.media ∧ t.video = s.video ∧ t.mem = s.mem ∧ t.hbm = s.hbm ∧ t.orgue = s.orgue ∧ t.tim = s.tim ∧
  t.twin = s.twin ∧ t.mon = s.mon ∧ t.counters = s.counters ∧ t.objCounters = s.objCounters

/-- Every cluster as it was: scratchpads, poison and DMA state. -/
def ClustersKept (s t : State) : Prop := ∀ k, accClusterOf t k = accClusterOf s k

/-- x clamped to the signed range of w bits (R311). -/
def clampSigned (w : Nat) (x : Int) : Int := max (-(2 ^ (w - 1))) (min (2 ^ (w - 1) - 1) x)

/-- The word an instruction marked "yes" in Table 11-5 writes: the clamped result, or its low bits with NS (R320). -/
def result32 (ns : Bool) (x : Int) : Word := BitVec.ofInt 32 (if ns then x else clampSigned 32 x)

/-- The same for an accumulator. -/
def result72 (ns : Bool) (x : Int) : BitVec 72 := BitVec.ofInt 72 (if ns then x else clampSigned 72 x)

/-- x shifted right by n bits toward minus infinity after half of the lowest kept weight was added (R321). -/
def roundedShift (x : Int) (n : Nat) : Int := if n = 0 then x else (x + 2 ^ (n - 1)) / 2 ^ n

/-- The instruction completes and writes v to general register d and nothing else of the register file, the accumulators, the control registers
or the scratchpads. -/
def WritesReg (i : Instr) (n : Nat) (s : State) (d : BitVec 5) (v : Word) : Prop :=
  ∃ t, exec i s = .next t ∧ AccordOnly n s t ∧ ClustersKept s t ∧ (coreOf t n).acc = (coreOf s n).acc ∧
    (coreOf s n).sameControl (coreOf t n) ∧ ∀ r, (coreOf t n).g r = (coreOf s n).gAfter d v r

/-- The instruction completes and writes v to accumulator a; it leaves the general registers that `regs` gives, and nothing else changes in the
other accumulators, the control registers or the scratchpads. -/
def WritesAcc (i : Instr) (n : Nat) (s : State) (a : BitVec 2) (v : BitVec 72) (regs : BitVec 5 → Word) : Prop :=
  ∃ t, exec i s = .next t ∧ AccordOnly n s t ∧ ClustersKept s t ∧ (coreOf s n).sameControl (coreOf t n) ∧
    (∀ k, (coreOf t n).a k = if k = a then v else (coreOf s n).a k) ∧ ∀ r, (coreOf t n).g r = regs r

/-- The registers after MAC2M or MAC4M: each pointer advanced by 8, once where they are one register; g0 stays 0 (R311). -/
def Core.gPair (c : Core) (p q r : BitVec 5) : Word :=
  if r = 0 then 0
  else match c.load with
    | some (x, w) => if r = x then w else if r = p ∨ r = q then c.g r + 8 else c.g r
    | none => if r = p ∨ r = q then c.g r + 8 else c.g r

/-- The instruction completes and its value v is on its way to register d, behind the instruction that follows (R312); the registers meanwhile
hold what they held. -/
def LoadsReg (i : Instr) (n : Nat) (s : State) (d : BitVec 5) (v : Word) : Prop :=
  ∃ t, exec i s = .next t ∧ AccordOnly n s t ∧ (coreOf t n).load = some (d, v) ∧ (coreOf t n).acc = (coreOf s n).acc ∧
    (coreOf s n).sameControl (coreOf t n) ∧ ∀ r, (coreOf t n).g r = (coreOf s n).gKept r

/-- After the instruction, the scratchpad of the core's cluster holds k bytes of v, low byte first, at address a, and every other byte of every
scratchpad reads as before. -/
def StoresBytes (i : Instr) (n : Nat) (s : State) (a k v : Nat) : Prop :=
  ∃ t, exec i s = .next t ∧ AccordOnly n s t ∧
    (∀ j, j < k → mread (accClusterOf t (n / 16)).scratch (a + j) = BitVec.ofNat 8 (v / 256 ^ j)) ∧
    (∀ x, (x < a ∨ a + k ≤ x) → mread (accClusterOf t (n / 16)).scratch x = mread (accClusterOf s (n / 16)).scratch x) ∧
    ∀ c, c ≠ n / 16 → accClusterOf t c = accClusterOf s c

/-- The instruction completes with a transfer in progress to target (reti: the return of R317): two delay slot instructions come first (R312). -/
def TransfersTo (i : Instr) (n : Nat) (s : State) (target : Word) (reti : Bool) : Prop :=
  ∃ t, exec i s = .next t ∧ AccordOnly n s t ∧ ClustersKept s t ∧ (coreOf t n).branch = some (target &&& 0xFFFFFFFC, 2, reti) ∧
    (coreOf t n).pc = (coreOf s n).pc + 4 ∧ (coreOf t n).user = (coreOf s n).user ∧ (coreOf t n).acc = (coreOf s n).acc

/-- The core has no load, transfer or repetition in flight, and neither a halt request nor an enabled interrupt waits for the next boundary. -/
def Core.quiet (c : Core) : Bool :=
  c.load.isNone && c.branch.isNone && decide (c.rep = 0) && !c.haltReq && (!c.ie || decide (c.irq &&& c.imask = 0))

/-- The core after entry to an interrupt or a fault with a cause (R317): EPC holds the interrupted address, PUSER the mode, the core is in
supervisor mode with interrupts off, and it continues at the vector. -/
def Entered (c d : Core) (cause : Nat) : Prop :=
  d.epc = c.pc ∧ d.cause = BitVec.ofNat 5 cause ∧ d.puser = c.user ∧ d.user = false ∧ d.ie = false ∧
  d.pc = c.vbase + BitVec.ofNat 32 (64 * cause) ∧ d.branch = none ∧ d.load = none ∧ d.rep = 0 ∧ d.waiting = false

end Sys2Proof.Machine
end

