-- ==== Sys2Proof/Certificates/Slice0/Obligations.lean ====
section
/-! DEFINITION. The statements for the provers. Each names the rules of the manual that it states. -/

open Sys2Proof Sys2Proof.Machine

/-! ### The Accord core (chapter 11) -/

/-- R320, Table 11-5: the instructions that saturate write the clamped exact result, or its low bits with NS, and change nothing else. ADD, SUB, SLL,
ABS, ADDI, SLLI. -/
def Obligations.AccordSaturatingResults : Prop :=
  ∀ (n : CoreNo) (s : State) (f : FmtA) (b : FmtB), Awake s → (coreOf s n).clear = true →
    let x := ((coreOf s n).g f.s).toInt
    let y := ((coreOf s n).g f.t).toInt
    let z := ((coreOf s n).g b.s).toInt
    (f.plain true true = true →
      WritesReg (.add n f) n s f.d (result32 f.ns (x + y)) ∧
      WritesReg (.sub n f) n s f.d (result32 f.ns (x - y)) ∧
      WritesReg (.sll n f) n s f.d (result32 f.ns (x * 2 ^ (((coreOf s n).g f.t).toNat % 32)))) ∧
    (f.plain false true = true → WritesReg (.abs n f) n s f.d (result32 f.ns (max x (-x)))) ∧
    WritesReg (.addi n b) n s b.d (result32 false (z + b.imm.toInt)) ∧
    (b.imm.toNat < 32 → WritesReg (.slli n b) n s b.d (result32 false (z * 2 ^ b.imm.toNat)))

/-- Table 11-5, R321: the bitwise instructions, the shifts right, MIN, MAX, SLT, CLZ, the immediate forms, SRAR, RND, ARD and CSRR write their result and change
nothing else; CSRR only in supervisor mode. -/
def Obligations.AccordBitImmediateAndMoveResults : Prop :=
  (∀ (n : CoreNo) (s : State) (f : FmtA), Awake s → (coreOf s n).clear = true →
     let x := (coreOf s n).g f.s
     let y := (coreOf s n).g f.t
     (f.plain true false = true →
       WritesReg (.and n f) n s f.d (x &&& y) ∧
       WritesReg (.or n f) n s f.d (x ||| y) ∧
       WritesReg (.xor n f) n s f.d (x ^^^ y) ∧
       WritesReg (.srl n f) n s f.d (BitVec.ofNat 32 (x.toNat / 2 ^ (y.toNat % 32))) ∧
       WritesReg (.sra n f) n s f.d (BitVec.ofInt 32 (x.toInt / 2 ^ (y.toNat % 32))) ∧
       WritesReg (.min n f) n s f.d (BitVec.ofInt 32 (min x.toInt y.toInt)) ∧
       WritesReg (.max n f) n s f.d (BitVec.ofInt 32 (max x.toInt y.toInt)) ∧
       WritesReg (.slt n f) n s f.d (if x.toInt < y.toInt then 1 else 0)) ∧
     (f.plain false false = true →
       WritesReg (.clz n f) n s f.d (BitVec.ofNat 32 (if x = 0 then 32 else 31 - Nat.log2 x.toNat)))) ∧
  (∀ (n : CoreNo) (s : State) (b : FmtB) (d : FmtD), Awake s → (coreOf s n).clear = true →
     let x := (coreOf s n).g b.s
     let a := (coreOf s n).a d.a
     WritesReg (.andi n b) n s b.d (x &&& b.imm.zeroExtend 32) ∧
     WritesReg (.ori n b) n s b.d (x ||| b.imm.zeroExtend 32) ∧
     (b.s = 0 → WritesReg (.lui n b) n s b.d (b.imm ++ (0 : BitVec 16))) ∧
     (b.imm.toNat < 32 →
       WritesReg (.srli n b) n s b.d (BitVec.ofNat 32 (x.toNat / 2 ^ b.imm.toNat)) ∧
       WritesReg (.srai n b) n s b.d (BitVec.ofInt 32 (x.toInt / 2 ^ b.imm.toNat)) ∧
       (b.imm ≠ 0 → WritesReg (.srar n b) n s b.d (BitVec.ofInt 32 (roundedShift x.toInt b.imm.toNat)))) ∧
     (d.plain true false true true = true → WritesReg (.rnd n d) n s d.p (result32 d.ns (roundedShift a.toInt d.sh.toNat))) ∧
     (d.plain true false false true = true →
       (d.sh = 0 → WritesReg (.ard n d) n s d.p (a.extractLsb' 0 32)) ∧
       (d.sh = 1 → WritesReg (.ard n d) n s d.p (a.extractLsb' 32 32)) ∧
       (d.sh = 2 → WritesReg (.ard n d) n s d.p (BitVec.ofInt 32 (a.toInt / 2 ^ 64)))) ∧
     ((coreOf s n).user = false → b.s = 0 →
       (b.imm = 0x000 → WritesReg (.csrr n b) n s b.d ((coreOf s n).status)) ∧
       (b.imm = 0x001 → WritesReg (.csrr n b) n s b.d ((coreOf s n).epc)) ∧
       (b.imm = 0x002 → WritesReg (.csrr n b) n s b.d ((coreOf s n).cause.zeroExtend 32)) ∧
       (b.imm = 0x003 → WritesReg (.csrr n b) n s b.d ((coreOf s n).vbase)) ∧
       (b.imm = 0x010 → WritesReg (.csrr n b) n s b.d ((coreOf s n).icount)) ∧
       (b.imm = 0x030 → WritesReg (.csrr n b) n s b.d ((coreOf s n).cycle.extractLsb' 0 32)) ∧
       (b.imm = 0x040 → WritesReg (.csrr n b) n s b.d (BitVec.ofNat 32 n)) ∧
       (b.imm = 0x041 → WritesReg (.csrr n b) n s b.d 0)))

/-- Table 11-5, R320, R321: MAC, MSU, ACLR, AWR and ASHR write their accumulator and change nothing else; MAC2M and MAC4M read 8 bytes at each pointer, add the signed
products of corresponding parts, and advance the pointers by 8, once where they are one register. -/
def Obligations.AccordAccumulatorResults : Prop :=
  (∀ (n : CoreNo) (s : State) (f : FmtD), Awake s → (coreOf s n).clear = true →
     let c := coreOf s n
     let a := c.a f.a
     let p := (c.g f.p).toInt * (c.g f.q).toInt
     (f.plain true true true false = true →
       WritesAcc (.mac n f) n s f.a (result72 f.ns (a.toInt + p)) c.gKept ∧
       WritesAcc (.msu n f) n s f.a (result72 f.ns (a.toInt - p)) c.gKept) ∧
     (f.plain false false false false = true → WritesAcc (.aclr n f) n s f.a 0 c.gKept) ∧
     (f.plain true false false true = true →
       (f.sh = 0 → WritesAcc (.awr n f) n s f.a (a.extractLsb' 32 40 ++ c.g f.p) c.gKept) ∧
       (f.sh = 1 → WritesAcc (.awr n f) n s f.a (a.extractLsb' 64 8 ++ c.g f.p ++ a.extractLsb' 0 32) c.gKept) ∧
       (f.sh = 2 → WritesAcc (.awr n f) n s f.a ((c.g f.p).extractLsb' 0 8 ++ a.extractLsb' 0 64) c.gKept)) ∧
     (f.plain false false false true = true → f.sh ≠ 0 →
       WritesAcc (.ashr n f) n s f.a (BitVec.ofInt 72 (roundedShift a.toInt f.sh.toNat)) c.gKept)) ∧
  (∀ (n : CoreNo) (s : State) (f : FmtD), Awake s → (coreOf s n).clear = true → f.plain true true true false = true →
     let c := coreOf s n
     let m := accClusterOf s (n.val / 16)
     let p := (c.g f.p).toNat
     let q := (c.g f.q).toNat
     let w := fun x i => (BitVec.ofNat 32 (leNat (mreadN m.scratch (x + 4 * i) 4))).toInt
     let h := fun x i => (BitVec.ofNat 16 (leNat (mreadN m.scratch (x + 2 * i) 2))).toInt
     c.access m true false p 8 8 = .ok () → c.access m true false q 8 8 = .ok () →
       WritesAcc (.mac2m n f) n s f.a (result72 f.ns ((c.a f.a).toInt + w p 0 * w q 0 + w p 1 * w q 1)) (c.gPair f.p f.q) ∧
       WritesAcc (.mac4m n f) n s f.a
         (result72 f.ns ((c.a f.a).toInt + h p 0 * h q 0 + h p 1 * h q 1 + h p 2 * h q 2 + h p 3 * h q 3)) (c.gPair f.p f.q))

/-- Table 11-5, R312: LW and LH load a word or a sign-extended halfword, which arrives behind the next instruction; SW and SH store the low 4 or 2
bytes; AADD and ASWP store and return the old word. Every other byte of the scratchpads reads as before. -/
def Obligations.AccordLoadsAndStores : Prop :=
  ∀ (n : CoreNo) (s : State) (b : FmtB) (f : FmtA), Awake s → (coreOf s n).clear = true →
    let c := coreOf s n
    let m := accClusterOf s (n.val / 16)
    let ea := (c.g b.s + b.imm.signExtend 32).toNat
    let at_ := (c.g f.s).toNat
    let old : Word := BitVec.ofNat 32 (leNat (mreadN m.scratch at_ 4))
    Memory.wf m.scratch = true →
    (c.access m true false ea 4 4 = .ok () →
      LoadsReg (.lw n b) n s b.d (BitVec.ofNat 32 (leNat (mreadN m.scratch ea 4))) ) ∧
    (c.access m true false ea 2 2 = .ok () →
      LoadsReg (.lh n b) n s b.d ((BitVec.ofNat 16 (leNat (mreadN m.scratch ea 2))).signExtend 32)) ∧
    (c.access m false true ea 4 4 = .ok () → StoresBytes (.sw n b) n s ea 4 (c.g b.d).toNat) ∧
    (c.access m true true ea 2 2 = .ok () → StoresBytes (.sh n b) n s ea 2 (c.g b.d).toNat) ∧
    (c.access m true true at_ 4 4 = .ok () →
      (f.plain true true = true → LoadsReg (.aadd n f) n s f.d old ∧
        StoresBytes (.aadd n f) n s at_ 4 (result32 f.ns (old.toInt + (c.g f.t).toInt)).toNat) ∧
      (f.plain true false = true → LoadsReg (.aswp n f) n s f.d old ∧ StoresBytes (.aswp n f) n s at_ 4 (c.g f.t).toNat))

/-- R310, R312, R317, Table 11-5: a taken branch, J, CALL, JR and RETI leave a transfer behind two delay slots; an instruction in the first slot leaves one more, one in the
second continues at the target, and RETI's second slot restores the mode. -/
def Obligations.AccordTransfers : Prop :=
  (∀ (n : CoreNo) (s : State) (f : FmtC) (a : FmtA), Awake s → (coreOf s n).clear = true → (coreOf s n).branch = none →
     let c := coreOf s n
     let x := (c.g f.s).toInt
     let target := c.pc + 4 + BitVec.ofInt 32 (4 * f.off.toInt)
     let falls := fun i => ∃ t, exec i s = .next t ∧ AccordOnly n s t ∧ ClustersKept s t ∧ (coreOf t n).branch = none ∧
       (coreOf t n).acc = c.acc ∧ ∀ r, (coreOf t n).g r = c.gKept r
     (x = 0 → TransfersTo (.beqz n f) n s target false ∧ falls (.bnez n f)) ∧
     (x ≠ 0 → TransfersTo (.bnez n f) n s target false ∧ falls (.beqz n f)) ∧
     (x < 0 → TransfersTo (.bltz n f) n s target false ∧ falls (.bgez n f)) ∧
     (0 ≤ x → TransfersTo (.bgez n f) n s target false ∧ falls (.bltz n f)) ∧
     (f.s = 0 → TransfersTo (.j n f) n s target false ∧ TransfersTo (.call n f) n s target false ∧
       (c.load = none → ∀ t, exec (.call n f) s = .next t → (coreOf t n).g 31 = c.pc + 12) ∧
       (f.off = 0 → TransfersTo (.reti n f) n s c.epc true)) ∧
     (a.plain false false = true → a.d = 0 → TransfersTo (.jr n a) n s (c.g a.s) false)) ∧
  (∀ (n : CoreNo) (s : State) (b : FmtB) (target : Word) (ret : Bool), Awake s → (coreOf s n).clear = true →
     (coreOf s n).haltReq = false → (coreOf s n).irq = 0 →
     ((coreOf s n).branch = some (target, 2, ret) → ∃ t, exec (.addi n b) s = .next t ∧
       (coreOf t n).branch = some (target, 1, ret) ∧ (coreOf t n).pc = (coreOf s n).pc + 4 ∧ (coreOf t n).user = (coreOf s n).user) ∧
     ((coreOf s n).branch = some (target, 1, ret) → ∃ t, exec (.addi n b) s = .next t ∧
       (coreOf t n).branch = none ∧ (coreOf t n).pc = target ∧
       (ret = true → (coreOf t n).user = (coreOf s n).puser ∧ (coreOf t n).ie = true) ∧
       (ret = false → (coreOf t n).user = (coreOf s n).user ∧ (coreOf t n).ie = (coreOf s n).ie)) ∧
     ((coreOf s n).branch = none → ∃ t, exec (.addi n b) s = .next t ∧ (coreOf t n).branch = none ∧ (coreOf t n).pc = (coreOf s n).pc + 4))

/-- R314, R311, R309: RPT n asks for n issues of the next instruction; WAIT stalls the core until an enabled interrupt is pending; CSRW writes its
control register in supervisor mode and discards a write of a read-only or absent number. -/
def Obligations.AccordRepeatWaitControl : Prop :=
  ∀ (n : CoreNo) (s : State) (f : FmtC) (b : FmtB), Awake s → (coreOf s n).clear = true → (coreOf s n).quiet = true →
    let c := coreOf s n
    (f.s = 0 → f.off.toNat < 4096 → ∃ t, exec (.rpt n f) s = .next t ∧ AccordOnly n s t ∧ ClustersKept s t ∧
      (coreOf t n).rep = f.off.toNat + 1 ∧ (coreOf t n).pc = c.pc + 4) ∧
    (f.s = 0 → f.off = 0 → ∃ t, exec (.wait n f) s = .next t ∧ AccordOnly n s t ∧ ClustersKept s t ∧
      ((coreOf t n).waiting = true ↔ c.irq &&& c.imask = 0)) ∧
    (c.user = false → b.d = 0 →
      let v := c.g b.s
      let wrote := fun (p : Core → Prop) => ∃ t, exec (.csrw n b) s = .next t ∧ AccordOnly n s t ∧ ClustersKept s t ∧ p (coreOf t n)
      (b.imm = 0x001 → wrote fun d => d.epc = v ∧ c.sameControl d) ∧
      (b.imm = 0x002 → wrote fun d => d.cause = c.cause ∧ c.sameControl d) ∧
      (b.imm = 0x003 → wrote fun d => d.vbase = v &&& 0xFFFFF800) ∧
      (b.imm = 0x010 → wrote fun d => d.icount = v ∧ c.sameControl d) ∧
      (b.imm = 0x011 → wrote fun d => d.ibudget = v) ∧
      (b.imm = 0x020 → wrote fun d => d.codeBase = v) ∧
      (b.imm = 0x021 → wrote fun d => d.codeLimit = v) ∧
      (b.imm = 0x022 → wrote fun d => d.win0Base = v) ∧
      (b.imm = 0x023 → wrote fun d => d.win0Limit = v) ∧
      (b.imm = 0x024 → wrote fun d => d.win1Base = v) ∧
      (b.imm = 0x025 → wrote fun d => d.win1Limit = v))

/-- R309, R311, R316, R317, Table 11-9: a reserved opcode or field, and CSRR and CSRW in user mode, raise ILLEGAL, a misaligned access ALIGN, and the
core enters the cause's vector with EPC and PUSER saved; an interrupt enters at an interruptible boundary while IE and its ACC_IMASK bit are 1, and waits otherwise. -/
def Obligations.AccordEntries : Prop :=
  (∀ (n : CoreNo) (s : State) (w : Word) (b : FmtB), Awake s → (coreOf s n).clear = true →
     let c := coreOf s n
     let takes := fun (i : Instr) (k : Nat) => ∃ t, exec i s = .next t ∧ AccordOnly n s t ∧ ClustersKept s t ∧ Entered c (coreOf t n) k
     ((w.toNat / 2 ^ 26 = 0 ∨ 0x31 ≤ w.toNat / 2 ^ 26) → takes (.reservedOpcode n w) 8) ∧
     (c.user = true → takes (.csrr n b) 8 ∧ takes (.csrw n b) 8) ∧
     (b.s ≠ 0 → takes (.lui n b) 8) ∧
     (let ea := (c.g b.s + b.imm.signExtend 32).toNat
      (c.mayTouch false ea 4 = true → ea % 4 ≠ 0 → takes (.lw n b) 10) ∧
      (c.mayTouch true ea 4 = true → ea % 4 ≠ 0 → takes (.sw n b) 10) ∧
      (c.mayTouch false ea 2 = true → ea % 2 ≠ 0 → takes (.lh n b) 10) ∧
      (c.mayTouch true ea 4 = false → takes (.sw n b) 9) ∧
      (c.mayTouch false ea 4 = false → takes (.lw n b) 9))) ∧
  (∀ (n : CoreNo) (k : Fin 3) (s : State), Awake s → (coreOf s n).halted = false → (coreOf s n).imask.getLsbD k = true →
     (coreOf s n).irq = 0 →
     ((coreOf s n).ie = true → (coreOf s n).interruptible = true → ∃ t, exec (.interruptEntry n k) s = .next t ∧ AccordOnly n s t ∧
       ClustersKept s t ∧ Entered (coreOf s n) (coreOf t n) k ∧ (coreOf t n).irq = 0 ∧ ∀ r, (coreOf t n).g r = (coreOf s n).g r) ∧
     ((coreOf s n).ie = false → ∃ t, exec (.interruptEntry n k) s = .next t ∧ AccordOnly n s t ∧ ClustersKept s t ∧
       coreOf t n = { coreOf s n with irq := 1#3 <<< k.val, waiting := false }))

/-- R336, R322, R326, R327: HALT halts a core at its next interruptible boundary, 0 lets it run on, and STEP issues one instruction of a halted core; after DEBUG_LOCK both are
discarded, and on a protecting pair a write that halts or steps is discarded and counted; a DMA transfer moves its bytes between HBM and the scratchpad and no others, and a forced grant returns the bank. -/
def Obligations.AccordDebugAndDma : Prop :=
  (∀ (n : CoreNo) (v : Word) (s : State), Awake s →
     (s.mon.debugLock = true → exec (.accDbgHalt n v) s = .next s ∧ exec (.accDbgStep n v) s = .next s) ∧
     (s.mon.debugLock = false → s.twin.prot = true → (v.getLsbD 0 = true ∨ v.getLsbD 1 = true) →
       let refused := fun (t : State) => t.accord = s.accord ∧ (fnOf t 0).badAccess = (fnOf s 0).badAccess + 1
       Yields (.accDbgHalt n v) s refused ∧ Yields (.accDbgStep n v) s refused) ∧
     (s.mon.debugLock = false → (s.twin.prot = true → v.getLsbD 0 = false ∧ v.getLsbD 1 = false) →
       (Yields (.accDbgHalt n v) s fun t => AccordOnly n s t ∧ ClustersKept s t ∧ (coreOf t n).haltReq = v.getLsbD 0 ∧
         (coreOf t n).acc = (coreOf s n).acc ∧ (v.getLsbD 0 = false → (coreOf t n).halted = false) ∧
         (v.getLsbD 0 = true → (coreOf s n).interruptible = true → coreOf t n = { coreOf s n with haltReq := true, halted := true }) ∧
         (v.getLsbD 0 = false → (coreOf s n).ie = false → coreOf t n = { coreOf s n with haltReq := false, halted := false })) ∧
       (Yields (.accDbgStep n v) s fun t =>
         (v.getLsbD 1 = false → AccordOnly n s t ∧ ClustersKept s t ∧ (coreOf t n).haltReq = v.getLsbD 0) ∧
         (v.getLsbD 0 = true → v.getLsbD 1 = true → (coreOf s n).halted = true → (coreOf s n).waiting = false → (coreOf s n).user = false →
           (coreOf s n).ie = false → (coreOf s n).interruptible = true →
           (accClusterOf s (n.val / 16)).poison.contains ((coreOf s n).pc.toNat / 4) = false → ∀ b : FmtB,
           decodeWord (BitVec.ofNat 32 (leNat (mreadN (accClusterOf s (n.val / 16)).scratch (coreOf s n).pc.toNat 4))) = .addi b →
           AccordOnly n s t ∧ ClustersKept s t ∧ (coreOf t n).pc = (coreOf s n).pc + 4 ∧ (coreOf t n).halted = true ∧
             ∀ r, (coreOf t n).g r = (coreOf s n).gAfter b.d (result32 false (((coreOf s n).g b.s).toInt + b.imm.toInt)) r)))) ∧
  (∀ (n : CoreNo) (r : DmaReq) (k : ClusterNo) (bank : Fin 16) (s : State), Awake s →
     (r.scratch.toNat + r.len ≤ 0x200000 → Memory.wf (accClusterOf s (n.val / 16)).scratch = true → Memory.wf s.hbm.mem = true →
       Yields (.dmaTransfer n r) s fun t => t.obj = s.obj ∧
         (r.toScratch = true → t.hbm = s.hbm ∧
           (∀ i, i < r.len → mread (accClusterOf t (n.val / 16)).scratch (r.scratch.toNat + i) = mread s.hbm.mem (r.hbm.toNat + i)) ∧
           (∀ x, (x < r.scratch.toNat ∨ r.scratch.toNat + r.len ≤ x) →
             mread (accClusterOf t (n.val / 16)).scratch x = mread (accClusterOf s (n.val / 16)).scratch x)) ∧
         (r.toScratch = false → (accClusterOf t (n.val / 16)).scratch = (accClusterOf s (n.val / 16)).scratch ∧
           (∀ i, i < r.len → mread t.hbm.mem (r.hbm.toNat + i) = mread (accClusterOf s (n.val / 16)).scratch (r.scratch.toNat + i)) ∧
           (∀ x, (x < r.hbm.toNat ∨ r.hbm.toNat + r.len ≤ x) → mread t.hbm.mem x = mread s.hbm.mem x))) ∧
     (2 ≤ bank.val → Yields (.dmaForcedGrant k bank) s fun t => t.obj = s.obj ∧
       tget (accClusterOf t k).starve bank = none ∧ (accClusterOf t k).episode.getLsbD bank = true ∧
       (accClusterOf t k).scratch = (accClusterOf s k).scratch ∧
       counterOf t (accCtr k 0x10C) = counterOf s (accCtr k 0x10C) + 1) ∧
     (bank.val < 2 → exec (.dmaForcedGrant k bank) s = .next s))

/-- R310, R311: no bit of an Accord word is lost by decoding, and every well-formed instruction is read back from its word. -/
def Obligations.AccordWordsRoundTrip : Prop :=
  (∀ w : Word, encodeWord (decodeWord w) = w) ∧ ∀ o : AccOp, o.ok = true → decodeWord (encodeWord o) = o

/-- R310, R311: words of the manual decode to the instructions they stand for. -/
def Obligations.AccordWordsOfTheManual : Prop :=
  decodeWord 0x44000000 = .addi { d := 0, s := 0, imm := 0 } ∧
  decodeWord 0x94000006 = .rpt { s := 0, off := 6 } ∧
  decodeWord 0xB0000000 = .aclr { a := 0, p := 0, q := 0, ns := false, rsv := false, sh := 0, rsv2 := 0 } ∧
  decodeWord 0xA8214000 = .mac2m { a := 0, p := 4, q := 5, ns := false, rsv := false, sh := 0, rsv2 := 0 } ∧
  decodeWord 0xB4300700 = .rnd { a := 0, p := 6, q := 0, ns := false, rsv := false, sh := 28, rsv2 := 0 }

/-! ### Host commands, rings and doorbells (chapter 3) -/

/-- R82: a command that passes every check of Table 03-13 takes its effect at its log position and is answered; one that fails a check is answered
with the status and DETAIL of the first check that fails, and its effect does not happen. This holds of every host command. -/
def Obligations.HostCommandsRunByTheirRules : Prop :=
  ∀ (i : Instr) (c : Cmd) (r : CmdRule) (s : State), hostRule? i = some (r, c) →
    (Admits r c s → exec i s = .next { perform r c s with pending := s.pending }) ∧
    (∀ f, Awake s → noseRuns s = true → fullCheck r c s = some f →
      exec i s = .next { answer r.op c (.ofFail f) (countFailure r c f s) with pending := s.pending } ∧
      Yields i s fun t => t.obj = s.obj ∧ t.media = s.media ∧ t.ports = s.ports ∧ t.tim = s.tim ∧ t.mon = s.mon ∧ t.accord = s.accord ∧
        t.hbm = s.hbm ∧ t.mem = s.mem ∧ t.twin = s.twin)

/-- R71, R72, R82: the reply of a failed command is one 32-byte entry at the producer index of the bound reply ring: TAG, then CMD_RING and STATUS,
then DETAIL, with PHASE of the index in bit 31 of the last doubleword; the producer index moves by one. DEV_QUERY, which changes nothing, answers
ST_OK with the silicon revision, the firmware version, the service level and the capability bits. -/
def Obligations.RepliesAreWritten : Prop :=
  ∀ (i : Instr) (c : Cmd) (r : CmdRule) (f : Fail) (s : State) (q : Ring) (rpl : Nat), ReplyReady c rpl q s →
    let moved := fun t => ∃ q', ringOf t c.fn rpl = some q' ∧ q'.prod = q.prod + 1 ∧ q'.cons = q.cons
    (hostRule? i = some (r, c) → Awake s → noseRuns s = true → fullCheck r c s = some f → f.status ≠ stNotOwner → f.status ≠ stTimeRefused →
      f.status ≠ stOk → Yields i s fun t => Replied r.op c q f.status f.detail [] t ∧ moved t) ∧
    (Admits ruleDevQuery c s → c.quiet = false → Yields (.devQuery c) s fun t => HostOnly s t ∧ t.twin = s.twin ∧ moved t ∧
      Replied 0x0101 c q stOk 0 [s.nose.siliconRev, s.nose.fwVersion, if s.nose.service = .full then 1 else 0, Config.capabilities] t)

/-- R500, R75, R70, R78, R66, Table 03-5: RING_CREATE makes a RUNNING ring of the number's kind with the descriptor's base and size; RING_DESTROY leaves a ring FREE, or a
command ring DRAINING; RING_RESET and VECTOR_CONFIG act on their ring and vector; ENABLE starts the admin rings or sets its error bits, writing it 0 drains them, and they become FREE together. -/
def Obligations.RingsStartAndStop : Prop :=
  (∀ (c : Cmd) (s : State),
     let f := c.fn.val
     (Admits ruleRingCreate c s → s.hst.badIova = [] → Yields (.ringCreate c) s fun t => t.obj = s.obj ∧ t.ports = s.ports ∧ t.hbm = s.hbm ∧
       ∃ r, ringOf t f (c.u16 16) = some r ∧ r.state = .running ∧ some r.kind = kindOf (c.u16 16) ∧ r.sizeLog2 = c.u8 20 ∧ r.vector = c.u8 21 ∧
         r.base = BitVec.ofNat 64 (c.u64 24) ∧ r.wb = BitVec.ofNat 64 (c.u64 32) ∧ r.dataArea = BitVec.ofNat 64 (c.u64 40) ∧
         r.dataSize = c.u32 48 ∧ r.boundReply = c.u16 18 ∧ r.groupMask = BitVec.ofNat 16 (c.u16 22) ∧ r.cons = 0) ∧
     (Admits ruleRingDestroy c s → Yields (.ringDestroy c) s fun t => t.obj = s.obj ∧ t.ports = s.ports ∧ t.hbm = s.hbm ∧
       ∃ r, ringOf t f (c.u16 16) = some r ∧
         (r.state = .free ∨ (r.kind = .command ∧ r.state = .draining))) ∧
     (Admits ruleRingReset c s → s.hst.badIova = [] → Yields (.ringReset c) s fun t => HostOnly s t ∧
       ∃ r, ringOf t f (c.u16 16) = some r ∧ r.state = .running ∧ r.cause = 0 ∧ r.cons = 0) ∧
     (Admits ruleVectorConfig c s → Yields (.vectorConfig c) s fun t => HostOnly s t ∧
       (vectorOf t f (c.u16 16)).modCount = c.u16 18 ∧ (vectorOf t f (c.u16 16)).modTime = c.u16 20)) ∧
  (∀ (fn : Fn) (w : Word) (s : State), Awake s →
     let p := fnOf s fn
     let p' : HstFn := { p with cmdLog2 := w.extractLsb' 12 4, rplLog2 := w.extractLsb' 16 4, evtLog2 := w.extractLsb' 20 4 }
     let free := fun n => match ringOf s fn n with | some r => r.stop = false | none => True
     (w.getLsbD 31 = true → s.nose.service ≠ .off → p.ready = false → free 0 → startLacks s fn = false → p'.start.bad = false → s.hst.badIova = [] →
       Yields (.hstAdmEnable fn w) s fun t => HostOnly s t ∧ (fnOf t fn).ready = true ∧ (fnOf t fn).enable = true ∧
         ringOf t fn 0 = some { state := .running, kind := .command, sizeLog2 := (w.extractLsb' 12 4).toNat, base := p.cmdBase, wb := p.cmdWb,
                                boundReply := 16 } ∧
         ringOf t fn 16 = some { state := .running, kind := .reply, sizeLog2 := (w.extractLsb' 16 4).toNat, base := p.rplBase } ∧
         ∃ r, ringOf t fn 32 = some r ∧ r.state = .running ∧ r.base = p.evtBase ∧ r.sizeLog2 = (w.extractLsb' 20 4).toNat) ∧
     (w.getLsbD 31 = true → s.nose.service ≠ .off → p.ready = false → free 0 → (startLacks s fn = true ∨ p'.start.bad = true) →
       Yields (.hstAdmEnable fn w) s fun t => HostOnly s t ∧ (fnOf t fn).ready = false ∧ (fnOf t fn).enable = false ∧
         (startLacks s fn = true → (fnOf t fn).errRes = true) ∧ (p'.start.bad = true → (fnOf t fn).errCfg = true) ∧
         (fnOf t fn).rings = p.rings) ∧
     (w.getLsbD 31 = false → p.ready = true → (∃ a b, ringOf s fn 0 = some a ∧ ringOf s fn 32 = some b) →
       Yields (.hstAdmDisable fn w) s fun t => HostOnly s t ∧ (fnOf t fn).enable = false ∧
         ∀ n, n = 0 ∨ n = 32 → ∃ r, ringOf t fn n = some r ∧ r.state = .draining) ∧
     ((∃ r, ringOf s fn 0 = some r ∧ r.stop = true) → adminDrained s fn = true → p.heldStart = none →
       Yields (.adminRingsFree fn) s fun t => HostOnly s t ∧ (fnOf t fn).ready = false ∧
         ∀ n, n = 0 ∨ n = 16 ∨ n = 32 → ∃ r, ringOf t fn n = some r ∧ r.state = .free) ∧
     (Yields (.admErrResClear fn) s fun t => HostOnly s t ∧ fnOf t fn = { p with errRes := false }) ∧
     (Yields (.admErrCfgClear fn) s fun t => HostOnly s t ∧ fnOf t fn = { p with errCfg := false }))

/-- R69: a 4-byte doorbell of a ring in use sets the producer index of a ring the host produces, or the consumer index of one it consumes; an
index behind the current one, or beyond the ring's entries, puts the ring into ERROR with cause 2 or 1; the current value changes nothing; another size,
a FREE ring or a reserved number is discarded and counted in HST_BAD_ACCESS. -/
def Obligations.DoorbellMovesOrFailsTheRing : Prop :=
  ∀ (fn : Fn) (n : Nat) (v : Word) (size : Nat) (s : State), Awake s →
    (kindOf n = none ∨ ringOf s fn n = none → Yields (.doorbell fn n size v) s fun t => HostOnly s t ∧ fnOf t fn = { fnOf s fn with badAccess := (fnOf s fn).badAccess + 1 }) ∧
    ∀ r : Ring, kindOf n ≠ none → ringOf s fn n = some r →
    let i := Instr.doorbell fn n 4 v
    let old := if r.hostProduces then r.prod else r.cons
    let room := if r.hostProduces then (v - r.cons).toNat ≤ r.entries else (r.prod - v).toNat ≤ r.entries
    let rest := fun t => HostOnly s t ∧ t.nose = s.nose ∧ t.twin = s.twin ∧ t.counters = s.counters ∧
      ∀ k, k ≠ n → k < 32 ∨ 36 ≤ k → ringOf t fn k = ringOf s fn k
    (r.state = .running ∨ r.state = .draining → v ≠ old → (v - old).toNat < 2 ^ 31 → room → r.kind ≠ .reply →
      Yields i s fun t => rest t ∧ t.hst.mem = s.hst.mem ∧
        (r.hostProduces = true → ringOf t fn n = some { r with prod := v }) ∧
        (r.hostProduces = false → ∃ r', ringOf t fn n = some r' ∧ r'.cons = v ∧ r'.prod = r.prod ∧ r'.state = r.state)) ∧
    (r.state = .running ∨ r.state = .draining → v ≠ old → (v - old).toNat < 2 ^ 31 → room → r.kind = .reply → s.nose.behind = [] → s.mon.softPending = none →
      Yields i s fun t => rest t ∧ ∃ r', ringOf t fn n = some r' ∧ r'.cons = v ∧ r'.prod = r.prod) ∧
    (r.state = .running ∨ r.state = .draining → 2 ^ 31 ≤ (v - old).toNat →
      Yields i s fun t => rest t ∧ ∃ r', ringOf t fn n = some r' ∧ r'.state = .error ∧ r'.cause = 2 ∧ r'.cons = r.cons) ∧
    (r.state = .running ∨ r.state = .draining → v ≠ old → (v - old).toNat < 2 ^ 31 → ¬ room →
      Yields i s fun t => rest t ∧ ∃ r', ringOf t fn n = some r' ∧ r'.state = .error ∧ r'.cause = 1 ∧ r'.cons = r.cons) ∧
    (r.state ≠ .free → v = old → exec i s = .next s) ∧
    ((size ≠ 4 ∨ r.state = .free) → Yields (.doorbell fn n size v) s fun t => rest t ∧ ringOf t fn n = some r ∧
      (fnOf t fn).badAccess = (fnOf s fn).badAccess + 1)

/-- R72, R89, R71, R74, R78: a command fetch takes the entry at the consumer index of the ring whose turn it is and owes one reply, and a failed read puts the
ring into ERROR with cause 3; a held event is written once its ring has room; a vector whose MOD_TIME has passed fires. -/
def Obligations.FetchFlushAndFire : Prop :=
  ∀ (fn : Fn) (n : Nat) (v : Fin 32) (s : State) (r : Ring), Awake s → ringOf s fn n = some r →
    (noseRuns s = true → fetchTurn s = some (fn.val, n) →
      (let x := readCmd s fn n r.cons (hostRead (r.entryAddr r.cons) 64 s) true
       descriptorCheck x.2 = none → x.1 ∈ opcodes → s.hst.badIova = [] →
        Yields (.commandFetch .ok) s fun t => HostOnly s t ∧ t.nose.fetched = s.nose.fetched ++ [⟨x.1, x.2⟩] ∧ t.hst.fnTurn = fn ∧
          ∃ r', ringOf t fn n = some r' ∧ r'.cons = r.cons + 1 ∧ r'.owed = r.owed + 1 ∧ r'.prod = r.prod ∧ r'.state = r.state) ∧
      Yields (.commandFetch .readFails) s fun t => HostOnly s t ∧ t.nose = s.nose ∧
        ∃ r', ringOf t fn n = some r' ∧ r'.state = .error ∧ r'.cause = 3 ∧ r'.cons = r.cons) ∧
    (kindOf n = some .event → r.state = .running → r.full = false → (fnOf s fn).d3hot = false → (fnOf s fn).flr = false →
      (∃ d, r.held = [d]) → r.dropped = 0 → s.hst.badIova = [] →
      Yields (.eventFlush fn n) s fun t => HostOnly s t ∧ ∃ r', ringOf t fn n = some r' ∧ r'.held = [] ∧ r'.prod = r.prod + 1 ∧ r'.seq = r.seq + 1) ∧
    (0 < (vectorOf s fn v).unsignalled →
      Yields (.vectorModTimeExpiry fn v) s fun t => HostOnly s t ∧ t.nose = s.nose ∧ (vectorOf t fn v).unsignalled = 0 ∧
        ((vectorOf s fn v).masked = false → (fnOf s fn).mute = false → (vectorOf t fn v).fired = (vectorOf s fn v).fired + 1) ∧
        ((vectorOf s fn v).masked = true → (vectorOf t fn v).pending = true))

/-! ### Resets, bring-up, power and health (chapter 17) -/

/-- R458, R459, R460, Table 17-4: a COLD, WARM or SOFT reset destroys every object and route and returns rings, ports, time, counters and the Accord cores to their reset
values; the fuses stay, host memory stays, the HBM partition stays but for COLD, the operator lock only over SOFT, and the cause bit is set. DEV_RESET of a device without a protected
peer is answered, and its SOFT reset then starts. -/
def Obligations.ResetsReturnAndKeep : Prop :=
  (∀ (s : State),
     let fresh := fun (t : State) => t.obj = State.reset.obj ∧ t.ports = [] ∧ t.counters = [] ∧ t.objCounters = [] ∧ t.accord = {} ∧ t.media = {} ∧
       t.video = {} ∧ t.orgue = {} ∧ t.tim.c = 0 ∧ t.nose.service = .off ∧ t.nose.fetched = [] ∧ t.hbm.mem = [] ∧ t.hst.mem = s.hst.mem ∧ t.free = s.free
     let kept := fun (t : State) => t.mon.debugLock = s.mon.debugLock ∧ t.mon.rollback = s.mon.rollback ∧ t.mon.fusedId = s.mon.fusedId ∧
       t.mon.macBase = s.mon.macBase ∧ t.mon.flashA = s.mon.flashA ∧ t.mon.flashB = s.mon.flashB ∧ t.mon.activeB = s.mon.activeB
     let cause := fun (k : Nat) (t : State) => t.mon.resetCause = s.mon.resetCause ||| BitVec.ofNat 10 (2 ^ k)
     let cold := fun (k : Nat) (t : State) => fresh t ∧ kept t ∧ cause k t ∧ t.mem.partition = State.reset.mem.partition ∧ t.mon.opLock = false ∧
       t.hst.fns = [] ∧ t.hbm.stackTbl = []
     let warm := fun (k : Nat) (t : State) => fresh t ∧ kept t ∧ cause k t ∧ t.mem.partition = s.mem.partition ∧ t.mon.opLock = false ∧ t.hst.fns = [] ∧
       t.hbm.stackTbl = []
     Yields (.coldReset .resetN) s (cold 1) ∧ Yields (.coldReset .refclkLoss) s (cold 2) ∧ Yields (.coldReset .vmonTrip) s (cold 3) ∧
     Yields (.coldReset .thermTrip) s (cold 4) ∧ Yields .refclkSysLoss s (cold 2) ∧ (∀ n, Yields (.thermTrip n) s (cold 4)) ∧ (∀ n, Yields (.vmonTrip n) s (cold 3)) ∧
     (s.mon.pwrGood = true → Yields (.warmReset .perst) s (warm 5)) ∧ Yields (.warmReset .hotReset) s (warm 6) ∧ Yields (.warmReset .linkDown) s (warm 7) ∧
     (Awake s → Yields .pfFlr s fun t => fresh t ∧ kept t ∧ cause 9 t ∧ t.mem.partition = s.mem.partition ∧ t.mon.opLock = s.mon.opLock ∧
       t.hst.fns = [] ∧ t.hst.vfEnable = false ∧ t.mon.inReset = false)) ∧
  (∀ (c : Cmd) (rpl : Nat) (q : Ring) (s : State), Admits ruleDevReset c s → ReplyReady c rpl q s → s.twin.state = .solo → s.twin.switchReq = false →
     Yields (.devReset c) s fun t => t.obj = State.reset.obj ∧ t.nose.service = .off ∧ t.ports = [] ∧ t.tim.c = 0 ∧
       t.mem.partition = s.mem.partition ∧ t.mon.opLock = s.mon.opLock ∧ t.mon.debugLock = s.mon.debugLock ∧
       t.mon.resetCause = s.mon.resetCause ||| BitVec.ofNat 10 (2 ^ 8) ∧ t.mon.inReset = false)

/-- R458, R472, R480, R482, R461, R463, R464, R452: the device leaves reset when its last reset input is released, and TWIN_ROLE decides its twin state; with TEST_MODE high it does not leave reset
and the step faults; an FLR of a VF returns its page; D3hot, the L1 states and QUIESCE act in their conditions; a configuration request gets retry status within 100 ms, and then reads or writes its register. -/
def Obligations.ResetInputsAndPowerStates : Prop :=
  (∀ (s : State) (straps : BitVec 2),
     let role := fun (t : State) => t.twin.state = if s.mon.twinRole then .solo else .withdrawn
     (s.mon.testMode = false → s.mon.inReset = true → s.mon.resetN = false → s.mon.perstN = true → s.mon.thermTrip = false →
       Yields .resetNRelease s fun t => t.mon.inReset = false ∧ t.mon.resetN = true ∧ role t ∧ t.obj = s.obj ∧ t.hst = s.hst) ∧
     (s.mon.testMode = true → exec .resetNRelease s = .fault .testMode) ∧
     (s.mon.inReset = true → s.mon.resetN = true → s.mon.pwrGood = true → s.mon.thermTrip = false → s.mon.refclkSys = true →
       Yields .perstNRelease s fun t => t.mon.inReset = false ∧ t.mon.perstN = true ∧ role t ∧ t.obj = s.obj ∧ t.hst = s.hst) ∧
     (Yields (.aonPowerUp straps) s fun t => t.mon.inReset = true ∧ t.mon.resetCause = 1 ∧ t.mon.smbAddr = 0x4C + straps.zeroExtend 7 ∧
       t.mon.debugLock = s.mon.debugLock ∧ t.mon.rollback = s.mon.rollback ∧ t.obj = State.reset.obj ∧ t.nose.service = .off ∧ t.hst.mem = s.hst.mem)) ∧
  (∀ (s : State) (fn : Fn) (sub : Fin 3) (w : Word) (reg : CfgReg) (wr : Option Word64) (v : Word64), Awake s →
     (fn ≠ 0 → Yields (.vfFlr fn) s fun t => fnOf t fn = {} ∧
       (followsLog s = true → t.obj.legs = s.obj.legs ∧ t.obj.confs = s.obj.confs ∧ t.obj.tenants = s.obj.tenants) ∧
       (followsLog s = false → ∀ x, t.obj.tenants.at? fn = some x → x.excRing = 0 ∧ x.dscp = [] ∧ x.meter = none)) ∧
     (Yields (.d3hotEntry fn) s fun t => HostOnly s t ∧ fnOf t fn = { fnOf s fn with d3hot := true } ∧ ∀ g, g ≠ fn.val → fnOf t g = fnOf s g) ∧
     (Yields (.d3hotExit fn) s fun t => HostOnly s t ∧ (fnOf t fn).d3hot = false ∧ (s.nose.behind = [] → ∀ g, g ≠ fn.val → fnOf t g = fnOf s g)) ∧
     (Yields (.aspmL1Entry sub) s fun t => t = { s with hst := { s.hst with linkL1 := sub.val + 1 } }) ∧
     (Yields .linkL1Exit s fun t => t = { s with hst := { s.hst with linkL1 := 0 } }) ∧
     (s.mon.sinceNs + s.tim.c < 100000000 → Yields (.pcieConfigRequest ⟨fn, reg, wr⟩) s fun t => t = { s with hst := { s.hst with cfgRetry := true } }) ∧
     (100000000 ≤ s.mon.sinceNs + s.tim.c →
       (Yields (.pcieConfigRequest ⟨fn, reg, none⟩) s fun t =>
         t = { s with hst := { s.hst with cfgRetry := false, lastRead := BitVec.ofNat 64 (cfgView s fn reg) } }) ∧
       (Yields (.pcieConfigRequest ⟨fn, .deviceId, none⟩) s fun t => t.hst.lastRead = if fn = 0 then 0x9416 else 0x9417) ∧
       (Yields (.pcieConfigRequest ⟨fn, .msixControl, some v⟩) s fun t => HostOnly s t ∧ (fnOf t fn).cfg.msixEnable = v.getLsbD 15 ∧
         (fnOf t fn).cfg.funcMask = v.getLsbD 14 ∧ (fnOf t fn).rings = (fnOf s fn).rings ∧ ∀ g, g ≠ fn.val → fnOf t g = fnOf s g) ∧
       (Yields (.pcieConfigRequest ⟨0, .sriovControl, some v⟩) s fun t => HostOnly s t ∧ t.hst.vfEnable = v.getLsbD 0)) ∧
     (mayQuiesce s = true → Yields .quiesceEntry s fun t => t = { s with mon := { s.mon with quiesce := true } }) ∧
     (mayQuiesce s = false → exec .quiesceEntry s = .next s) ∧
     (Yields (.quiesceExit true) s fun t => t = { s with mon := { s.mon with quiesce := false }, hbm := s.hbm.roused } ∧
       ∀ p, (pcOf t p).sr = 0 ∧ (pcOf t p).debt = if 3 ≤ (pcOf s p).sr then 0 else (pcOf s p).debt) ∧
     (Yields (.quiesceEnWrite w) s fun t =>
       t = { s with mon := { s.mon with quiesceEn := w.getLsbD 0, quiesce := s.mon.quiesce && w.getLsbD 0 }, hbm := if w.getLsbD 0 then s.hbm else s.hbm.roused }))

/-- R453, R454, R455: the boot ROM boots the active slot's good image, else the other's, else STAGE reads 0xF; Blotter service then begins, and full service
once every stack has trained, with the anti-rollback fuse advanced to the running image. -/
def Obligations.BootLeadsToService : Prop :=
  ∀ (s : State) (a b : FlashImage), Awake s →
    let act := if s.mon.activeB then b else a
    let oth := if s.mon.activeB then a else b
    let good := fun (x : FlashImage) => x.signed = true ∧ s.mon.rollback.toNat ≤ x.securityCounter.toNat
    (s.mon.bootStage = 0 → s.nose.service = .off →
      (good act → Yields (.bootVerify a b) s fun t => t.mon.bootStage = 3 ∧ t.mon.slotB = s.mon.activeB ∧ t.mon.fallback = false ∧
        t.nose.fwVersion = act.version ∧ t.obj = s.obj) ∧
      (¬ good act → good oth → Yields (.bootVerify a b) s fun t => t.mon.bootStage = 3 ∧ t.mon.slotB = !s.mon.activeB ∧ t.mon.fallback = true ∧
        t.nose.fwVersion = oth.version ∧ t.obj = s.obj) ∧
      (¬ good act → ¬ good oth → Yields (.bootVerify a b) s fun t => t.mon.bootStage = 0xF ∧ t.nose = s.nose ∧ t.obj = s.obj)) ∧
    (s.mon.bootStage = 3 → s.nose.service = .off → Yields .blotterServiceStart s fun t => t.nose.service = .blotter ∧ t.mon.bootStage = 4 ∧ t.obj = s.obj) ∧
    (s.nose.service = .blotter → (∀ n, n < 4 → (stackOf s n).trained = true) →
      Yields .fullServiceStart s fun t => t.nose.service = .full ∧ t.mon.bootStage = 5 ∧ t.obj = s.obj ∧
        t.mon.rollback.toNat = max s.mon.rollback.toNat s.nose.fwCounter.toNat) ∧
    ((∃ n, n < 4 ∧ (stackOf s n).trained = false) → exec .fullServiceStart s = .next s)

/-- R465, R473, R475, R476, R4: WATCHDOG_SET arms the watchdog and an expiry is counted; a verified FW_UPDATE writes the slot that is not running and marks it for
the next boot; a verified DEBUG_LOCK and the JTAG instruction, which works in reset too, blow the fuse; the operator lock is only ever set; writing 1 to a cause or alarm bit clears that bit. -/
def Obligations.WatchdogUpdatesAndLocks : Prop :=
  ∀ (s : State) (c : Cmd) (w : Word),
    (Admits ruleWatchdogSet c s → Yields (.watchdogSet c) s fun t => HostOnly s t ∧ t.nose.wdogInterval = c.u32 16 ∧ t.nose.wdogExpiries = 0) ∧
    (Awake s → s.nose.wdogInterval ≠ 0 → Yields .watchdogExpiry s fun t => t.obj = s.obj ∧ t.nose.wdogExpiries = s.nose.wdogExpiries + 1 ∧
      t.nose.wdogInterval = s.nose.wdogInterval ∧ counterOf t (monCtr 0x40C) = counterOf s (monCtr 0x40C) + 1) ∧
    (AdmitsIfSigned ruleFwUpdate c s → Yields (.fwUpdate c) s fun t => t.obj = s.obj ∧ t.mon.debugLock = s.mon.debugLock ∧
      (fullCheck ruleFwUpdate c s ≠ none → t.mon = s.mon) ∧
      (fullCheck ruleFwUpdate c s = none → t.mon.staged = true ∧ t.mon.activeB = !s.mon.slotB ∧
        (s.mon.slotB = false → t.mon.flashB.valid = true ∧ t.mon.flashA = s.mon.flashA) ∧
        (s.mon.slotB = true → t.mon.flashA.valid = true ∧ t.mon.flashB = s.mon.flashB))) ∧
    (AdmitsIfSigned ruleDebugLock c s → Yields (.debugLock c) s fun t => t.obj = s.obj ∧ t.accord = s.accord ∧
      t.mon = { s.mon with debugLock := s.mon.debugLock || (fullCheck ruleDebugLock c s).isNone }) ∧
    (Yields .jtagLockDebug s fun t => t = { s with mon := { s.mon with debugLock := true } }) ∧
    (Awake s → Yields (.monOpLockSet w) s fun t => t = { s with mon := { s.mon with opLock := s.mon.opLock || w.getLsbD 0 } }) ∧
    (Awake s → Yields (.monResetCauseClear w) s fun t => t = { s with mon := { s.mon with resetCause := s.mon.resetCause &&& ~~~w.extractLsb' 0 10 } }) ∧
    (Awake s → Yields (.monVmonAlarmClear w) s fun t => t = { s with mon := { s.mon with vmonAlarm := s.mon.vmonAlarm &&& ~~~w.extractLsb' 0 16 } })

/-- R468, R469, R471, R402: a sample is recorded, with the stacks' own temperatures as sensors 24-27; the throttle stage moves by one within 0 to 3; an alarm sets
its bit and is counted; the TIME reference's loss and return are recorded. -/
def Obligations.MonitorsRecord : Prop :=
  ∀ (s : State) (temps : List Int) (volts procs : List Nat) (rise : Bool) (sensor : Fin 28) (m : Fin 16),
    (Yields (.monitorSample temps volts procs) s fun t => t.mon.volts = volts.take 16 ∧ t.mon.procs = procs.take 32 ∧ t.obj = s.obj ∧
      (∀ i, i < 24 → t.mon.temps.getD i 0 = temps.getD i 0) ∧
      (∀ i, i < 4 → t.mon.temps.getD (24 + i) 0 = ((stackOf s i).temp.toNat * 4 : Nat))) ∧
    (Yields (.throttleStageChange rise sensor) s fun t => t.obj = s.obj ∧
      t.mon.throttle.toNat = if rise then min 3 (s.mon.throttle.toNat + 1) else s.mon.throttle.toNat - 1) ∧
    (Yields (.vmonAlarm m) s fun t => t.mon.vmonAlarm = s.mon.vmonAlarm ||| (1#16 <<< m.val) ∧ t.obj = s.obj ∧
      counterOf t (monCtr 0x408) = counterOf s (monCtr 0x408) + 1) ∧
    (Awake s → Yields .timeRefclkLoss s fun t => t.tim = { s.tim with refclkLost := true } ∧ t.obj = s.obj) ∧
    (Awake s → Yields .timeRefclkReturn s fun t => t = { s with tim := { s.tim with refclkLost := false } })

/-! ### Registers and queries (chapters 2, 3) -/

/-- R4, R65, R64, Tables 03-4, 17-9: a register access that is not 32 or 64 bits or not aligned does nothing but read 0 and count; a 64-bit write is the writes of its
halves, low address first; a write of the PF to a read-only page does nothing but count, once; a write of a base register or of a port's address sets it and no other; the PF writes no page of a VF. -/
def Obligations.RegisterWritesReachTheirRegister : Prop :=
  ∀ (fn : Fn) (a size : Nat) (v : Word64) (s : State) (p : PortNo), Awake s →
    let w : Word := v.extractLsb' 0 32
    let x := fnOf s fn
    (accessOk a size = false → Yields (.registerWrite fn a size v) s fun t => HostOnly s t ∧ t.counters = s.counters ∧
      fnOf t fn = { x with badAccess := x.badAccess + 1 }) ∧
    (readOnlyPage a = true → accessOk a size = true → Yields (.registerWrite 0 a size v) s fun t => HostOnly s t ∧ t.counters = s.counters ∧
      fnOf t 0 = { fnOf s 0 with badAccess := (fnOf s 0).badAccess + 1 }) ∧
    (a % 8 = 0 → (fn = 0 → readOnlyPage a = false) → Yields (.registerWrite fn a 4 v) s fun t =>
      exec (.registerWrite fn a 8 v) s = exec (.registerWrite fn (a + 4) 4 (v >>> 32)) t) ∧
    (Yields (.registerWrite fn 0x30 4 v) s fun t => HostOnly s t ∧ fnOf t fn = { x with rplBase := x.rplBase.extractLsb' 32 32 ++ w }) ∧
    (Yields (.registerWrite fn 0x34 4 v) s fun t => HostOnly s t ∧ fnOf t fn = { x with rplBase := w ++ x.rplBase.extractLsb' 0 32 }) ∧
    (Yields (.registerWrite fn 0x100 4 v) s fun t => HostOnly s t ∧ fnOf t fn = { x with ringSel := v.extractLsb' 0 14 }) ∧
    (65536 ≤ a → a < 0x400000 → a % 4 = 0 → Yields (.registerWrite 0 a 4 v) s fun t => HostOnly s t ∧ ∀ g : Fn, g ≠ 0 → fnOf t g = fnOf s g) ∧
    (Yields (.registerWrite 0 (0x800010 + p * 65536) 4 v) s fun t => t.hst = s.hst ∧ t.obj = s.obj ∧ (∀ k, k ≠ p.val → portOf t k = portOf s k) ∧
      portOf t p = { portOf s p with addr := (portOf s p).addr.extractLsb' 32 16 ++ w }) ∧
    (Yields (.registerWrite 0 0x300001C 4 v) s fun t => t.hst = s.hst ∧ t.obj = s.obj ∧
      t.mon = if s.mon.opLock then s.mon else { s.mon with tempWarn := max 60 (min 95 (w.toNat % 128)) })

/-- R396, R65, R472, R113: reading TIM_NOW_LO latches the high word and the fraction of the same instant for that function; a 64-bit read gives the whole time; a
misaligned read gives 0 and is counted; while STAGE reads 0xF only the NOS and MON windows answer (R453; that an unanswered read changes nothing is the
model's choice, log entry 170); a counter's register reads the counter; an SMBus block read gives the MON register, in reset too. -/
def Obligations.RegisterReadsGiveTheirValue : Prop :=
  ∀ (fn : Fn) (a size : Nat) (s : State) (p : PortNo) (k : Fin 32),
    let lo := if fn = 0 then 0x2800000 else 0x30000
    let x := fnOf s fn
    (Awake s → s.mon.bootStage = 0xF → (fn ≠ 0 ∨ a / 0x400000 ≠ 1 ∧ a / 0x400000 ≠ 12) →
      Yields (.timNowRead fn a size) s fun t => HostOnly s t ∧ t.hst = s.hst) ∧
    (Awake s → s.mon.bootStage ≠ 0xF →
      (Yields (.timNowRead fn lo 4) s fun t => HostOnly s t ∧ t.hst.lastRead = BitVec.ofNat 64 (nowNs s % 2 ^ 32) ∧
        fnOf t fn = { x with timHi := BitVec.ofNat 32 (nowNs s / 2 ^ 32), timFrac := BitVec.ofNat 32 (nowFrac s) } ∧ ∀ g, g ≠ fn.val → fnOf t g = fnOf s g) ∧
      (Yields (.timNowRead fn lo 8) s fun t => HostOnly s t ∧ t.hst.lastRead = BitVec.ofNat 64 (nowNs s)) ∧
      (Yields (.timNowRead fn (lo + 4) 4) s fun t => HostOnly s t ∧ t.hst.fns = s.hst.fns ∧ t.hst.lastRead = x.timHi.zeroExtend 64) ∧
      (accessOk a size = false → Yields (.timNowRead fn a size) s fun t => HostOnly s t ∧ t.hst.lastRead = 0 ∧
        fnOf t fn = { x with badAccess := x.badAccess + 1 }) ∧
      (Yields (.timNowRead 0 (0x800100 + p * 65536 + 4 * k) 4) s fun t => HostOnly s t ∧ t.hst.fns = s.hst.fns ∧
        t.hst.lastRead = (counterOf s (portCtr p (0x100 + 4 * k))).zeroExtend 64)) ∧
    (Yields (.smbusBlockRead 0) s fun t => HostOnly s t ∧ t.hst.lastRead = s.mon.resetCause.zeroExtend 64) ∧
    (Yields (.smbusBlockRead 3) s fun t => HostOnly s t ∧ t.hst.lastRead = if s.mon.opLock then 1 else 0) ∧
    (∀ i : Fin 28, Yields (.smbusBlockRead (BitVec.ofNat 8 (64 + i))) s fun t => HostOnly s t ∧
      t.hst.lastRead = BitVec.ofNat 64 (BitVec.ofInt 11 (s.mon.temps.getD i 0)).toNat)

/-- R85, R501, R494, R145: a query changes nothing of the device but what R85 restarts for tenant 0's POOL_QUERY, and answers in the reply or in its output buffer:
KEY_QUERY the slot's state and index, TIME_QUERY the time and status, COUNTER_READ its values, STATUS_READ the key slot handles, TWIN_QUERY and POOL_QUERY their records,
the rest the bytes that the manual leaves open (log entry 10). SELFTEST answers a free result (log entry 68). -/
def Obligations.QueriesAnswer : Prop :=
  ∀ (c : Cmd) (s : State) (rpl : Nat) (q : Ring) (k : KeySlot), s.twin.applying = false → s.mon.quiesce = false → Memory.wf s.hst.mem = true →
    s.nose.behind = [] →
    let kept := fun (t : State) => HostOnly s t ∧ t.counters = s.counters ∧ t.twin = s.twin ∧ t.orgue = s.orgue
    let block := fun (at_ : Nat) (bs : List Byte) (t : State) => kept t ∧ t.mem = s.mem ∧ mreadN t.hst.mem at_ bs.length = bs ∧
      ∀ x, (x < at_ ∨ at_ + bs.length ≤ x) → mread t.hst.mem x = mread s.hst.mem x
    (c.quiet = false → ReplyReady c rpl q s →
      (Admits ruleKeyQuery c s → slotAt s (keySlot c) = some k → Yields (.keyQuery c) s fun t => kept t ∧ t.mem = s.mem ∧
        Replied 0x0604 c q stOk 0 [BitVec.ofNat 32 k.code, BitVec.ofNat 32 (if k.outbound then k.next else k.highest),
          BitVec.ofNat 32 ((if k.outbound then k.next else k.highest) / 2 ^ 32)] t) ∧
      (Admits ruleTimeQuery c s → Yields (.timeQuery c) s fun t => kept t ∧ t.mem = s.mem ∧
        Replied 0x0A03 c q stOk 0 [BitVec.ofNat 32 (nowNs s), BitVec.ofNat 32 (nowNs s / 2 ^ 32), BitVec.ofNat 32 (nowFrac s), timStatus s.tim] t) ∧
      (Admits ruleSelftest c s → Yields (.selftest c) s fun t => t.obj = s.obj ∧ t.mem = s.mem ∧ t.tim = s.tim ∧ t.free = s.free + 1 ∧
        Replied 0x0C04 c q stOk 0 [BitVec.ofNat 32 (Config.freeNat s.free)] t)) ∧
    (c.quiet = true →
      (Admits ruleCounterRead c s → Yields (.counterRead c) s
        (block (c.u64 24) ((List.range (c.u16 20)).flatMap fun i => leBytes 8 (groupValue s (c.u16 16) c.object (c.u16 18 + i))))) ∧
      (Admits ruleStatusRead c s → c.u16 16 = 0x0601 → Yields (.statusRead c) s (block (c.u64 24)
        (dwBytes ((s.obj.slots.live.filter fun kv => decide (kv.2.tenant = c.fn.val)).map fun kv => handleOf s tySlot kv.1)))) ∧
      (Admits ruleTwinQuery c s → Yields (.twinQuery c) s
        (block (c.u64 16) (twinRecord s c.fn ++ (List.range 16).flatMap (ringRecord s c.fn)))) ∧
      (Admits rulePoolQuery c s → Yields (.poolQuery c) s fun t => kept t ∧ mreadN t.hst.mem (c.u64 16) (16 * s.mem.pools.length) = s.mem.pools.flatMap poolRecord ∧
        (c.fn ≠ 0 → t.mem = s.mem) ∧ (c.fn = 0 → t.mem = { s.mem with pools := s.mem.pools.map fun p => { p with lowest := p.free, movedUp := 0 } })) ∧
      (Admits ruleTenantQuery c s → Yields (.tenantQuery c) s (block (c.u64 16) (openBytes 0x0204 c.object))) ∧
      (Admits ruleConfQuery c s → Yields (.confQuery c) s (block (c.u64 16) (openBytes 0x0304 c.object))) ∧
      (Admits ruleLegQuery c s → Yields (.legQuery c) s (block (c.u64 16) (openBytes 0x0408 c.object))) ∧
      (Admits rulePartitionQuery c s → Yields (.partitionQuery c) s (block (c.u64 16) (openBytes 0x0D02 c.object))))

/-! ### Tenants, conferences, legs, streams (chapter 2) -/

/-- R32, R492, R493, R34, R45: TENANT_CREATE makes the tenant of its block and TENANT_MODIFY changes what its mask selects; TENANT_DESTROY frees the tenant and its
rings; TENANT_ROUTE sets its exception ring. Every other tenant, every conference and every port stays. -/
def Obligations.TenantsFollowTheirBlock : Prop :=
  ∀ (c : Cmd) (s : State) (x : Tenant),
    let n := hIndex c.object
    let rest := fun (k : Nat) (t : State) => t.obj.confs = s.obj.confs ∧ t.obj.layouts = s.obj.layouts ∧ t.ports = s.ports ∧ HbmKept s t ∧ t.tim = s.tim ∧
      ∀ j, j ≠ k → t.obj.tenants.at? j = s.obj.tenants.at? j
    (Admits ruleTenantCreate c s → Yields (.tenantCreate c) s fun t => rest (c.u8 64) t ∧ t.obj.legs = s.obj.legs ∧
      t.obj.tenants.at? (c.u8 64) = some (tenApply c {})) ∧
    (Admits ruleTenantModify c s → s.obj.tenants.at? n = some x → Yields (.tenantModify c) s fun t => rest n t ∧ t.obj.legs = s.obj.legs ∧
      t.obj.tenants.at? n = some (tenApply c x)) ∧
    (Admits ruleTenantDestroy c s → Yields (.tenantDestroy c) s fun t => rest n t ∧ t.obj.tenants.at? n = none ∧ ∀ r, ringOf t n r = none) ∧
    (Admits ruleTenantRoute c s → s.obj.tenants.at? n = some x → Yields (.tenantRoute c) s fun t => rest n t ∧ t.obj.legs = s.obj.legs ∧
      t.obj.tenants.at? n = some { x with excRing := c.u16 16, unmatchedStun := decide (c.u16 18 % 2 = 1) })

/-- R495, R35, R37: CONF_CREATE makes a conference at the next index of the table with the parameters of its block; CONF_MODIFY changes what its mask selects; CONF_DESTROY
closes the conference, and every leg of it drains. -/
def Obligations.ConferencesFollowTheirBlock : Prop :=
  ∀ (c : Cmd) (s : State) (k : Conf),
    let i := hIndex c.object
    let rest := fun (n : Nat) (t : State) => t.obj.legs = s.obj.legs ∧ t.obj.tenants = s.obj.tenants ∧ t.ports = s.ports ∧
      ∀ j, j ≠ n → t.obj.confs.at? j = s.obj.confs.at? j
    (Admits ruleConfCreate c s → ∃ n, s.obj.confs.next 2048 = some n ∧ Yields (.confCreate c) s fun t => rest n t ∧ t.obj.confs.at? n = some (newConf c)) ∧
    (Admits ruleConfModify c s → s.obj.confs.at? i = some k → bit (c.u32 28) 0 = false → bit (c.u32 28) 3 = false →
      Yields (.confModify c) s fun t => rest i t ∧ t.obj.confs.at? i = some { k with
        talkerLimit := if bit (c.u32 28) 1 then c.u8 17 else k.talkerLimit, legLimit := if bit (c.u32 28) 2 then c.u16 18 else k.legLimit,
        globalId := if bit (c.u32 28) 4 then confGlobal c else k.globalId }) ∧
    (Admits ruleConfModify c s → c.u32 28 ≠ 0 → ∃ u, tryConfModify c s = .ok u ∧ Yields (.confModify c) s fun t => t.obj = u.obj ∧ t.mem = u.mem) ∧
    (Admits ruleConfDestroy c s → Yields (.confDestroy c) s fun t => t.obj.tenants = s.obj.tenants ∧ t.ports = s.ports ∧
      (∀ k', t.obj.confs.at? i = some k' → k'.closing = true) ∧
      ∀ j l, t.obj.legs.at? j = some l → l.conf = i → l.state = .draining)

/-- R496, R46, R47, R50, R498, R48: LEG_ATTACH makes a leg in PENDING; LEG_ENABLE and LEG_RESUME make it ACTIVE with a full burst, LEG_HOLD holds it, LEG_MODIFY changes
what its mask selects, LEG_MOVE gives it another conference, LEG_DETACH drains it, and the end of the drain frees it with its streams. -/
def Obligations.LegsMoveThroughTheirStates : Prop :=
  ∀ (c : Cmd) (s : State) (l : Leg) (leg : Nat),
    let i := hIndex c.object
    let rest := fun (n : Nat) (t : State) => t.obj.confs = s.obj.confs ∧ t.obj.tenants = s.obj.tenants ∧ t.obj.ins = s.obj.ins ∧ t.obj.outs = s.obj.outs ∧
      t.ports = s.ports ∧ ∀ j, j ≠ n → t.obj.legs.at? j = s.obj.legs.at? j
    let full := { l.shaper with credit := l.shaper.burst * 8000000, last := s.tim.c }
    (Admits ruleLegAttach c s → ∃ n is u, tryAttach c s = .ok (n, is, u) ∧ s.obj.legs.next 8192 = some n ∧
      Yields (.legAttach c) s fun t => t.obj = u.obj ∧ t.mem = u.mem ∧
        (attachStreams c = 0 → rest n t ∧ t.obj.legs.at? n = some (attachLeg c s))) ∧
    (s.obj.legs.at? i = some l →
      (Admits ruleLegEnable c s → Yields (.legEnable c) s fun t => rest i t ∧ t.obj.legs.at? i = some (if l.state = .active then l else
        { l with state := .active, shaper := full, est := { l.est with target := l.est.start, decided := false, feedbackAt := s.media.tick } })) ∧
      (Admits ruleLegHold c s → Yields (.legHold c) s fun t => rest i t ∧ t.obj.legs.at? i = some { l with state := .held }) ∧
      (Admits ruleLegResume c s → Yields (.legResume c) s fun t => rest i t ∧ t.obj.legs.at? i = some (if l.state = .active then l else
        { l with state := .active, shaper := full })) ∧
      (Admits ruleLegModify c s → Yields (.legModify c) s fun t => rest i t ∧ ∃ l', t.obj.legs.at? i = some l' ∧ l'.state = l.state ∧ l'.conf = l.conf ∧
        l'.transport = (if bit (c.u32 132) 0 then transportAt c 64 else l.transport) ∧ (bit (c.u32 132) 1 = false → l'.meter = l.meter)) ∧
      (Admits ruleLegMove c s →
        (l.conf = hIndex (c.hdl 16) → Yields (.legMove c) s fun t => t.obj = s.obj) ∧
        (l.conf ≠ hIndex (c.hdl 16) → ∃ u, moveLeg i (hIndex (c.hdl 16)) s = .ok u ∧ Yields (.legMove c) s fun t => t.obj = u.obj ∧ t.mem = u.mem ∧
          (l.ins = [] → l.outs = [] → (t.obj.legs.at? i).map (·.conf) = some (hIndex (c.hdl 16))))) ∧
      (Admits ruleLegDetach c s → Yields (.legDetach c) s fun t => t.obj.tenants = s.obj.tenants ∧ ∃ l', t.obj.legs.at? i = some l' ∧ l'.state = .draining ∧
        l'.drainTicks = 0 ∧ l'.ins = l.ins ∧ l'.outs = l.outs)) ∧
    (Awake s → s.obj.legs.at? leg = some l → l.state = .draining →
      (2 ≤ l.drainTicks → Yields (.legDrainEnd leg) s fun t => t.obj.tenants = s.obj.tenants ∧ t.obj.legs.at? leg = none ∧
        (∀ j ∈ l.ins, t.obj.ins.at? j = none) ∧ ∀ j ∈ l.outs, t.obj.outs.at? j = none) ∧
      (l.drainTicks < 2 → exec (.legDrainEnd leg) s = .next s))

/-- R497, R498, R499, R251, R496: STREAM_ADD takes its reservations and adds the stream; STREAM_REMOVE frees it; STREAM_MODIFY replaces its record; STREAM_ROUTE sets its
extraction ring; STREAM_KEYPIC notes a request on a composite; SLOT_ASSIGN gives a forwarded slot its source. -/
def Obligations.StreamsFollowTheirRecord : Prop :=
  ∀ (c : Cmd) (s : State) (x : InStream) (o : OutStream) (k : Comp) (l : Leg),
    let i := hIndex c.object
    let others := fun (t : State) => t.obj.tenants = s.obj.tenants ∧ t.ports = s.ports ∧ t.tim = s.tim ∧ HbmKept s t
    (Admits ruleStreamAdd c s → ∃ n u, tryAdd c s = .ok (n, u) ∧ Yields (.streamAdd c) s fun t => t.obj = u.obj ∧ t.mem = u.mem ∧
      (hType c.object = tyTrunk → s.obj.ins.next 65536 = some n ∧ ∃ y, t.obj.ins.at? n = some y ∧ y.decl = recordAt c 64 ∧ y.onTrunk = true ∧ y.owner = i)) ∧
    (Admits ruleStreamRemove c s → Yields (.streamRemove c) s fun t => others t ∧ (hType c.object = tyIn → t.obj.ins.at? i = none) ∧
      (hType c.object ≠ tyIn → t.obj.outs.at? i = none)) ∧
    (Admits ruleStreamModify c s → ∃ u, tryModify c s = .ok u ∧ Yields (.streamModify c) s fun t => t.obj = u.obj ∧ t.mem = u.mem ∧
      (hType c.object = tyIn → s.obj.ins.at? i = some x → x.dec = none → ∃ y, t.obj.ins.at? i = some y ∧ y.decl = recordAt c 64 ∧ y.route = x.route) ∧
      (hType c.object ≠ tyIn → s.obj.outs.at? i = some o → o.comp = none → ∃ y, t.obj.outs.at? i = some y ∧ y.decl = recordAt c 64 ∧ y.route = o.route)) ∧
    (let r := if c.u16 16 = 0 then none else some (c.u16 16, decide (c.u32 20 = 1))
     Admits ruleStreamRoute c s → Yields (.streamRoute c) s fun t => others t ∧ t.obj.legs = s.obj.legs ∧
      (hType c.object = tyIn → s.obj.ins.at? i = some x → t.obj.outs = s.obj.outs ∧ t.obj.ins.at? i = some { x with route := r }) ∧
      (hType c.object ≠ tyIn → s.obj.outs.at? i = some o → t.obj.ins = s.obj.ins ∧ t.obj.outs.at? i = some { o with route := r })) ∧
    (Admits ruleStreamKeypic c s → s.obj.outs.at? i = some o → o.comp = some k → k.stitcher = none → Yields (.streamKeypic c) s fun t => others t ∧
      t.obj.outs.at? i = some { o with comp := some { k with requests := k.requests + 1 } } ∧ t.obj.legs = s.obj.legs ∧ t.obj.ins = s.obj.ins) ∧
    (Admits ruleSlotAssign c s → s.obj.legs.at? i = some l → Yields (.slotAssign c) s fun t => others t ∧ t.obj.ins = s.obj.ins ∧ t.obj.outs = s.obj.outs ∧
      ∃ l', t.obj.legs.at? i = some l' ∧ l'.slots.length = l.slots.length ∧ (∃ f, l'.slots[c.u8 16]? = some f ∧ f.source = c.hdl 20) ∧
        ∀ n, n ≠ c.u8 16 → l'.slots[n]? = l.slots[n]?)

/-! ### Keys and trunks (chapters 2, 5) -/

/-- R123, R124, R128, R132, R138-R141: a load into a slot without a key makes it LOADED with its index at the start; a reload keeps the index and the windows, and keeps the old
key for 2 s of logged time with FALLBACK; an erasure of a slot empties it once its work has drained; the drain's end discards the retiring key. -/
def Obligations.KeySlotsFollowTheirCommands : Prop :=
  ∀ (c : Cmd) (s : State) (k : KeySlot) (slot : Nat),
    let i := keySlot c
    let rest := fun (n : Nat) (t : State) => t.obj.legs = s.obj.legs ∧ t.obj.confs = s.obj.confs ∧ t.obj.tenants = s.obj.tenants ∧ t.ports = s.ports ∧
      ∀ j, j ≠ n → slotAt t j = slotAt s j
    let loaded := fun (x : SessKey) (out rtcp fb : Bool) (w : Nat) (t : State) =>
      (k.state ≠ .loaded → rest i t ∧ slotAt t i = some { k with
        state := .loaded, key := some x, outbound := out, rtcp := rtcp, fallbackFlag := fb, window := w,
        half := false, precedence := false, retiring := none, fallback := none, spent := none, highest := 0, windows := [],
        next := startIndex x rtcp k.ssrc }) ∧
      (k.state = .loaded → busySlot s i = false → rest i t ∧ slotAt t i = some { k with
        key := some x, outbound := out, rtcp := rtcp, fallbackFlag := fb, window := w,
        half := false, precedence := false, retiring := none,
        fallback := if fb then k.key.map fun y => (y, logNs s + 2000000000) else none })
    let idle := s.nose.waiting = [] ∧ s.mon.softPending = none
    (slotAt s i = some k →
      (Admits ruleKeyLoad c s → Yields (.keyLoad c) s
        (loaded (loadedKey c) (bit (c.u8 17) 0) (bit (c.u8 17) 1) (bit (c.u8 17) 2) (c.u16 18))) ∧
      (Admits ruleKeyDerive c s → Yields (.keyDerive c) s
        (loaded (derivedKey c) (bit (c.u8 17) 1) (bit (c.u8 17) 0) (bit (c.u8 17) 5) ([128, 64, 256, 512, 1024].getD (bits (c.u8 17) 2 3) 128))) ∧
      (Admits ruleKeyErase c s → k.state = .empty → Yields (.keyErase c) s fun t => t.obj = s.obj) ∧
      (Admits ruleKeyErase c s → k.state ≠ .empty → busySlot s i = false → Yields (.keyErase c) s fun t => rest i t ∧ ∃ k', slotAt t i = some k' ∧
        k'.state = .erasing ∧ k'.key = none ∧ k'.fallback = k.fallback ∧ k'.retiring = k.key)) ∧
    (Awake s → slotAt s slot = some k →
      (k.state ≠ .erasing → k.retiring ≠ none → idle →
        Yields (.keyDrainEnd slot) s fun t => rest slot t ∧ slotAt t slot = some { k with retiring := none }) ∧
      (k.state = .erasing ∨ k.retiring = none → exec (.keyDrainEnd slot) s = .next s) ∧
      (k.state = .erasing → idle → Yields (.keyEraseComplete slot) s fun t => rest slot t ∧ ∃ k', slotAt t slot = some k' ∧
        k'.state = .empty ∧ k'.key = none ∧ k'.retiring = none ∧ k'.fallback = none ∧ k'.windows = [] ∧ k'.tenant = k.tenant) ∧
      (k.state ≠ .erasing → exec (.keyEraseComplete slot) s = .next s) ∧
      (Yields (.fallbackKeyExpiry slot) s fun t => rest slot t ∧ slotAt t slot = some { k with fallback := none }))

/-- R55, R39, R145, R60, R178: CASCADE_CONFIG sets the device's number and its trunk port; TRUNK_CREATE makes the trunk of its block (log entry 27), TRUNK_MODIFY changes its transport,
peer, slots and phase and nothing else, TRUNK_DESTROY frees it; a keepalive is one more packet of the trunk; a silent trunk goes down once. -/
def Obligations.TrunksFollowTheirBlock : Prop :=
  ∀ (c : Cmd) (s : State) (x : Trunk) (n : Nat),
    let i := hIndex c.object
    let rest := fun (k : Nat) (t : State) => t.obj.legs = s.obj.legs ∧ t.obj.confs = s.obj.confs ∧ t.obj.tenants = s.obj.tenants ∧ t.obj.slots = s.obj.slots ∧
      t.ports = s.ports ∧ ∀ j, j ≠ k → t.obj.trunks.at? j = s.obj.trunks.at? j
    (Admits ruleCascadeConfig c s → Yields (.cascadeConfig c) s fun t => t.obj = s.obj ∧ t.ports = s.ports ∧
      t.media = { s.media with deviceId := BitVec.ofNat 12 (c.u16 16), trunkPort := c.u16 18 }) ∧
    (Admits ruleTrunkCreate c s → ∃ k, s.obj.trunks.next 512 = some k ∧ Yields (.trunkCreate c) s fun t => rest k t ∧
      t.obj.trunks.at? k = some (newTrunk c s)) ∧
    (Admits ruleTrunkModify c s → s.obj.trunks.at? i = some x → Yields (.trunkModify c) s fun t => rest i t ∧ t.obj.trunks.at? i = some { x with
      transport := transportAt c 64, peer := c.u16 112, tx := (trunkSlots c).take 2, rx := (trunkSlots c).drop 2, phase := decide (c.u32 132 = 1) }) ∧
    (Admits ruleTrunkDestroy c s → Yields (.trunkDestroy c) s fun t => t.obj.tenants = s.obj.tenants ∧ t.obj.trunks.at? i = none ∧
      (s.obj.trunks.at? i = some x → ∀ j ∈ x.ins, t.obj.ins.at? j = none)) ∧
    (Awake s → runsTasks s = true → s.obj.trunks.at? n = some x →
      (x.lastSent + 1000000 ≤ logNs s → s.media.inInput = false → Yields (.trunkKeepalive n) s fun t => rest n t ∧
        (∃ x', t.obj.trunks.at? n = some x' ∧ x'.lastSent = logNs s ∧ x'.transport = x.transport ∧ x'.down = x.down) ∧
        ∃ p, t.media.egress = s.media.egress ++ [p] ∧ p.owner = n ∧ p.onTrunk = true ∧ p.port = x.transport.port) ∧
      (logNs s < x.lastSent + 1000000 → exec (.trunkKeepalive n) s = .next s) ∧
      (x.down = false → x.lastAuth + 10000000 ≤ logNs s → Yields (.trunkDown n) s fun t => rest n t ∧ t.obj.trunks.at? n = some { x with down := true } ∧ t.media = s.media) ∧
      (x.down = true ∨ logNs s < x.lastAuth + 10000000 → exec (.trunkDown n) s = .next s))

/-! ### Audio ticks, rankings, playout, tones and the cascade (chapter 10) -/

/-- R286, R277, R278, R285, R301: RANKING_RESORT passes once over the ranking from the last position up at each tick divisible by 100, TALKER_TIMEOUT drops members idle for 1,000 blocks,
PLAYOUT_DEPTH_MOVE moves a silent stream 1 ms toward its target, LOUDNESS_UPDATE moves the gain by at most 0.3 dB, AUDIO_SILENCE_RESET silences a stream after 60 ms without a packet, and
a tone follows its cadence and ends with its duration. -/
def Obligations.AudioTasksActAtTheirTick : Prop :=
  ∀ (s : State) (n conf i : Nat) (k : Conf) (x : InStream) (a : AudioIn) (h : Handle) (tone : Tone) (cad : List Nat × Bool),
    let others := fun (t : State) => t.hst = s.hst ∧ t.ports = s.ports ∧ HbmKept s t ∧ t.tim = s.tim ∧ t.media = s.media ∧ t.obj.outs = s.obj.outs ∧ t.obj.tenants = s.obj.tenants
    let confOnly := fun (t : State) => others t ∧ t.obj.legs = s.obj.legs ∧ t.obj.ins = s.obj.ins ∧ ∀ j, j ≠ conf → t.obj.confs.at? j = s.obj.confs.at? j
    let inOnly := fun (t : State) => others t ∧ t.obj.legs = s.obj.legs ∧ t.obj.confs = s.obj.confs ∧ ∀ j, j ≠ i → t.obj.ins.at? j = s.obj.ins.at? j
    let next := nextBlock s ((confOfIn s x).getD 0)
    Awake s →
    (taskRuns s n = true → s.obj.confs.at? conf = some k →
      (n % 100 = 0 → k.resorted ≠ some n → Yields (.rankingResort conf n) s fun t => confOnly t ∧ ∃ rk, rk = bubble (k.ranking.length - 1) k.ranking ∧
        rk.Perm k.ranking ∧ t.obj.confs.at? conf = some { k with ranking := rk, resorted := some n }) ∧
      (k.resorted = some n → Yields (.rankingResort conf n) s fun t => confOnly t ∧ t.obj.confs.at? conf = some k) ∧
      (n % 100 ≠ 0 → exec (.rankingResort conf n) s = .next s) ∧
      (Yields (.talkerTimeout conf n) s fun t => confOnly t ∧ t.obj.confs.at? conf = some { k with ranking := k.ranking.filter fun r => decide (r.idle < 1000) })) ∧
    (taskRuns s n = false → ∀ c ∈ [Instr.rankingResort conf n, .talkerTimeout conf n, .playoutDepthMove i n, .loudnessUpdate i n, .toneCadenceEdge h n, .toneEnd h n],
      exec c s = .next s) ∧
    (i < 131072 → s.obj.ins.at? i = some x → x.audio = some a →
      (taskRuns s n = true → n % 100 = 0 → a.movedAt ≠ some n → a.started = true → a.active = false → isRanked s ((confOfIn s x).getD 0) i = false → a.depth ≠ a.wantDepth x.decl →
        Yields (.playoutDepthMove i n) s fun t => inOnly t ∧ ∃ b, t.obj.ins.at? i = some { x with audio := some b } ∧
          b.movedAt = some n ∧ b.depth = (if a.depth < a.wantDepth x.decl then a.depth + 1 else a.depth - 1) ∧ b.p0 = a.p0 + (if a.depth < a.wantDepth x.decl then 48 else -48)) ∧
      (a.depth = a.wantDepth x.decl ∨ a.movedAt = some n → exec (.playoutDepthMove i n) s = .next s) ∧
      (taskRuns s n = true → n % 100 = 0 → a.loudAt ≠ some n → x.decl.loud = true → a.active = true → Yields (.loudnessUpdate i n) s fun t => inOnly t ∧
        ∃ g, t.obj.ins.at? i = some { x with audio := some { a with gain := g, loudAt := some n } } ∧ g ≤ a.gain + tenths 3 ∧ a.gain - tenths 3 ≤ g ∧
          g = a.gain + clampI (-tenths 3) (tenths 3) (clampI (-tenths 120) (tenths 120) (x.decl.target - (lg a.shortTerm - 2796191482)) - a.gain)) ∧
      (n % 100 ≠ 0 ∨ a.loudAt = some n ∨ a.active = false → exec (.loudnessUpdate i n) s = .next s) ∧
      (runsTasks s = true → a.started = true → a.silent = false → a.lastPlayed + 60 < next → Yields (.audioSilenceReset i) s fun t => inOnly t ∧
        t.obj.ins.at? i = some { x with audio := some { a with silent := true, dec := 0 } }) ∧
      (next ≤ a.lastPlayed + 60 → exec (.audioSilenceReset i) s = .next s)) ∧
    (taskRuns s n = true → playsTones s h = true → toneOn s h = some tone →
      (tone.start ≤ n → cadenceOf (toneImage s (toneConf s h)) tone.cadence = some cad →
        (∀ on, cadenceAt cad (n - tone.start) = some on → on ≠ tone.on → Yields (.toneCadenceEdge h n) s fun t => others t ∧
          toneOn t h = some { tone with on := on, edge := n }) ∧
        (cadenceAt cad (n - tone.start) = some tone.on → exec (.toneCadenceEdge h n) s = .next s) ∧
        (cadenceAt cad (n - tone.start) = none → Yields (.toneCadenceEdge h n) s fun t => others t ∧ toneOn t h = none)) ∧
      (tone.duration ≠ 0 → tone.start + tone.duration ≤ n → Yields (.toneEnd h n) s fun t => others t ∧ toneOn t h = none) ∧
      (tone.duration = 0 ∨ n < tone.start + tone.duration → exec (.toneEnd h n) s = .next s))

/-- R275, R282, R276, R302, R303, R412: AUDIO_TICK n sets the tick of a device that serves media, and on a WITHDRAWN device only ages draining legs; ticks only rise. HALF_TICK is taken
while a Direct contribution exists. AUDIO_BLOCK processes a block once. TALKER_REPORT and CASCADE_RETURN_MIX send once by the direct trunks, a member without one counts it, and
premixes that did not come are counted. -/
def Obligations.AudioTicksAndTheCascade : Prop :=
  ∀ (s : State) (n m conf : Nat) (k : Conf),
    let members := s.media.members.filter fun x => decide (x.1 = conf)
    let sent := (members.filter fun x => (trunkTo s x.2).isSome).length
    let told := fun (t : State) (k' : Conf) => t.obj.confs.at? conf = some k' ∧ ∀ j, j ≠ conf → t.obj.confs.at? j = s.obj.confs.at? j
    let confKept := fun (t : State) => t.hst = s.hst ∧ t.ports = s.ports ∧ t.obj.legs = s.obj.legs ∧ t.obj.ins = s.obj.ins ∧ t.obj.outs = s.obj.outs ∧ t.tim = s.tim
    Awake s →
    (noseRuns s = true → s.media.tick < n → logBusy s = false →
      (drivesPorts s = true → Yields (.audioTick n) s fun t => t.media.tick = n ∧ (∀ p, portOf t p = { portOf s p with consumed := (portOf t p).consumed }) ∧
        t.obj.tenants = s.obj.tenants ∧ t.tim = s.tim) ∧
      (s.twin.state = .withdrawn → Yields (.audioTick n) s fun t => t.media.tick = n ∧ t.obj.ins = s.obj.ins ∧ t.obj.outs = s.obj.outs ∧
        t.obj.confs = s.obj.confs ∧ t.media.egress = s.media.egress ∧ ∀ j, t.obj.legs.at? j = (s.obj.legs.at? j).map fun l =>
          if l.state = .draining then { l with drainTicks := l.drainTicks + 1 } else l)) ∧
    (n ≤ s.media.tick → exec (.audioTick n) s = .next s) ∧
    (drivesPorts s = true → noseRuns s = true → logBusy s = false →
      (anyDirect s = true → Yields (.halfTick m) s fun t => t.media.half = m ∧ t.media.tick = s.media.tick ∧ t.obj.tenants = s.obj.tenants ∧ t.ports = s.ports) ∧
      (anyDirect s = false → exec (.halfTick m) s = .next s)) ∧
    (taskRuns s n = true → s.obj.confs.at? conf = some k →
      (n < k.block → exec (.audioBlock conf n) s = .next s) ∧
      (k.block ≤ n → Yields (.audioBlock conf n) s fun t => t.ports = s.ports ∧ t.obj.tenants = s.obj.tenants ∧ t.media.tick = s.media.tick ∧
        ∃ k', t.obj.confs.at? conf = some k' ∧ k'.block = n + 1) ∧
      (n % 10 ≠ 0 → exec (.talkerReport conf n) s = .next s) ∧
      (k.reported = some n → exec (.talkerReport conf n) s = .next s) ∧
      (n % 10 = 0 → k.reported ≠ some n → s.media.inInput = false → isHome s k = true → Yields (.talkerReport conf n) s fun t => confKept t ∧ told t { k with reported := some n } ∧
        t.media.egress.length = s.media.egress.length + sent) ∧
      (n % 10 = 0 → k.reported ≠ some n → s.media.inInput = false → isHome s k = false → isMember s k = true →
        (∀ tr, trunkTo s (k.home.getD 0) = some tr → Yields (.talkerReport conf n) s fun t => confKept t ∧ told t { k with reported := some n } ∧
          ∃ p, t.media.egress = s.media.egress ++ [p] ∧ p.owner = tr ∧ p.onTrunk = true) ∧
        (trunkTo s (k.home.getD 0) = none → Yields (.talkerReport conf n) s fun t => confKept t ∧ t.media = s.media ∧
          told t { k with noTrunk := k.noTrunk + 1, reported := some n }))) ∧
    (s.obj.confs.at? conf = some k →
      (isHome s k = false ∨ k.returned = some n ∨ taskRuns s (n + 26) = false → exec (.cascadeReturnMix conf n) s = .next s) ∧
      (taskRuns s (n + 26) = true → isHome s k = true → k.returned ≠ some n → s.media.inInput = false → Yields (.cascadeReturnMix conf n) s fun t => confKept t ∧
        t.media.egress.length = s.media.egress.length + sent ∧ told t { k with lateMix := k.lateMix + missingMixes s conf k n, returned := some n }))

/-! ### Image graphs, mixes and tones (chapters 10, 11); layouts, tile sets and pictures (chapters 7, 8, 9) -/

/-- R295, R296, R297, R287, R300, R301, R283: GRAPH_LOAD keeps the image of its block, GRAPH_SWAP starts the conference's change to it, GRAPH_UNLOAD frees it; MIX_CREATE and MIX_MODIFY
set a leg's mix and MIX_DESTROY frees it; TONE_PLAY starts a tone at the next block and TONE_STOP ends it; ISOLATION_SET turns isolation on or off. -/
def Obligations.SoundCommandsActOnTheirObject : Prop :=
  ∀ (c : Cmd) (s : State) (k : Conf) (m : Mix) (l : Leg) (x : InStream) (a : AudioIn),
    let i := hIndex c.object
    let conf := hIndex (c.hdl 16)
    let same := fun (t : State) => t.obj.tenants = s.obj.tenants ∧ t.obj.outs = s.obj.outs ∧ t.ports = s.ports ∧ HbmKept s t ∧ t.tim = s.tim
    (Admits ruleGraphLoad c s → ∃ n, s.obj.images.next 256 = some n ∧ Yields (.graphLoad c) s fun t => same t ∧ t.obj.confs = s.obj.confs ∧
      t.obj.images.at? n = some (imageAt c (c.ext.getD [])) ∧ ∀ j, j ≠ n → t.obj.images.at? j = s.obj.images.at? j) ∧
    (Admits ruleGraphSwap c s → s.obj.confs.at? conf = some k → Yields (.graphSwap c) s fun t => same t ∧ t.obj.legs = s.obj.legs ∧
      (swapDone s conf c.object = true → t.obj = s.obj) ∧
      (swapDone s conf c.object = false → ∃ k', t.obj.confs.at? conf = some k' ∧ k'.image = c.object ∧ k'.swapping = true ∧ k'.swapAt = none ∧
        k'.fallback = false ∧ k'.legLimit = k.legLimit)) ∧
    (Admits ruleGraphUnload c s → Yields (.graphUnload c) s fun t => same t ∧ t.obj.confs = s.obj.confs ∧ t.obj.images.at? i = none ∧
      ∀ j, j ≠ i → t.obj.images.at? j = s.obj.images.at? j) ∧
    (Admits ruleMixCreate c s → s.obj.legs.at? conf = some l → ∃ n, s.obj.mixes.next 8192 = some n ∧ Yields (.mixCreate c) s fun t => same t ∧
      t.obj.mixes.at? n = some (mixAt c c.fn i) ∧ t.obj.legs.at? conf = some { l with mix := some n }) ∧
    (Admits ruleMixModify c s → s.obj.mixes.at? i = some m → Yields (.mixModify c) s fun t => same t ∧ t.obj.legs = s.obj.legs ∧
      t.obj.mixes.at? i = some (mixAt c m.tenant m.conf) ∧ ∀ j, j ≠ i → t.obj.mixes.at? j = s.obj.mixes.at? j) ∧
    (Admits ruleMixDestroy c s → s.obj.mixes.at? i = some m → s.obj.legs.at? m.leg = some l → l.mix = some i → Yields (.mixDestroy c) s fun t => same t ∧
      t.obj.mixes.at? i = none ∧ t.obj.legs.at? m.leg = some { l with mix := none } ∧ ∀ j, j ≠ i → t.obj.mixes.at? j = s.obj.mixes.at? j) ∧
    (let isNew := fun (t : Tone) => t.table = c.u16 16 ∧ t.cadence = c.u16 18 ∧ t.level = c.u16 20 ∧ t.duration = c.u16 22 ∧ t.start = s.media.tick + 1
     Admits ruleTonePlay c s →
      (hType c.object = tyLeg → s.obj.legs.at? i = some l → Yields (.tonePlay c) s fun t => same t ∧ t.obj.confs = s.obj.confs ∧
        ∃ l' n, t.obj.legs.at? i = some l' ∧ l'.tone = some n ∧ isNew n ∧ l'.ins = l.ins) ∧
      (hType c.object ≠ tyLeg → s.obj.confs.at? i = some k → Yields (.tonePlay c) s fun t => same t ∧ t.obj.legs = s.obj.legs ∧
        ∃ k' n, t.obj.confs.at? i = some k' ∧ k'.tone = some n ∧ isNew n ∧ k'.image = k.image)) ∧
    (Admits ruleToneStop c s →
      (hType c.object = tyLeg → s.obj.legs.at? i = some l → Yields (.toneStop c) s fun t => same t ∧ ∃ l', t.obj.legs.at? i = some l' ∧ l'.tone = none) ∧
      (hType c.object ≠ tyLeg → s.obj.confs.at? i = some k → Yields (.toneStop c) s fun t => same t ∧ ∃ k', t.obj.confs.at? i = some k' ∧ k'.tone = none)) ∧
    (Admits ruleIsolationSet c s → s.obj.ins.at? i = some x → x.audio = some a → Yields (.isolationSet c) s fun t => same t ∧ t.obj.legs = s.obj.legs ∧
      ∃ a', t.obj.ins.at? i = some { x with audio := some a' } ∧ a'.isolated = decide (c.u32 16 = 1) ∧ (a.isolated = a'.isolated → a' = a))

/-- R212, R215, R229, R230, R231, R252, R221: LAYOUT_CREATE, LAYOUT_MODIFY and TILESET_CREATE take their reservations or none; the destroying commands free their object; LAYER_FLIP puts a
pending flip on its layer; FENCE_SIGNAL notes the ID; a flip that missed its limit is discarded and its ID timed out; SCALER_BANK_LOAD sets the bank. -/
def Obligations.LayoutCommandsActOnTheirObject : Prop :=
  ∀ (c : Cmd) (s : State) (l : Layout) (a : Layer) (f : Flip) (lay n : Nat) (k : Conf),
    let i := hIndex c.object
    let same := fun (t : State) => t.obj.tenants = s.obj.tenants ∧ t.obj.legs = s.obj.legs ∧ t.ports = s.ports ∧ HbmKept s t ∧ t.tim = s.tim
    let others := fun (n : Nat) (t : State) => ∀ j, j ≠ n → t.obj.layouts.at? j = s.obj.layouts.at? j
    (Admits ruleLayoutCreate c s → ∃ m u, tryLayout c s = .ok (m, u) ∧ s.obj.layouts.next (tableSize tyLayout) = some m ∧
      Yields (.layoutCreate c) s fun t => t.obj = u.obj ∧ t.video = u.video ∧ t.mem = u.mem) ∧
    (Admits ruleLayoutModify c s → ∃ u, tryRelayout c s = .ok u ∧ Yields (.layoutModify c) s fun t => t.obj = u.obj ∧ t.video = u.video ∧ t.mem = u.mem) ∧
    (Admits ruleTilesetCreate c s → ∃ m u, tryTileset c s = .ok (m, u) ∧ s.obj.tilesets.next (tableSize tyTileset) = some m ∧
      Yields (.tilesetCreate c) s fun t => t.obj = u.obj ∧ t.video = u.video ∧ t.mem = u.mem) ∧
    (Admits ruleLayoutDestroy c s → Yields (.layoutDestroy c) s fun t => same t ∧ t.obj.layouts.at? i = none ∧ others i t) ∧
    (Admits ruleTilesetDestroy c s → Yields (.tilesetDestroy c) s fun t => same t ∧ t.obj.tilesets.at? i = none ∧
      ∀ j, j ≠ i → (t.obj.tilesets.at? j).map (·.members) = (s.obj.tilesets.at? j).map (·.members)) ∧
    (s.obj.layouts.at? i = some l →
      (Admits ruleLayerFlip c s → flipLayer s c.object (c.u16 16) = some a → l.layers[c.u16 16]? = some a → Yields (.layerFlip c) s fun t => same t ∧ others i t ∧
        ∃ l', t.obj.layouts.at? i = some l' ∧ (∀ j, j ≠ c.u16 16 → l'.layers[j]? = l.layers[j]?) ∧ l'.signalled = l.signalled ∧
          l'.layers[c.u16 16]? = some { a with pending := some { fence := c.hdl 20, miss := 0, content := slice (c.data.getD []) 0 a.contentSize } }) ∧
      (Admits ruleFenceSignal c s → Yields (.fenceSignal c) s fun t => same t ∧ others i t ∧ ∃ l', t.obj.layouts.at? i = some l' ∧ l'.layers = l.layers ∧
        c.hdl 16 ∈ l'.signalled ∧ (l.signalled.length ≤ 16 → l'.signalled.length ≤ 16))) ∧
    (Awake s → s.obj.layouts.at? lay = some l → l.layers[n]? = some a → a.pending = some f →
      (l.fenceLimit ≤ f.miss → Yields (.fenceTimeout lay n) s fun t => same t ∧ others lay t ∧ ∃ l', t.obj.layouts.at? lay = some l' ∧
        l'.layers[n]? = some { a with pending := none } ∧ f.fence ∈ l'.timedOut) ∧
      (f.miss < l.fenceLimit → exec (.fenceTimeout lay n) s = .next s)) ∧
    (Admits ruleScalerBankLoad c s → s.obj.confs.at? i = some k → Yields (.scalerBankLoad c) s fun t => same t ∧ t.obj.layouts = s.obj.layouts ∧
      t.obj.confs.at? i = some { k with banks := tput k.banks (c.u8 16) (tapsOf (c.data.getD [])) })

/-- R190, R191, R194-R208, R385: a valid IDR picture is decoded into a free buffer and makes its context CLEAN; a picture beyond the declared limits, without budget, or before a key
picture is discarded; DECODE_PICTURE completes: an engine takes the source's ready decode task, and its release makes the buffer's picture there for who waits; an abandoned picture
gives way to the next; missing packets are asked for again; a key request is repeated after 1 s of logged time and not before. -/
def Obligations.SourcesAreDecodedAndAskedAgain : Prop :=
  ∀ (s : State) (i n ts : Nat) (x : InStream) (d : DecCtx) (e e' : Encoding), Awake s → s.obj.ins.at? i = some x →
    let same := fun (t : State) => t.obj.tenants = s.obj.tenants ∧ t.obj.confs = s.obj.confs ∧ t.obj.layouts = s.obj.layouts ∧ t.ports = s.ports ∧
      (∀ j, j ≠ i → t.obj.ins.at? j = s.obj.ins.at? j) ∧ ∃ y, t.obj.ins.at? i = some y ∧ y.decl = x.decl ∧ y.owner = x.owner
    let dec := fun (t : State) => (t.obj.ins.at? i).bind (·.dec)
    (∀ (r : WholePic) (data : List Byte) (p : PicInfo) (l : PicLayer), x.dec = some d → d.state ≠ .idle → x.decl.form ≠ 1 →
      let m := noteFor x d r p
      let full := d.refill r.arrival
      let cost := picCharge x.decl m p
      let u := decodeOne i r data p s
      (p.valid = true → overLimit x.decl m p = true → m = d.note → same u ∧ ∃ d', dec u = some d' ∧ d'.state = .overLimit ∧ d'.bufs = d.bufs ∧
        d'.newest = d.newest) ∧
      (overLimit x.decl m p = false → d.state = .waitKey → isKey p = false → same u ∧ dec u = some d) ∧
      (overLimit x.decl m p = false → isKey p = true → full.bucket < cost → same u ∧ ∃ d', dec u = some d' ∧ d'.state = d.state ∧ d'.bufs = d.bufs ∧
        d'.bucket = full.bucket) ∧
      (overLimit x.decl m p = false → p.kind = .idr → p.valid = true → cost ≤ full.bucket → outLayer x.decl m p = some l → (∃ b ∈ d.bufs, b.st = .unused) →
        same u ∧ ∃ d', dec u = some d' ∧ d'.state = .clean ∧ d'.note = m ∧ d'.bucket = full.bucket - cost ∧ d'.bufs.length = d.bufs.length ∧
          d'.newest = Config.decodeToken (x.decl.blk 0 1) data [] d.newest ∧
          ∃ b ∈ d'.bufs, b.order = p.order ∧ b.clean = true ∧ b.concealed = false ∧ b.token = d'.newest ∧ b.pic = picOf b.token l p ∧
            b.eligible = r.ready + x.decl.blk 10 2 * 1000000)) ∧
    (∀ f slot t j, Workable s (objRef 4 i) (fun q => decide (q.tick = ts)) f slot t → t.job = some j → j.work = .decode i →
      Yields (.decodePicture i ts) s fun u => same u ∧ TaskGone slot t.num s u ∧ dec u = x.dec.map fun d =>
        { d with bufs := d.bufs.map fun b => if b.task = some t.num then { b with task := none } else b }) ∧
    (flowFor s (objRef 4 i) = none → exec (.decodePicture i ts) s = .next s) ∧
    (taskRuns s n = false → ∀ c ∈ [Instr.pictureAbandon i n, .nackRepeat i n, .keyRequestRepeat i n], exec c s = .next s) ∧
    (taskRuns s n = true → x.encs = [e] → isDecoded 0 x = true → e.popPicture = none → e.owed = false →
      (e.abandon (x.decl.blk 12 2) (n * 1000000) = some e' → e'.popPicture = none → Yields (.pictureAbandon i n) s fun t => same t ∧ encOf t i 0 = some e' ∧
        dec t = x.dec.map fun d => { d with gap := true }) ∧
      (e.abandon (x.decl.blk 12 2) (n * 1000000) = none → exec (.pictureAbandon i n) s = .next s)) ∧
    (let due := fun (q : Nacked) => decide (0 < q.times) && decide (q.times < 3) && decide (q.tick + 20 ≤ n)
     taskRuns s n = true → x.encs = [e] →
      (e.nacks.any due = true → bit (x.decl.blk 3 1) 0 = true → Yields (.nackRepeat i n) s fun t => same t ∧
        encOf t i 0 = some { e with nacks := e.nacks.map fun q => if due q then { q with tick := n, times := q.times + 1 } else q }) ∧
      (e.nacks.any due = false → exec (.nackRepeat i n) s = .next s)) ∧
    (∀ k at_, taskRuns s n = true → wantsKey s i = some k → x.encs[k]? = some e → e.askedAt = some at_ →
      (logNs s < at_ + 1000000000 → exec (.keyRequestRepeat i n) s = .next s) ∧
      (at_ + 1000000000 ≤ logNs s → Yields (.keyRequestRepeat i n) s fun t => same t ∧ ∃ y, encOf t i k = some y ∧ y.askedAt = some (logNs s) ∧ y.owed = false ∧
        y.held = e.held ∧ y.nacks = e.nacks))

/-- R211, R228, R230, R242, R243, R253, R258, R262, R385: a picture tick fixes the picture of every layout in use, the scaling of every tile in use and the coded picture of every context,
once, and admits their tasks; LAYOUT_PICTURE, TILE_SCALING, ENCODE_PICTURE and STITCH_PICTURE complete: an engine takes the object's ready task of the tick, and its release is counted and
lets its packets leave; a bridged leg rejoins at a refresh boundary; PICTURE_TICK completes on a device that drives its ports, for a clock in use. -/
def Obligations.PicturesAreMadeAtTheirTick : Prop :=
  ∀ (s : State) (i j k rate : Nat) (l : Layout) (ts : TileSet) (m : Member) (x : EncCtx) (o : OutStream) (c : Comp), Awake s →
    let same := fun (t : State) => t.obj.tenants = s.obj.tenants ∧ t.obj.confs = s.obj.confs ∧ t.ports = s.ports ∧ HbmKept s t ∧ t.tim = s.tim
    let kept := fun (t : State) => t.obj = s.obj ∧ t.ports = s.ports ∧ HbmKept s t ∧ t.tim = s.tim
    let counted := fun (n : Nat) (t : State) => counterOf t n = counterOf s n + 1
    (s.obj.layouts.at? i = some l →
      (inUse s i = false ∨ composes s l.conf = false → layoutPic i k s = s) ∧
      (inUse s i = true → composes s l.conf = true → same (layoutPic i k s) ∧ ∃ l', (layoutPic i k s).obj.layouts.at? i = some l' ∧ l'.layers = l.layers ∧
        l'.changed = false ∧ l'.output = some (k, composePic s l (if l.excl then some (hIndex l.exclLeg) else none) (pictureTime l.rate k), s.orgue.born + 1))) ∧
    (∀ f slot t q own b, Workable s (objRef 6 i) (fun q => decide (q.tick = k)) f slot t → t.job = some q → q.work = .layout i own b →
      Yields (.layoutPicture i k) s fun u => kept u ∧ TaskGone slot t.num s u ∧ counted (vidCtr t.cluster 0x120) u) ∧
    (flowFor s (objRef 6 i) = none → exec (.layoutPicture i k) s = .next s) ∧
    (s.obj.tilesets.at? i = some ts → ts.members[j]? = some m →
      (m.ctx = none → scaleTile i j k s = s) ∧
      (m.ctx ≠ none → composes s ts.conf = true → same (scaleTile i j k s) ∧ ∃ ts' m' p, (scaleTile i j k s).obj.tilesets.at? i = some ts' ∧
        ts'.members[j]? = some m' ∧ m'.scaled = some (k, p, s.orgue.born + 1) ∧ m'.source = m.source ∧ m'.holder = memberHolder s ts.conf m ∧
        ∀ n, n ≠ j → ts'.members[n]? = ts.members[n]?)) ∧
    (∀ f slot t q, Workable s (objRef 8 i) (fun q => decide (q.work = .scale i j) && decide (q.tick = k)) f slot t → t.job = some q →
      Yields (.tileScaling i j k) s fun u => kept u ∧ TaskGone slot t.num s u ∧ counted (vidCtr t.cluster 0x124) u) ∧
    (flowFor s (objRef 8 i) = none → exec (.tileScaling i j k) s = .next s) ∧
    (s.obj.encs.at? i = some x →
      (x.lastPic = some k → encodePic i k s = s) ∧
      (∀ n q p w, x.lastPic ≠ some k → x.kind = .tile n q → s.obj.tilesets.at? n = some ts → ts.members[q]? = some m → m.scaled = some (k, p, w) →
        let u := encodePic i k s
        same u ∧ (∃ x', u.obj.encs.at? i = some x' ∧ x'.lastPic = some k ∧ x'.kind = x.kind ∧ x'.lastKey = x.lastKey ∧
          ∃ ts' m' bytes, u.obj.tilesets.at? n = some ts' ∧ ts'.members[q]? = some m' ∧ m'.intra = false ∧ m'.slice = some (k, bytes, s.orgue.born + 1)) ∧
          ∀ e, e ≠ i → u.obj.encs.at? e = s.obj.encs.at? e)) ∧
    (∀ f slot t q e y g h, Workable s (objRef tyEnc i) (fun q => decide (q.tick = k)) f slot t → t.job = some q → q.work = .encode e y g h →
      Yields (.encodePicture i k) s fun u => kept u ∧ TaskGone slot t.num s u ∧ counted (vidCtr t.cluster 0x220) u) ∧
    (flowFor s (objRef tyEnc i) = none → exec (.encodePicture i k) s = .next s) ∧
    (compOf s i = some (o, c, l) → c.path ≠ .bridged → exec (.bridgeRejoin i k) s = .next s) ∧
    (compOf s i = some (o, c, l) → c.path = .bridged → c.bridge = none → c.priv = some j → s.obj.encs.at? j = some x → atBoundary s o l x k = true →
      Yields (.bridgeRejoin i k) s fun t => (c.requests = 0 → same t) ∧ ∃ o' c', t.obj.outs.at? i = some o' ∧ o'.comp = some c' ∧ c'.path = .stitched ∧ c'.paramsOwed = true ∧
        c'.stitcher = c.stitcher ∧ c'.tiles = tileAssign (dropPriv i s) l.conf o.leg o.decl l) ∧
    (compOf s i = some (o, c, l) → c.path ≠ .stitched → stitchPic i k s = s) ∧
    (∀ ss n, compOf s i = some (o, c, l) → c.stitcher = some n → c.path = .stitched → layerOf (o.decl.blk 2 1) k ≤ c.ceiling → composes s l.conf = true →
      stitchSlices s (o.decl.blk 0 1) k c ((decide (clockPeriod s o l ≠ 0) && decide (k % clockPeriod s o l = 0)) || c.paramsOwed) 0 c.tiles = some ss →
      same (stitchPic i k s) ∧ ∃ o' c', (stitchPic i k s).obj.outs.at? i = some o' ∧ o'.comp = some c' ∧ c'.paramsOwed = false ∧ c'.path = .stitched ∧
        c'.fills = fillsOf s c ∧ c'.tiles = c.tiles) ∧
    (∀ f slot t q, s.obj.outs.at? i = some o → Workable s (objRef 3 o.leg) (fun q => decide (q.work = .stitch i) && decide (q.tick = k)) f slot t →
      t.job = some q → Yields (.stitchPicture i k) s fun u => kept u ∧ TaskGone slot t.num s u ∧ counted (vidCtr t.cluster 0x320) u) ∧
    (s.obj.outs.at? i = none → exec (.stitchPicture i k) s = .next s) ∧
    (drivesPorts s = true → logBusy s = false → 1 ≤ rate → rate ≤ 60 → clockUsed s rate = true →
      Yields (.pictureTick rate k) s fun t => tget t.media.pics rate = some k ∧ (∀ r, r ≠ rate → tget t.media.pics r = tget s.media.pics r) ∧
        t.obj.tenants = s.obj.tenants ∧ t.ports = s.ports) ∧
    ((drivesPorts s = false ∨ logBusy s = true ∨ rate = 0 ∨ 60 < rate ∨ clockUsed s rate = false) → exec (.pictureTick rate k) s = .next s)

/-! ### Sillage (chapter 6) -/

/-- R147, R152, R170, R171, R153, R169, R151: POLICER_SET sets a leg's or tenant's meter and clips its buckets; SHAPER_SET sets rate and burst and caps the credit that the shaper has by then; ESTIMATOR_SET sets bounds, start and
flags; SCHED_WEIGHT_SET and DSCP_MAP_SET set the weight and the colours. Nothing else of the object changes. -/
def Obligations.SillageSettingsAreSet : Prop :=
  ∀ (c : Cmd) (s : State) (l : Leg) (x : Trunk) (n : Tenant),
    let i := hIndex c.object
    let same := fun (t : State) => t.obj.confs = s.obj.confs ∧ t.obj.ins = s.obj.ins ∧ t.obj.outs = s.obj.outs ∧ t.ports = s.ports ∧ t.tim = s.tim
    let isLeg := fun (l' : Leg) (t : State) => same t ∧ t.obj.tenants = s.obj.tenants ∧ t.obj.trunks = s.obj.trunks ∧ t.obj.legs.at? i = some l' ∧
      ∀ j, j ≠ i → t.obj.legs.at? j = s.obj.legs.at? j
    let isTenant := fun (n' : Tenant) (t : State) => same t ∧ t.obj.legs = s.obj.legs ∧ t.obj.trunks = s.obj.trunks ∧ t.obj.tenants.at? i = some n' ∧
      ∀ j, j ≠ i → t.obj.tenants.at? j = s.obj.tenants.at? j
    let isMeter := fun (m : Meter) => (m.tr = true ↔ c.u8 16 = 1) ∧ (m.aware = true ↔ c.u8 17 = 1) ∧ m.cir = c.u32 20 ∧ m.cbs = c.u32 24 ∧ m.pir = c.u32 28 ∧
      m.pbs = c.u32 32
    (s.obj.legs.at? i = some l → hType c.object = tyLeg →
      (Admits rulePolicerSet c s → Yields (.policerSet c) s fun t => ∃ m, isLeg { l with meter := m } t ∧ isMeter m ∧ m.last = l.meter.last ∧
        m.tc = min l.meter.tc (c.u32 24 * 8000000) ∧ m.tx = min l.meter.tx (c.u32 32 * 8000000)) ∧
      (∀ h, shaperNow s false i = some h → Admits ruleShaperSet c s → Yields (.shaperSet c) s (isLeg { l with shaper := { h with
        rate := some (c.u32 16), burst := c.u32 20, credit := min h.credit ((c.u32 20 * 8000000 : Nat) : Int) } })) ∧
      (Admits ruleEstimatorSet c s → Yields (.estimatorSet c) s (isLeg { l with est := { l.est with
        minimum := c.u32 16, maximum := some (c.u32 20), start := c.u32 24, flags := BitVec.ofNat 4 (c.u32 28) } })) ∧
      (Admits ruleSchedWeightSet c s → Yields (.schedWeightSet c) s (isLeg { l with weight := c.u16 16 }))) ∧
    (s.obj.trunks.at? i = some x → hType c.object = tyTrunk → Admits ruleSchedWeightSet c s → Yields (.schedWeightSet c) s fun t => same t ∧
      t.obj.legs = s.obj.legs ∧ t.obj.tenants = s.obj.tenants ∧ t.obj.trunks.at? i = some { x with weight := c.u16 16 }) ∧
    (s.obj.tenants.at? i = some n → hType c.object = tyTenant →
      (Admits rulePolicerSet c s → Yields (.policerSet c) s fun t => ∃ m, isTenant { n with meter := some m } t ∧ isMeter m) ∧
      (Admits ruleSchedWeightSet c s → Yields (.schedWeightSet c) s (isTenant { n with weight := c.u16 16 })) ∧
      (Admits ruleDscpMapSet c s → Yields (.dscpMapSet c) s fun t => ∃ map, isTenant { n with dscp := map } t ∧ ∀ d, d < 64 → tgetD map d 0 = c.u8 (64 + d)))

/-- R172-R176: GATE_SET leaves the running schedule and sets one that starts at least 100 µs later; the switch replaces it; at an instant the gates are those of the schedule; an audio
packet that waited more than 10 ms only for its gate is freed of it. -/
def Obligations.GatesFollowTheirSchedule : Prop :=
  ∀ (c : Cmd) (s : State) (p : PortNo) (g : GatePlan) (leg : Nat) (q : EgPkt),
    let others := fun (k : Nat) (t : State) => t.obj = s.obj ∧ t.tim = s.tim ∧ ∀ j, j ≠ k → portOf t j = portOf s j
    let n := c.u8 16
    (Admits ruleGateSet c s → Yields (.gateSet c) s fun t => others n t ∧ ∃ h, portOf t n = { portOf s n with gateNext := some h } ∧
      nowNs s + 100000 ≤ h.start ∧ (h.mode = true ↔ c.u8 17 = 1) ∧ (h.fixed = true ↔ c.u8 18 = 1) ∧ (c.u16 36 = 0 → h.entries = []) ∧
      (c.u16 36 ≠ 0 → h.base = c.u64 24 ∧ h.period = c.u32 32 ∧ h.entries = gateEntries (c.data.getD []) ∧ h.base ≤ h.start ∧ (h.start - h.base) % h.period = 0)) ∧
    (Awake s →
      ((portOf s p).gateNext = none → exec (.gateScheduleSwitch p) s = .next s) ∧
      ((portOf s p).gateNext = some g → Yields (.gateScheduleSwitch p) s fun t => others p t ∧
        portOf t p = { portOf s p with gatePlan := some g, gateNext := none, gates := g.openAt g.start }) ∧
      (Yields (.gateInstant p) s fun t => others p t ∧ portOf t p = { portOf s p with gates := (portOf s p).gatesAt (nowNs s) }) ∧
      ((s.media.egress.find? fun p => !p.onTrunk && decide (p.owner = leg) && decide (p.cls = .audio) && !p.overGate) = some q →
        (q.born + 10000000 < nowNs s → gateAdmits s q = false → eligible s { q with overGate := true } = true → drivesPorts s = true →
          Yields (.audioGateOverride leg) s fun t => others q.port t ∧
            t.media = { s.media with egress := s.media.egress.map fun x => if x.same q then { x with overGate := true } else x }) ∧
        (nowNs s ≤ q.born + 10000000 → exec (.audioGateOverride leg) s = .next s)))

/-- R166, R167, R106, R433, R155, R157, R165: a pick moves one packet from Sillage to Attar and charges its shaper, or discards one that is longer than MAC_MAXLEN; a follower takes its packets in
admission order; a decision sets the target within its bounds and the shaper's rate, with its retransmission allowance; a feedback timeout halves the target. -/
def Obligations.SchedulerAndEstimatorDecide : Prop :=
  ∀ (s : State) (p : PortNo) (q : EgPkt) (x : Port) (h : Handle) (n i : Nat) (rate : Option Nat) (trunk : Bool) (e : Estimator), Awake s →
    let u := noteBacklog p (countHolds p s)
    let out := fun (q : EgPkt) (t : State) => t.media.outQ = s.media.outQ ++ [q]
    (drivesPorts s = true →
      (choose u p = some (q, x) → q.frameLen (takeEgress q u) ≤ x.maxLen → Yields (.egressSchedule p) s fun t => out q t ∧
        t.media.egress = u.media.egress.filter (fun y => !y.same q) ∧ t.obj.confs = s.obj.confs ∧ t.obj.slots = s.obj.slots ∧ portOf t p = x) ∧
      (choose u p = some (q, x) → x.maxLen < q.frameLen (takeEgress q u) → Yields (.egressSchedule p) s fun t => t.media.outQ = s.media.outQ ∧
        t.media.egress = u.media.egress.filter (fun y => !y.same q) ∧ counterOf t (portCtr p 0x22C) = counterOf u (portCtr p 0x22C) + 1) ∧
      (choose u p = none → Yields (.egressSchedule p) s fun t => t.media = u.media ∧ t.obj = s.obj)) ∧
    (followsLog s = true → (s.media.egress.find? fun y => decide (y.port.val = p.val) && y.wait.isNone) = some q → q.frameLen (takeEgress q s) ≤ (portOf s p).maxLen →
      Yields (.egressSchedule p) s fun t => out q t ∧ t.obj = s.obj ∧ t.ports = s.ports) ∧
    (let made := fun (v : Nat) (t : State) => t.obj.tenants = s.obj.tenants ∧ t.obj.confs = s.obj.confs ∧ t.obj.slots = s.obj.slots ∧
       ∃ e', estOf t trunk i = some e' ∧ e'.target = v ∧ e'.allowance = v * 25 / 16 ∧ e'.minimum = e.minimum ∧ e'.maximum = e.maximum
     let line := ownerLine s trunk i
     let top := e.maximum.getD line
     decides s h n = some (trunk, i, e, rate) → e.minimum ≤ top →
      ((e.flags.getLsbD 3 = true ∨ n < e.feedbackAt + 500) →
        Yields (.estimatorDecision h n) s (made (min (max e.minimum (min top (e.row n))) (rate.getD line)))) ∧
      (e.flags.getLsbD 3 = false → e.feedbackAt + 500 ≤ n → (∀ a, e.halvedAt = some a → a + 500 ≤ n) →
        let half := made (min (max e.minimum (min top (e.target / 2))) (rate.getD line))
        Yields (.estimatorDecision h n) s half ∧ Yields (.feedbackTimeoutHalving h n) s half) ∧
      ((e.flags.getLsbD 3 = true ∨ n < e.feedbackAt + 500) → exec (.feedbackTimeoutHalving h n) s = .next s)) ∧
    (decides s h n = none → exec (.estimatorDecision h n) s = .next s ∧ exec (.feedbackTimeoutHalving h n) s = .next s)

/-! ### Packets through the device (chapters 4, 5) -/

/-- R99, R343, R43, R44, R100: the parser takes the oldest frame of a port, on a logging device only once it is logged; a datagram without a transport is counted and dropped, SRTP of a leg's
stream goes to Attar with its arrival time, and what is no datagram is an exception frame. -/
def Obligations.FramesAreParsed : Prop :=
  ∀ (s : State) (p : PortNo) (r : RxFrame) (rest : List RxFrame) (d : Datagram) (i j : Nat) (l : Leg) (u : State), Awake s → (portOf s p).rx = r :: rest →
    s.nose.waiting = [] → s.mon.softPending = none → s.media.inInput = false → s.media.trunkQ = [] → r.port = p →
    let s1 := setTwin (fun t => { t with parseOrder := t.parseOrder.drop 1 }) (modPort p (fun x => { x with rx := rest })
      { s with media := { s.media with logNow := r.ns, inInput := true } })
    let here := { s.media with logNow := r.ns }
    let ssrc := BitVec.ofNat 32 (beAt d.payload 8 4)
    (s.twin.logging = true → r.logged = false → exec (.parseFrame p) s = .next s) ∧
    (s.twin.logging = false → followsLog s = false → s.twin.state ≠ .faultStop → ptpTaken s.tim r.body = none → isPtp r.body = false →
      (datagramOf r.body = some d → classifyTo s1 d = none → unmatchedStun s1 d = none → Yields (.parseFrame p) s fun t => t.obj = s.obj ∧ t.media = here ∧
        portOf t p = (if r.err then { portOf s p with rx := rest, errored := (portOf s p).errored + 1 }
          else { portOf s p with rx := rest, noMatch := (portOf s p).noMatch + 1 })) ∧
      (datagramOf r.body = some d → classifyTo s1 d = some (false, i) → s.twin.state ≠ .withdrawn → r.err = false → police false i d.dscp r.ns r.wire s1 = (true, u) →
        u.obj.legs.at? i = some l → l.state = .active → 128 ≤ beAt d.payload 0 1 → beAt d.payload 0 1 ≤ 191 → d.payload ≠ [] →
        (beAt d.payload 1 1 < 192 ∨ 223 < beAt d.payload 1 1) → streamOfSsrc u l.ins ssrc = some j →
        Yields (.parseFrame p) s fun t => (portOf t p).rx = rest ∧ t.obj = u.obj ∧ ∃ q, t.media.inQ = s.media.inQ ++ [q] ∧ q.kind = .srtp ∧ q.owner = i ∧ q.ssrc = ssrc ∧
          q.stream = some j ∧ q.payload = d.payload ∧ q.arrival = r.ns ∧ q.held = false ∧ q.bufs = r.bufs) ∧
      (datagramOf r.body = none → ((tenantOf s 0).map (·.excRing)).getD 0 = 0 → Yields (.parseFrame p) s fun t => t.obj = s.obj ∧ t.media = here ∧
        (portOf t p).rx = rest ∧ counterOf t (portCtr p 0x170) = counterOf s (portCtr p 0x170) + 1))

/-- R133, R134, R127, R136, R379, R13, R76, R77, R89: Attar takes the oldest ingress packet in its tasks, at the logged time of its arrival, and a packet that it refuses reaches no
consumer; it takes the oldest scheduled packet, and one that it seals goes to its port behind its header; while a task finds no slot or pipeline the packet waits; an injection entry is
fetched in its turn, refused with its status or admitted, and a failed read puts the ring into ERROR. -/
def Obligations.AttarAndInjectionMovePackets : Prop :=
  ∀ (s : State) (q : InPkt) (ins : List InPkt) (e : EgPkt) (outs : List EgPkt) (u : State) (plain : List Byte) (tr : Transport) (f n : Nat) (r : Ring), Awake s →
    s.media.inInput = false → s.media.trunkQ = [] →
    let through := fun (ts : List TaskReq) (s : State) => ts.foldl (fun s t => throughOrgue t s) s
    (s.media.inQ = q :: ins → s.nose.waiting = [] → s.mon.softPending = none →
      let audio := ((q.stream.bind s.obj.ins.at?).map fun x => decide (x.decl.kind = 0)).getD false
      let tasks := attarTasks s q.slot (q.kind == .trunk) q.owner audio (openPkt q s).1.isNone
      let begun := fun (s : State) => { s with media := { s.media with inQ := ins, logNow := q.arrival, inInput := true } }
      let ended := fun (s : State) => flushTrunks { s with media := { s.media with inInput := false } }
      ((openPkt q s).1 = none → tasks.all (mayPass s) = true → openPkt q (begun (through tasks s)) = (none, u) → Yields .attarIngress s fun t =>
        t.obj = u.obj ∧ t.media.inQ = ins ∧ t.media.egress = (through tasks s).media.egress ∧ t.media.logNow = s.media.logNow ∧ t.ports = s.ports ∧
        t.obj.ins = s.obj.ins) ∧
      (∀ b v, (openPkt q s).1 = some plain → requestBuffer 8 (max plain.length 1) s = (some b, v) → tasks.all (mayPass v) = true →
        openPkt q (begun (through tasks v)) = (some plain, u) →
        (Yields .attarIngress s fun t => t.obj = (ended (consumeIn q plain u)).obj ∧
          t.media = { (ended (consumeIn q plain u)).media with logNow := s.media.logNow }) ∧
        (q.held = true → q.kind = .srtp → Yields .attarIngress s fun t => t.obj = u.obj ∧ t.media.inQ = ins ∧ t.ports = s.ports)) ∧
      ((openPkt q s).1 = none → tasks.all (mayPass s) = false → Yields .attarIngress s fun t => t.obj = s.obj ∧ t.media = s.media ∧ t.mem = s.mem) ∧
      (∀ v, (openPkt q s).1 = some plain → requestBuffer 8 (max plain.length 1) s = (none, v) → Yields .attarIngress s fun t => t.obj = s.obj ∧
        t.media = s.media)) ∧
    (s.media.outQ = e :: outs →
      let tasks := attarTasks s (hIndex e.slot) e.onTrunk e.owner (e.cls == .audio) (sealNow e s).1.isNone
      let begun := fun (s : State) => { s with media := { s.media with outQ := outs } }
      tasks.all (mayPass s) = true →
      (sealNow e (begun (through tasks s)) = (some plain, u) → transportOf u e.onTrunk e.owner = some tr → followsLog u = false →
        Yields .attarEgress s fun t => t.obj = u.obj ∧ (portOf t e.port).tx = (portOf u e.port).tx ++ [frameOf u e tr plain] ∧ t.media.outQ = u.media.outQ ∧
          ∃ head, (frameOf u e tr plain).bytes = head ++ plain) ∧
      (sealNow e (begun (through tasks s)) = (none, u) → Yields .attarEgress s fun t => t.obj = u.obj ∧ (portOf t e.port).tx = (portOf u e.port).tx ∧
        e.number ≤ tgetD (portOf t e.port).consumed e.streamId 0)) ∧
    (noseRuns s = true → drivesPorts s = true → logBusy s = false → injectTurn s = some (f, n) → ringOf s f n = some r →
      let entry := hostRead (r.entryAddr r.cons) 32 s
      (Yields (.injectionFetch .readFails) s fun t => t.obj = s.obj ∧ t.media = s.media ∧ ∃ r', ringOf t f n = some r' ∧ r'.state = .error ∧ r'.cause = 3 ∧
        r'.cons = r.cons) ∧
      (∀ st, injectFault s f entry = some st → Yields (.injectionFetch .ok) s fun t => t.obj = s.obj ∧ t.media = s.media ∧
        ∃ r', ringOf t f n = some r' ∧ r'.cons = r.cons + 1 ∧ r'.skipped = r.skipped + 1) ∧
      (∀ i l, injectFault s f entry = none → injKind entry = 3 → liveIndex s tyLeg (injObj entry) = some i → s.obj.legs.at? i = some l → l.state = .active →
        Yields (.injectionFetch .ok) s fun t => (∃ r', ringOf t f n = some r' ∧ r'.cons = r.cons + 1 ∧ r'.skipped = r.skipped) ∧
          ∃ y, t.media.egress = s.media.egress ++ [y] ∧ y.owner = i ∧ y.raw = true ∧ y.plain = hostRead (leAt entry 0 8) (injLen entry) s ∧
            y.notBefore = leAt entry 16 8 ∧ y.port = l.transport.port))

/-! ### Ethernet ports (chapter 4) -/

/-- R93, R94, R115, R95, R17: PORT_CONFIG sets the port's policy, maximum length and transmit start, and the mode of its physical port, whose links then go down;
PORT_LOOPBACK sets the loopback; a lane map is written unless the operator lock is set; a link comes up once it may and goes down with its reference clock. -/
def Obligations.PortsConfigureAndLink : Prop :=
  ∀ (s : State) (c : Cmd) (p : PortNo) (n : Fin 4) (w : Word),
    let q := c.u8 16
    let rest := fun (t : State) => t.obj = s.obj ∧ t.tim = s.tim ∧ t.hbm = s.hbm ∧ t.mem = s.mem
    let others := fun (k : Nat) (t : State) => ∀ j, j ≠ k → portOf t j = portOf s j
    (Admits rulePortConfig c s → Yields (.portConfig c) s fun t => t.tim = s.tim ∧ t.hbm = s.hbm ∧ t.mem = s.mem ∧ t.obj.confs = s.obj.confs ∧
      t.obj.ins = s.obj.ins ∧ t.obj.outs = s.obj.outs ∧ t.obj.tenants = s.obj.tenants ∧ (physOf t (q / 2)).mode = c.u8 17 ∧
      (portOf t q).maxLen = c.u16 20 ∧ (portOf t q).txStart = (c.u16 22 + 255) / 256 * 256 ∧ ((portOf t q).pln7200 = true ↔ c.u8 18 = 1) ∧
      (changesMode c s = true → (portOf t q).link = false ∧ (portOf t (q + 1)).link = false) ∧
      (changesMode c s = false → t.obj = s.obj ∧ t.phys = s.phys ∧ others q t ∧ (portOf t q).link = (portOf s q).link)) ∧
    (Admits rulePortLoopback c s → Yields (.portLoopback c) s fun t => rest t ∧ t.phys = s.phys ∧ others q t ∧
      portOf t q = { portOf s q with loopback := c.u8 17 }) ∧
    (Awake s → s.mon.opLock = true → exec (.macLaneMapWrite n w) s = .next s) ∧
    (Awake s → s.mon.opLock = false → Yields (.macLaneMapWrite n w) s fun t => rest t ∧ (physOf t n).laneMap = w &&& 0x00FFFFFF ∧
      ((physOf t n).mapErr = false ↔ isPerm (w.toNat % 256) = true ∧ isPerm (w.toNat / 256 % 256) = true) ∧
      (portOf t (2 * n)).link = false ∧ (portOf t (2 * n + 1)).link = false) ∧
    (Awake s → portExists s p = true → portMode s p ≠ 0 → (physOf s (p / 2)).mapErr = false → (portOf s p).link = false →
      Yields (.linkUp p) s fun t => rest t ∧ t.phys = s.phys ∧ others p t ∧
        portOf t p = { portOf s p with link := true, fecLock := true, alignLock := true }) ∧
    (Awake s → Yields (.linkDown p) s fun t => rest t ∧ t.phys = s.phys ∧ others p t ∧
      portOf t p = { portOf s p with link := false, fecLock := false, alignLock := false }) ∧
    (Awake s → Yields .ethRefclkLoss s fun t => rest t ∧ t.phys = s.phys ∧ t.mon.ethRefclk = false ∧ ∀ j : PortNo, (portOf t j).link = false)

/-- R98, R101, R103, Table 04-4, R110: a frame that passes every check enters the receive path whole, with the time of its SFD less the ingress latency; one that fails
a check is counted by the first check it fails and leaves no frame; MAC loopback cuts the line off and line loopback sends the frame back (R115); the end of a pause releases what it held. -/
def Obligations.FramesAreReceivedOrCounted : Prop :=
  ∀ (s : State) (p : PortNo) (f : WireFrame) (w : Written) (prio : Fin 8), Awake s →
    let x := portOf s p
    let n := f.bytes.length
    let written := (writeFrame p n (countFec p f s)).1
    let r : RxFrame := { port := p, bytes := f.bytes, wire := n, stamp := wrapInt 80 ((nowStamp s : Int) - x.tsIngress.toNat), err := false,
                         logged := false, charged := w.charged, bufs := w.bufs }
    let fcsOk := crc32 (f.bytes.take (n - 4)) = leAt f.bytes (n - 4) 4
    let counted := fun (off : Nat) (t : State) => t.ports = s.ports ∧ t.obj = s.obj ∧ counterOf t (portCtr p off) = counterOf s (portCtr p off) + 1
    (portExists s p = true → portMode s p ≠ 0 → x.loopback = 0 →
      (f.symbolError = true → Yields (.frameReceive p f) s (counted 0x15C)) ∧
      (f.symbolError = false →
        (n < 64 → Yields (.frameReceive p f) s (counted 0x150)) ∧ (9600 < n → Yields (.frameReceive p f) s (counted 0x158)) ∧
        (64 ≤ n → n ≤ 9600 → x.maxLen < n → Yields (.frameReceive p f) s (counted 0x154)) ∧
        (64 ≤ n → n ≤ 9600 → n ≤ x.maxLen → written = some w → n ≤ w.kept →
          (¬ fcsOk → Yields (.frameReceive p f) s (counted 0x14C)) ∧
          (fcsOk → beAt f.bytes 12 2 ≠ 0x8808 → (addressOk x f.bytes = false ∨ tagOk f.bytes = false) → Yields (.frameReceive p f) s (counted 0x168)) ∧
          (fcsOk → beAt f.bytes 12 2 ≠ 0x8808 → addressOk x f.bytes = true → tagOk f.bytes = true → followsLog s = false →
            Yields (.frameReceive p f) s fun t => t.obj = s.obj ∧ portOf t p = { x with rx := x.rx ++ [r] }) ∧
          (fcsOk → beAt f.bytes 12 2 = 0x8808 → beAt f.bytes 14 2 = 1 →
            Yields (.frameReceive p f) s fun t => t.obj = s.obj ∧ portOf t p = { x with pauseEnd := pauseUntil s p (beAt f.bytes 16 2) })) ∧
        (64 ≤ n → n ≤ 9600 → n ≤ x.maxLen → written = none → fcsOk → beAt f.bytes 12 2 ≠ 0x8808 → addressOk x f.bytes = true →
          tagOk f.bytes = true → Yields (.frameReceive p f) s (counted 0x164)))) ∧
    (portExists s p = true → portMode s p ≠ 0 →
      (x.loopback = 1 → Yields (.frameReceive p f) s fun t => t.ports = s.ports ∧ t.obj = s.obj ∧ t.mem = s.mem) ∧
      (x.loopback = 2 → Yields (.frameReceive p f) s fun t => portOf t p = { x with lastTx := f.bytes } ∧ t.obj = s.obj ∧ t.mem = s.mem)) ∧
    (Yields (.pauseExpiry p none) s fun t => portOf t p = { x with pauseEnd := 0 } ∧ t.obj = s.obj) ∧
    (Yields (.pauseExpiry p (some prio)) s fun t => tgetD (portOf t p).pfcEnd prio 0 = 0 ∧ (portOf t p).pauseEnd = x.pauseEnd ∧ t.obj = s.obj)

/-- R106, R94, R96, R110, R175, R108, R109: the first queued frame that no pause or gate holds leaves padded to 60 bytes with its FCS, a frame of another gate priority past one that is
held; it is discarded and counted while the port is down and when it is longer than MAC_MAXLEN, and waits while paused;
an underrun ends it early with the inverse FCS, is counted and raises the transmit start. -/
def Obligations.FramesLeaveTheQueue : Prop :=
  ∀ (s : State) (p : PortNo) (f : TxFrame) (rest : List TxFrame), Awake s → (portOf s p).tx = f :: rest → drivesPorts s = true →
    let x := portOf s p
    let b := f.bytes ++ List.replicate (60 - f.bytes.length) 0
    (x.link = true → f.ready s p = true → f.over x = false → f.ptp = none → x.loopback ≠ 1 →
      Yields (.frameTransmit p) s fun t => (portOf t p).tx = rest ∧ (portOf t p).lastTx = b ++ leBytes 4 (crc32 b) ∧ (portOf t p).rx = x.rx ∧
        t.mem = s.mem ∧ ∀ j, j ≠ p.val → portOf t j = portOf s j) ∧
    (x.link = true → (∀ g ∈ f :: rest, g.ready s p = false) → exec (.frameTransmit p) s = .next s) ∧
    (isPaused s p f.prio = true → f.ready s p = false) ∧
    (∀ g more, x.link = true → f.ready s p = false → rest = g :: more → g.gate ≠ f.gate → g.ready s p = true → g.over x = false → g.ptp = none →
      Yields (.frameTransmit p) s fun t => (portOf t p).tx = f :: more) ∧
    (x.link = true → f.ready s p = true → f.over x = true → Yields (.frameTransmit p) s fun t => (portOf t p).tx = rest ∧ (portOf t p).lastTx = x.lastTx ∧
      t.obj = s.obj ∧ counterOf t (portCtr p 0x22C) = counterOf s (portCtr p 0x22C) + 1) ∧
    (x.link = false → Yields (.frameTransmit p) s fun t => (portOf t p).tx = rest ∧ (portOf t p).lastTx = x.lastTx ∧ t.obj = s.obj ∧
      counterOf t (portCtr p 0x230) = counterOf s (portCtr p 0x230) + 1) ∧
    (x.link = true → f.ready s p = true → f.over x = false → x.pln7200 = false → x.txStart < b.length + 4 → x.loopback ≠ 1 →
      Yields (.txUnderrun p) s fun t => (portOf t p).tx = rest ∧ (portOf t p).txStart = min 9728 (x.txStart + 256) ∧
        counterOf t (portCtr p 0x228) = counterOf s (portCtr p 0x228) + 1 ∧
        ∃ k, x.txStart ≤ k ∧ (portOf t p).lastTx = b.take k ++ (leBytes 4 (crc32 (b.take k))).map fun y => ~~~y) ∧
    (x.pln7200 = true → exec (.txUnderrun p) s = .next s) ∧
    (f.ready s p = true → b.length + 4 ≤ x.txStart → exec (.txUnderrun p) s = .next s)

/-! ### Buffer pools, spill queues, the Orgue (chapters 12, 14) -/

/-- R20, R348, R350, R351, R354, R355, R356: PARTITION_SET gives the partition the sizes of its block and rebuilds classes 3 to 5, once every buffer of them is free; a request takes a buffer of the smallest fitting class that has one, held by its port's owner, or fails; a free returns it with its
generation advanced, a handoff changes its holder, a share names its consumers; a rejected free changes no pool and is counted by its cause. -/
def Obligations.BuffersHaveOneHolder : Prop :=
  ∀ (s : State) (port : Fin 16) (size owner : Nat) (h : Word) (dest : Nat) (mask : BitVec 4) (p : Pool) (pc : Cmd), Awake s →
    let c0 := fitClass size
    let c := bits h.toNat 29 3
    let i := bits h.toNat 7 22
    let rest := fun (k : Nat) (t : State) => t.obj = s.obj ∧ t.mem.queues = s.mem.queues ∧ ∀ j, j ≠ k → t.mem.pools[j]? = s.mem.pools[j]?
    let size1 := pc.u32 20
    (Admits rulePartitionSet pc s → Yields (.partitionSet pc) s fun t => t.obj = s.obj ∧ t.mem.queues = s.mem.queues ∧ HbmKept s t ∧ t.media = s.media ∧
      t.mem.partition = (List.range 8).map (fun j => pc.u32 (16 + 4 * j)) ∧
      (size1 = s.mem.partition.getD 1 0 → t.mem.pools = s.mem.pools) ∧
      (size1 ≠ s.mem.partition.getD 1 0 → (s.mem.pools.drop 3).all (·.unheld) = true → ∀ k q, k < 3 → s.mem.pools[3 + k]? = some q →
        ∃ n, (classCounts size1)[k]? = some n ∧ t.mem.pools[3 + k]? = some { count := n, lowest := n, movedUp := q.movedUp })) ∧
    (port.val ≠ 15 → 1 ≤ size → size ≤ 65536 → c0 < classTop s → s.mem.pools[c0]? = some p → p.rebuild = none → p.fresh < p.count →
      Yields (.bufferRequest port size) s fun t => rest c0 t ∧ t.mem.granted = some (bufHandle c0 p.fresh (tgetD p.gens p.fresh 1)) ∧
        ∃ p', t.mem.pools[c0]? = some p' ∧ tget p'.holders p.fresh = some (.held (portOwner port)) ∧ p'.fresh = p.fresh + 1) ∧
    (port.val ≠ 15 → 1 ≤ size → size ≤ 65536 → (∀ (k : Nat) (q : Pool), c0 ≤ k → k < classTop s → s.mem.pools[k]? = some q → q.free = 0) →
      Yields (.bufferRequest port size) s fun (t : State) => t.mem.granted = none ∧ ∀ k : Nat, (t.mem.pools[k]?).map Pool.holders = (s.mem.pools[k]?).map Pool.holders) ∧
    (freeCheck s.mem.pools owner h = none → (∀ q ∈ s.mem.pools, q.rebuild = none) → s.mem.pools[c]? = some p → tget p.holders i = some (.held owner) →
      (Yields (.bufferFree owner h none) s fun t => rest c t ∧ ∃ p', t.mem.pools[c]? = some p' ∧ tget p'.holders i = none ∧
        tgetD p'.gens i 1 = (if tgetD p.gens i 1 = 127 then 1 else tgetD p.gens i 1 + 1) ∧ p'.freed = p.freed ++ [i]) ∧
      (Yields (.bufferFree owner h (some dest)) s fun t => rest c t ∧ ∃ p', t.mem.pools[c]? = some p' ∧ tget p'.holders i = some (.held dest) ∧
        p'.gens = p.gens ∧ p'.freed = p.freed) ∧
      (mask ≠ 0 → Yields (.bufferShare owner h mask) s fun t => rest c t ∧ ∃ p', t.mem.pools[c]? = some p' ∧
        tget p'.holders i = some (.shared mask))) ∧
    (∀ b, freeCheck s.mem.pools owner h = some b → Yields (.bufferFree owner h none) s fun t => t.obj = s.obj ∧ t.mem.pools = s.mem.pools ∧
      counterOf t (memCtr (0x100 + 4 * b.code)) = counterOf s (memCtr (0x100 + 4 * b.code)) + 1)

/-- R338, R339, R342, R345, R346, R340: a spill queue is first in, first out: a write puts its entry behind all others, and nothing into a full queue; a read takes the
oldest visible entry; a retract takes back the unfinished packet; DISCARD_REST drops the unread rest of the packet; an empty unpinned queue gives its frame back.
In Blotter service a middle has one pool buffer for every 8 entries, and a write that finds none stalls (R457, R352). Every other queue stays. -/
def Obligations.SpillQueuesKeepOrder : Prop :=
  ∀ (s : State) (n : Nat) (q : SpillQ) (e : SqEntry), Awake s → tget s.mem.queues n = some q →
    let holds := fun (t : State) (p : SpillQ → Prop) => t.obj = s.obj ∧ (∀ k, k ≠ n → tget t.mem.queues k = tget s.mem.queues k) ∧
      ∃ q', tget t.mem.queues n = some q' ∧ p q'
    (q.wr - q.rd < q.cap → q.disc = false → (inBlotter s = false ∨ (serveClass s.mem.pools 3 6 0).isSome = true) →
      (Yields (.sqWrite n e) s fun t => holds t fun q' => q'.entries = q.entries ++ [e] ∧ q'.wr = q.wr + 1 ∧ q'.rd = q.rd) ∧
      (inBlotter s = true → q.frame.isSome = true → q.midBufs.length = q.midNeed →
        Yields (.sqWrite n e) s fun t => holds t fun q' => q'.midBufs.length = q'.midNeed)) ∧
    (q.cap ≤ q.wr - q.rd → Yields (.sqWrite n e) s fun t => holds t fun q' => q'.entries = q.entries ∧ q'.wr = q.wr ∧ q'.rd = q.rd) ∧
    (∀ x r, q.entries = x :: r → (if q.pkt then 0 < q.wr - q.open_ - q.rd else 0 < q.wr - q.rd) →
      Yields (.sqRead n) s fun t => holds t fun q' => q'.entries = r ∧ q'.last = some x ∧ q'.rd = q.rd + 1 ∧ q'.wr = q.wr) ∧
    (q.pkt = true → 0 < q.open_ → Yields (.sqRetract n) s fun t => holds t fun q' =>
      q'.entries = q.entries.take (q.entries.length - q.open_) ∧ q'.open_ = 0 ∧ q'.wr = q.wr - q.open_) ∧
    (q.inPkt = true → q.disc = false → Yields (.discardRest n) s fun t => holds t fun q' =>
      q'.entries = (throughEop q.entries).2.1 ∧ q'.rd = q.rd + (throughEop q.entries).1.length ∧ (q'.inPkt = false ↔ (throughEop q.entries).2.2 = true)) ∧
    (q.inPkt = false ∨ q.disc = true → Yields (.discardRest n) s fun t => t.mem = s.mem ∧
      counterOf t (memCtr 0x214) = counterOf s (memCtr 0x214) + 1) ∧
    (∀ f, q.pinned = false → q.entries = [] → q.frame = some f → Yields (.sqFrameRelease n) s fun t =>
      (holds t fun q' => q'.frame = none ∧ q'.entries = []) ∧ t.mem.frameFreed = s.mem.frameFreed ++ [f])

/-- R378-R386, R389, R390: a task enters a slot with the next SEQ of its flow and is ready once its mask is met; flags are ORed into the slot of the right generation; a
free completer takes the head of its list; the collector takes completions from the holds; a released task frees its slot and advances its generation; an admission that finds no slot
stalls, counted, and waits to repeat. -/
def Obligations.OrgueTasksMoveThroughStages : Prop :=
  ∀ (s : State) (r : TaskReq) (slot gen flow : Nat) (b : Word) (k : Fin 224) (t0 : Task), Awake s →
    let fl := flowOf s r.flow.toNat
    let dest := (nextSlot s.orgue).1
    (admitStalls s r = false → Yields (.taskAdmit r) s fun t => t.obj = s.obj ∧ t.mem = s.mem ∧ t.orgue.used = s.orgue.used + 1 ∧
      (flowOf t r.flow.toNat).inFlight = fl.inFlight + 1 ∧ (flowOf t r.flow.toNat).nextSeq = (fl.nextSeq + 1) % 2 ^ 32 ∧
      (∃ x, tget t.orgue.tasks dest = some x ∧ x.seq = fl.nextSeq ∧ x.flags = r.flags ∧ x.mask = r.mask ∧ x.prio = r.prio ∧ x.kind = r.kind ∧
        (x.stage = 1 ↔ r.flags &&& r.mask = r.mask)) ∧
      t.orgue.ready = (if r.flags &&& r.mask = r.mask then s.orgue.ready ++ [dest] else s.orgue.ready)) ∧
    (admitStalls s r = true → Yields (.taskAdmit r) s fun t => t.obj = s.obj ∧ counterOf t (orgCtr 0x24) = counterOf s (orgCtr 0x24) + 1 ∧
      t.orgue = { s.orgue with born := s.orgue.born + 1, stalled := s.orgue.stalled ++ [{ req := r, num := s.orgue.born + 1, waits := [], job := none }] }) ∧
    (tget s.orgue.tasks slot = some t0 → tgetD s.orgue.gens slot 0 = gen → Yields (.flagEvent slot gen b) s fun t => t.obj = s.obj ∧
      ∃ x, tget t.orgue.tasks slot = some x ∧ x.flags = t0.flags ||| b ∧ x.mask = t0.mask ∧ x.seq = t0.seq ∧
        (t0.stage = 0 → (x.stage = 1 ↔ (t0.flags ||| b) &&& t0.mask = t0.mask))) ∧
    (tget s.orgue.tasks slot = some t0 → tgetD s.orgue.gens slot 0 ≠ gen → Yields (.flagEvent slot gen b) s fun t => t.orgue = s.orgue ∧
      counterOf t (orgCtr 0x28) = counterOf s (orgCtr 0x28) + 1) ∧
    (completerFree s k = true → headTask (readyFor s k) = some (slot, t0) → Yields (.taskDispatch k) s fun t => t.obj = s.obj ∧
      tget t.orgue.running k = some slot ∧ slot ∉ t.orgue.ready ∧ tget t.orgue.tasks slot = some { t0 with stage := 2 }) ∧
    (s.orgue.window = [k.val] → tgetD s.orgue.holds k [] = [slot] → tget s.orgue.tasks slot = some t0 →
      Yields (.completionCollect []) s fun t => t.obj = s.obj ∧ t.orgue.window = [] ∧ tget t.orgue.holds k = none ∧
        tget t.orgue.tasks slot = some { t0 with stage := 4 }) ∧
    (s.orgue.window = [] → s.orgue.holds = [] → tget s.orgue.running k = some slot → tget s.orgue.tasks slot = some t0 →
      Yields (.completionCollect [(k.val, slot)]) s fun t => t.obj = s.obj ∧ tget t.orgue.running k = none ∧ tget t.orgue.holds k = some [slot] ∧
        tget t.orgue.tasks slot = some { t0 with stage := 3 }) ∧
    (nextRelease s flow = some (slot, t0) → t0.job = none → s.orgue.stalled = [] → s.orgue.closing = [] → s.nose.waiting = [] →
      Yields (.taskRelease flow) s fun t => t.obj = s.obj ∧ tget t.orgue.tasks slot = none ∧
      tgetD t.orgue.gens slot 0 = (tgetD s.orgue.gens slot 0 + 1) % 256 ∧ t.orgue.freed = s.orgue.freed ++ [slot] ∧
      (flowOf t flow).nextRel = (t0.seq + 1) % 2 ^ 32)

/-! ### HBM (chapter 13) -/

/-- R361, R362, R363, R366: a write stores its bytes and no other; a read returns the bytes, one wrong bit corrected and counted, more marked as poison; training
ends in service or at the step that failed; a parity report is a retry, counted. -/
def Obligations.HbmServesRequests : Prop :=
  ∀ (s : State) (a : BitVec 36) (len e : Nat) (act : Bool) (bs : List Byte) (n : StackNo) (r : TrainResult) (i : Nat), Awake s →
    let p := pcOfAddr a.toNat
    ((stackOf s (p / 32)).trained = true → (pcOf s p).failed = false →
      (Memory.wf s.hbm.mem = true → Yields (.hbmRequest (.write a bs act)) s fun t => t.obj = s.obj ∧
        mreadN t.hbm.mem a.toNat bs.length = bs ∧
        ∀ x, (x < a.toNat ∨ a.toNat + bs.length ≤ x) → mread t.hbm.mem x = mread s.hbm.mem x) ∧
      (Yields (.hbmRequest (.read a len e act)) s fun t => t.obj = s.obj ∧ t.hbm.mem = s.hbm.mem ∧ t.hbm.lastData = mreadN s.hbm.mem a.toNat len ∧
        (e < 2 → isPoisoned s a.toNat len = false → t.hbm.lastPoison = false) ∧ (2 ≤ e → t.hbm.lastPoison = true) ∧
        (e = 1 → counterOf t (hbmCtr (p / 32) 0x20) = counterOf s (hbmCtr (p / 32) 0x20) + 1) ∧
        (2 ≤ e → counterOf t (hbmCtr (p / 32) 0x24) = counterOf s (hbmCtr (p / 32) 0x24) + 1))) ∧
    ((stackOf s (p / 32)).trained = true → Yields (.patrolScrub a e) s fun t => t.obj = s.obj ∧ t.hbm.mem = s.hbm.mem ∧
      (e = 1 → counterOf t (hbmCtr (p / 32) 0x20) = counterOf s (hbmCtr (p / 32) 0x20) + 1) ∧ (e = 0 → t = s)) ∧
    ((stackOf s n).trained = false → (stackOf s n).trainFail = false →
      let ends := fun (k : Nat) => Yields (.hbmTraining n r) s fun t => t.obj = s.obj ∧ (stackOf t n).trainStep = k ∧
        ((stackOf t n).trained = true ↔ k = 7) ∧ ((stackOf t n).trainFail = true ↔ k ≠ 7)
      let ca := ∀ x ∈ r.caFails, x ≤ 1
      let dq := ∀ x ∈ r.dqFails, x ≤ 2
      (r.identityOk = false → ends 1) ∧ (r.identityOk = true → r.calibrationOk = false → ends 2) ∧
      (r.identityOk = true → r.calibrationOk = true → (¬ ca → ends 3) ∧ (ca → ¬ dq → ends 4) ∧ (ca → dq → r.patternOk = false → ends 6) ∧
        (ca → dq → r.patternOk = true → ends 7))) ∧
    (Yields (.caParityError n i false) s fun t => t.hbm = s.hbm ∧ t.obj = s.obj ∧ counterOf t (hbmCtr n 0x28) = counterOf s (hbmCtr n 0x28) + 1) ∧
    (∀ x, (stackOf s n).retry[i]? = some (.read x) → Yields (.caParityError n i true) s fun t => t.hbm.lastPoison = true ∧ t.hbm.mem = s.hbm.mem)

/-- R369-R375, R377: every interval raises the debt by one and refreshes down to POSTPONE at once; a make-up pays the rest; the mode doubles at 85 °C and ends below
82 °C; POSTPONE, LOG2N and the seeds are written as their registers say; self-refresh is entered phase by phase and ends the debt. -/
def Obligations.HbmRefreshAndMitigation : Prop :=
  ∀ (s : State) (p : PcNo) (n : StackNo) (temp : Byte) (w : Word) (hi : Bool) (phase : Fin 5), Awake s →
    let d := (pcOf s p).debt
    let l := s.hbm.postpone.toNat
    let same := fun (t : State) => t.obj = s.obj ∧ t.hbm.mem = s.hbm.mem
    ((stackOf s (p / 32)).trained = true → (pcOf s p).sr ≠ 4 → Yields (.refreshInterval p) s fun t => same t ∧ (pcOf t p).debt = min (d + 1) l ∧
      (pcOf t p).refreshed = (pcOf s p).refreshed + (d + 1 - l) ∧ (stackOf t (p / 32)).maxDebt = max (stackOf s (p / 32)).maxDebt (d + 1)) ∧
    (Yields (.refreshMakeup p) s fun t => same t ∧ (pcOf t p).debt = 0 ∧ (pcOf t p).refreshed = (pcOf s p).refreshed + d) ∧
    (Yields (.hbmTempRead n temp) s fun t => same t ∧ (stackOf t n).temp = temp ∧
      ((stackOf t n).doubled = true ↔ (if (stackOf s n).doubled then 82 else 85) ≤ temp.toNat) ∧
      ((stackOf s n).doubled = (stackOf t n).doubled → ∀ k, (pcOf t k).debt = (pcOf s k).debt) ∧
      ((stackOf s n).doubled = false → (stackOf t n).doubled = true → ∀ k, k < 32 → (pcOf t (32 * n + k)).debt = min (min 16 (2 * (pcOf s (32 * n + k)).debt)) l) ∧
      ((stackOf s n).doubled = true → (stackOf t n).doubled = false → ∀ k, k < 32 → (pcOf t (32 * n + k)).debt = ((pcOf s (32 * n + k)).debt + 1) / 2)) ∧
    State.reset.hbm.postpone = 4 ∧ State.reset.hbm.log2n = 9 ∧
    (Yields (.hbmRefCtlWrite w) s fun t => same t ∧ t.hbm.postpone.toNat = min 8 (w.toNat % 16)) ∧
    (Yields (.hbmMitCtlWrite w) s fun t => same t ∧ t.hbm.log2n.toNat = max 6 (min 13 (w.toNat % 16))) ∧
    (Yields (.hbmMitSeedWrite hi w) s fun t => same t ∧ t.hbm.seedLo = (if hi then s.hbm.seedLo else w) ∧ t.hbm.seedHi = (if hi then w else s.hbm.seedHi) ∧
      ∀ k : PcNo, (pcOf t k).gen = some (seedOf t.hbm.seedLo t.hbm.seedHi k)) ∧
    (Yields (.hbmMaxDebtRead n) s fun t => same t ∧ (stackOf t n).maxDebt = 0 ∧ t.hst.lastRead = BitVec.ofNat 64 (stackOf s n).maxDebt) ∧
    (s.mon.quiesce = true → phase.val = (pcOf s p).sr + 1 → Yields (.selfRefreshEntry p phase) s fun t => same t ∧ (pcOf t p).sr = phase ∧
      (phase = 2 → (pcOf t p).debt = 0)) ∧
    ((pcOf s p).sr ≠ 0 → Yields (.selfRefreshExit p) s fun t => same t ∧ (pcOf t p).sr = 0 ∧ (3 ≤ (pcOf s p).sr → (pcOf t p).debt = 0))

/-! ### The Time Unit (chapter 15) -/

/-- R394, R395, R397, R398, R399, R400, R404, R405, R407, R410: TIME_STEP takes the owed step, holds it for PPS_IN in role 2, or starts a slew; TIME_RATE sets R; both
rate changes leave the time continuous, and SLEW_END takes back what the slew added beyond Δ. PTP_CONFIG, PPS_CONFIG and PORT_TS_COMP set what their block names. -/
def Obligations.TimeCommandsSetTheClock : Prop :=
  ∀ (c : Cmd) (s : State) (d : Int) (start : Nat),
    let p := c.u8 16
    let same := fun (t : State) => t.obj = s.obj ∧ t.media = s.media ∧ t.hbm = s.hbm ∧ t.phys = s.phys ∧ t.video = s.video ∧ t.accord = s.accord ∧ t.orgue = s.orgue
    let clock := fun (t : State) => same t ∧ t.ports = s.ports
    let steady := fun (t : State) => t.tim.c = s.tim.c ∧ (now32 t - now32 s) % 2 ^ 96 = 0
    (Admits ruleTimeStep c s →
      (s.tim.stepped = false → s.tim.role = 0 → Yields (.timeStep c) s fun t => clock t ∧
        t.tim = { s.tim with o := wrap96 (s.tim.o + stepDelta c), stepped := true, holdover := false }) ∧
      (s.tim.stepped = false → s.tim.role = 2 → Yields (.timeStep c) s fun t => clock t ∧ t.tim = { s.tim with heldStep := some (stepDelta c) }) ∧
      (s.tim.stepped = true → stepDelta c ≠ 0 → Yields (.timeStep c) s fun t => clock t ∧ steady t ∧ t.tim.r = s.tim.r ∧
        t.tim.s = (if stepDelta c < 0 then -(2 ^ 34) else 2 ^ 34) ∧ t.tim.slew = some (stepDelta c, s.tim.c)) ∧
      (s.tim.stepped = true → stepDelta c = 0 → Yields (.timeStep c) s fun t => clock t ∧ t.tim = { s.tim with holdover := false })) ∧
    (Admits ruleTimeRate c s → Yields (.timeRate c) s fun t => clock t ∧ steady t ∧ t.tim.r = sext 64 (c.u64 16) ∧ t.tim.s = s.tim.s ∧ t.tim.slew = s.tim.slew) ∧
    (Awake s →
      (s.tim.slew = some (d, start) → (slewAdded s d start).natAbs < d.natAbs → exec .slewEnd s = .next s) ∧
      (s.tim.slew = some (d, start) → d.natAbs ≤ (slewAdded s d start).natAbs → Yields .slewEnd s fun t => clock t ∧ t.tim.c = s.tim.c ∧ t.tim.s = 0 ∧ t.tim.slew = none ∧ t.tim.r = s.tim.r ∧
        (now32 t - (now32 s + d - slewAdded s d start)) % 2 ^ 96 = 0) ∧
      (s.tim.slew = none → exec .slewEnd s = .next s)) ∧
    (Admits rulePtpConfig c s → Yields (.ptpConfig c) s fun t => clock t ∧
      t.tim.role = c.u8 64 ∧ t.tim.domain = c.u8 65 ∧ t.tim.p2p = decide (c.u8 66 = 1) ∧ t.tim.udp = decide (c.u8 67 = 1) ∧ t.tim.tc = bit (c.u8 68) 0 ∧
      t.tim.as = bit (c.u8 68) 1 ∧ t.tim.logSync = sext 8 (c.u8 69) ∧ t.tim.logAnnounce = sext 8 (c.u8 70) ∧ t.tim.announceTimeout = c.u8 71 ∧
      t.tim.slaveMask = BitVec.ofNat 8 (c.u8 72) ∧ t.tim.tcMask = BitVec.ofNat 8 (c.u8 73) ∧ t.tim.masterMask = BitVec.ofNat 8 (c.u8 74) ∧
      t.tim.jumpLimit = c.u32 80 ∧ (c.u8 64 = s.tim.role → t.tim.ri = s.tim.ri) ∧ (c.u8 64 ≠ s.tim.role → t.tim.ri = s.tim.r ∧ t.tim.master = none) ∧
      t.tim.c = s.tim.c ∧ t.tim.o = s.tim.o ∧ t.tim.r = s.tim.r ∧ t.tim.s = s.tim.s ∧ t.tim.slew = s.tim.slew ∧ t.tim.stepped = s.tim.stepped) ∧
    (Admits rulePpsConfig c s → Yields (.ppsConfig c) s fun t => clock t ∧
      t.tim = { s.tim with ppsOn := bit (c.u32 16) 0, ppsFalling := bit (c.u32 16) 1, ppsWidth := c.u32 20, ppsPhase := c.u32 24 }) ∧
    (Admits rulePortTsComp c s → Yields (.portTsComp c) s fun t => same t ∧ t.tim = s.tim ∧
      portOf t p = { portOf s p with tsIngress := c.hdl 20, tsEgress := c.hdl 24, tsAsym := c.hdl 28 } ∧ ∀ q, q ≠ p → portOf t q = portOf s q)

/-- R398, R401, R406, R407, R408, R414: an edge of PPS_IN is counted and stamped; in role 2 it takes the held step, so that the edge reads the nearest whole second, or gives the servo its
offset, which steers R and Ri or is refused beyond the jump limit. Without edges, or without Announce, the clock holds over on Ri. PTP_TRANSMIT sends what the role sends, and a follower
sends nothing. -/
def Obligations.ClockFollowsItsReference : Prop :=
  ∀ (s : State) (port : PortNo) (kind : PtpTx) (d : Int),
    let p := port.val
    let same := fun (t : State) => t.obj = s.obj ∧ t.media = s.media ∧ t.hbm = s.hbm ∧ t.phys = s.phys ∧ t.video = s.video ∧ t.accord = s.accord ∧ t.orgue = s.orgue
    let clock := fun (t : State) => same t ∧ t.ports = s.ports ∧ t.tim.c = s.tim.c
    let stamp := nowStamp s
    let theta : Int := stamp - nearestSecond stamp
    let ri := clampI (-maxRate) maxRate (s.tim.ri + (theta * 2 ^ 48).tdiv (64 * oneSecond))
    let holds := fun (t : State) => t.tim.holdover = true ∧ t.tim.good = 0 ∧ t.tim.r = s.tim.ri ∧ (now32 t - now32 s) % 2 ^ 96 = 0
    let sends : Bool := match kind with
      | .announce => decide (s.tim.role = 2) && s.tim.masterMask.getLsbD p
      | .sync => decide (s.tim.role = 2) && s.tim.masterMask.getLsbD p
      | .delayReq => decide (s.tim.role = 1) && !s.tim.p2p && s.tim.slaveMask.getLsbD p
      | .pdelayReq => s.tim.p2p && ((decide (s.tim.role = 1) && s.tim.slaveMask.getLsbD p) || (s.tim.tc && s.tim.tcMask.getLsbD p))
    Awake s →
    (Yields .ppsInEdge s fun t => clock t ∧ t.tim.lastEdge = some stamp ∧ t.tim.ppsLost = false ∧ counterOf t (timCtr 0x24) = counterOf s (timCtr 0x24) + 1 ∧
      (s.tim.role ≠ 2 ∨ s.tim.follow = true → t.tim = { s.tim with lastEdge := some stamp, ppsLost := false }) ∧
      (s.tim.role = 2 → s.tim.follow = false →
        (s.tim.heldStep = some d → noMedia s = true → s.tim.stepped = false → t.tim.stepped = true ∧ t.tim.heldStep = none ∧
          (now32 t - divRound (now32 s + d) (1000000000 * 2 ^ 32) * (1000000000 * 2 ^ 32)) % 2 ^ 96 = 0) ∧
        (s.tim.heldStep = none → (s.tim.jumpLimit : Int) * 65536 < theta.natAbs → holds t ∧ counterOf t (timCtr 0x20) = counterOf s (timCtr 0x20) + 1) ∧
        (s.tim.heldStep = none → (theta.natAbs : Int) ≤ (s.tim.jumpLimit : Int) * 65536 → t.tim.holdover = false ∧ t.tim.ri = ri ∧
          t.tim.r = clampI (-maxRate) maxRate (ri + (theta * 2 ^ 48).tdiv (8 * oneSecond)) ∧ (now32 t - now32 s) % 2 ^ 96 = 0))) ∧
    (s.tim.role = 2 → s.tim.follow = false → s.tim.ppsLost = false → ppsOverdue s = true → Yields .ppsLost s fun t => clock t ∧ holds t ∧ t.tim.ppsLost = true) ∧
    (s.tim.role ≠ 2 ∨ s.tim.follow = true ∨ s.tim.ppsLost = true ∨ ppsOverdue s = false → exec .ppsLost s = .next s) ∧
    (s.tim.role = 1 → s.tim.master.isSome = true → s.tim.follow = false → announceOverdue s = true → Yields .announceTimeout s fun t => clock t ∧ holds t ∧ t.tim.master = none ∧ t.hst = s.hst) ∧
    (s.tim.role ≠ 1 ∨ s.tim.master = none ∨ s.tim.follow = true ∨ announceOverdue s = false → exec .announceTimeout s = .next s) ∧
    (s.tim.follow = false → drivesPorts s = true → portExists s p = true → sends = true → Yields (.ptpTransmit port kind) s fun t => same t ∧ t.hst = s.hst ∧
      t.tim = { s.tim with txSeq := s.tim.txSeq + 1 } ∧ (∀ q, q ≠ p → portOf t q = portOf s q) ∧ (portOf t p).tx.length = (portOf s p).tx.length + 1) ∧
    (s.tim.follow = true ∨ drivesPorts s = false ∨ portExists s p = false ∨ sends = false → exec (.ptpTransmit port kind) s = .next s)

/-! ### The Twin Complex (chapter 16) -/

/-- R449, R442, R443, R436, R420, R421, R425, R418, R437, R430: TWIN_CONFIG sets mode, flags and key; TWIN_ROLE_SET asks for the switchover; TWIN_RESYNC and AUTO_RESYNC_START check and start a resync;
training, fast retrain and TWN_RETRAIN set the lanes; PAIR decides the roles; a heartbeat raises TWIN_LIVE_OUT and sends HB, and a stalled generator drops it; TIME numbers and stamps its message. -/
def Obligations.TwinCommandsAndSession : Prop :=
  ∀ (c : Cmd) (s : State) (working inverted : Byte) (order : List (Fin 8)) (p : PeerPair),
    let apart := fun (t : State) => t.obj = s.obj ∧ t.ports = s.ports ∧ t.media = s.media ∧ t.tim = s.tim ∧ t.hbm = s.hbm ∧ t.phys = s.phys ∧ t.video = s.video ∧ t.accord = s.accord
    let role := if c.u8 64 = 1 then (if s.twin.state = .solo then TwinState.active else s.twin.state) else if s.twin.state = .faultStop then .faultStop else .solo
    let rested : Prop := ∀ a, s.twin.autoAt = some a → a + 60 ≤ counterMs s / 1000
    let lanes := fun (t : State) => t.twin.working = working ∧ t.twin.group = laneGroup working ∧ t.twin.link = decide (laneGroup working ≠ 0)
    let oneBlock : BitVec 16 := if s.twin.link then s.twin.txSeq + 1 else s.twin.txSeq
    let stays := if holdsMedia s != p.busy then holdsMedia s else decide (s.mon.fusedId.toNat < p.deviceId.toNat)
    (Admits ruleTwinConfig c s → Yields (.twinConfig c) s fun t => apart t ∧ t.twin.mode = decide (c.u8 64 = 1) ∧ t.twin.autoResync = bit (c.u8 65) 0 ∧
      t.twin.degradedOk = bit (c.u8 65) 1 ∧ t.twin.pairKey = (if zeros (c.raw 96 32) then none else some (c.raw 96 32)) ∧ t.twin.state = role ∧
      t.twin.paired = (s.twin.paired && decide (c.u8 64 = 1)) ∧ t.twin.link = s.twin.link ∧ t.twin.prot = s.twin.prot) ∧
    (Admits ruleTwinRoleSet c s →
      (hasRole s (c.u32 16) = true → Yields (.twinRoleSet c) s fun t => apart t ∧ t.twin = s.twin) ∧
      (hasRole s (c.u32 16) = false → s.twin.state = .active → Yields (.twinRoleSet c) s fun t => apart t ∧ t.twin = { s.twin with switchReq := true }) ∧
      (hasRole s (c.u32 16) = false → s.twin.state ≠ .active → Yields (.twinRoleSet c) s fun t => apart t ∧ t.twin.state = s.twin.state ∧
        t.twin.switchReq = s.twin.switchReq ∧ t.twin.txSeq = oneBlock)) ∧
    (Admits ruleTwinResync c s →
      (s.twin.prot = true → Yields (.twinResync c) s fun t => apart t ∧ t.twin = s.twin) ∧
      (s.twin.prot = false → Yields (.twinResync c) s fun t => apart t ∧ t.twin.checkItem ≤ 7 ∧
        (s.twin.peerFw ≠ s.nose.fwVersion → t.twin.checkItem = 1) ∧ (t.twin.checkItem ≠ 0 → t.twin.resync = s.twin.resync) ∧
        (t.twin.checkItem = 0 → t.twin.resync = true ∧ t.twin.asking = true ∧ t.nose.bulk = s.nose.bulk ++ [⟨0x0B03, c⟩]))) ∧
    (Awake s →
      (s.twin.autoDue = true → s.twin.autoResync = true → s.twin.state = .active → mayResync s = true → rested → Yields .autoResyncStart s fun t => apart t ∧
        t.twin.autoDue = false ∧ t.twin.autoAt = some (counterMs s / 1000) ∧ t.twin.resync = decide (t.twin.checkItem = 0)) ∧
      (s.twin.autoDue = false ∨ s.twin.autoResync = false ∨ s.twin.state ≠ .active ∨ mayResync s = false → exec .autoResyncStart s = .next s) ∧
      (Yields (.llynasLinkTraining working order inverted) s fun t => apart t ∧ lanes t ∧ t.twin.laneMap = laneMapOf order inverted ∧ t.twin.paired = false ∧
        t.twin.pairFail = false ∧ t.twin.rxSeq = 0 ∧ t.twin.nak = false ∧ t.twin.credit = 0 ∧ t.twin.firstTime = true) ∧
      (Yields (.laneFastRetrain working) s fun t => apart t ∧ lanes t ∧ t.twin.laneMap = s.twin.laneMap ∧ t.twin.paired = s.twin.paired ∧
        counterOf t (twnCtr 0x114) = counterOf s (twnCtr 0x114) + 1 ∧
        (laneGroup working = 0xFF → t.twin.state = s.twin.state ∧ t.twin.prot = s.twin.prot) ∧
        (laneGroup working ≠ 0 → popcount 8 (laneGroup working).toNat = 2 → s.twin.state = .standby → t.twin.state = .withdrawn ∧ t.twin.cause = 9)) ∧
      (Yields .twnRetrain s fun t => apart t ∧ t.hst = s.hst ∧ t.twin = { s.twin with link := false, working := 0, group := 0, paired := false }) ∧
      (p.authentic = false → Yields (.pair p) s fun t => apart t ∧ t.twin = { s.twin with pairFail := true, paired := false }) ∧
      (p.authentic = true → s.twin.mode = true → s.twin.link = true → s.twin.state ≠ .faultStop → Yields (.pair p) s fun t => apart t ∧
        t.twin.paired = true ∧ t.twin.pairFail = false ∧ t.twin.peerId = p.deviceId ∧ t.twin.peerFw = p.firmware ∧ t.twin.peerState = p.state ∧
        (isActive s = false → t.twin.state = s.twin.state) ∧
        (isActive s = true → 1 < p.state.toNat ∨ stays = true → t.twin.state = .active) ∧
        (isActive s = true → p.state.toNat ≤ 1 → stays = false → t.twin.state = .withdrawn ∧ t.twin.cause = 7)) ∧
      (p.authentic = true → s.twin.mode = false ∨ s.twin.link = false ∨ s.twin.state = .faultStop → exec (.pair p) s = .next s) ∧
      (s.twin.state ≠ .faultStop → Yields .heartbeat s fun t => apart t ∧ t.twin.liveOut = true ∧ t.twin.txSeq = oneBlock ∧ t.twin.state = s.twin.state) ∧
      (s.twin.state = .faultStop → exec .heartbeat s = .next s) ∧
      (Yields .heartbeatGeneratorStall s fun t => apart t ∧ t.hst = s.hst ∧ t.twin = { s.twin with liveOut := false }) ∧
      (s.twin.paired = true → Yields .time s fun t => apart t ∧ t.twin.timeSeq = s.twin.timeSeq + 1 ∧ t.twin.timeSent = nowStamp s ∧ t.twin.txSeq = oneBlock) ∧
      (s.twin.paired = false → exec .time s = .next s))

/-- R422, R423, R424, R427, R428, R429, R432, R435: LOG_TRANSMIT sends a frame at the next ordinal when there is credit, and holds it without; BLOCK_RECEIVE takes good blocks in sequence and owes NAK for others;
LOG_APPLY applies the next ordinal and frees its blocks; WATERMARK reports what was consumed; DIGEST closes its interval and compares; a missing digest ends protection. -/
def Obligations.LogIsSentReceivedAndApplied : Prop :=
  ∀ (s : State) (port : PortNo) (r : RxFrame) (blk : List Byte) (x : RxEntry) (rest : List RxEntry) (k n : Nat) (h : Handle) (op : Nat) (c : Cmd) (st : Status) (rule : CmdRule),
    let p := port.val
    let apart := fun (t : State) => t.obj = s.obj ∧ t.media = s.media ∧ t.tim = s.tim ∧ t.hbm = s.hbm ∧ t.phys = s.phys ∧ t.video = s.video ∧ t.accord = s.accord
    let logged := fun (t : State) => portOf t p = { portOf s p with rx := takeFrame_ p (portOf s p).rx } ∧ t.twin.parseOrder = s.twin.parseOrder ++ [p] ∧
      ∀ q, q ≠ p → portOf t q = portOf s q
    let fits := s.twin.link = true ∧ msgBlocks (entryMsgs (s.twin.ordinal + 1) (.frame r) s).1 ≤ logCredit s.twin
    let got := (correctBlock (slice blk 0 448)).1
    let taken := fun (t : State) => t.twin.rxLog = rest ∧ t.twin.applied = x.ord + x.entry.ordinals - 1 ∧ t.twin.credit = s.twin.credit + BitVec.ofNat 16 x.blocks
    let base := freeBlocks x.blocks (setTwin (fun t => { t with rxLog := rest, applied := x.ord + x.entry.ordinals - 1 }) s)
    let freed := setTwin (fun t => { t with applying := true }) base
    let mine := s.twin.ownDigests ++ s.twin.forming.filter fun d => decide (d.tick = n)
    let bad := digestFault (mine.filter fun d => decide (d.tick = n)) (s.twin.peerDigests.filter fun d => decide (d.tick = n))
    Awake s →
    (s.twin.logging = false → exec (.logTransmit port) s = .next s) ∧
    (s.twin.logging = true → (portOf s p).rx.find? (fun r => !r.logged) = some r → s.twin.pend = [] →
      (isStub s r = true → Yields (.logTransmit port) s fun t => apart t ∧ logged t ∧ t.twin.pend = [.stub 1] ∧ t.twin.ordinal = s.twin.ordinal) ∧
      (isStub s r = false → fits → Yields (.logTransmit port) s fun t => apart t ∧ logged t ∧ t.twin.pend = [] ∧ t.twin.ordinal = s.twin.ordinal + 1) ∧
      (isStub s r = false → ¬ fits → exec (.logTransmit port) s = .next s)) ∧
    (s.twin.link = true → s.twin.state ≠ .faultStop →
      (blockGood got = false → Yields (.blockReceive blk) s fun t => apart t ∧ t.ports = s.ports ∧ t.twin = { s.twin with nak := true } ∧
        counterOf t (twnCtr 0x10C) = counterOf s (twnCtr 0x10C) + 1) ∧
      (blockGood got = true → (headOf got).bseq ≠ (s.twin.rxSeq + 1).toNat → Yields (.blockReceive blk) s fun t => apart t ∧ t.ports = s.ports ∧
        t.twin = { s.twin with nak := true }) ∧
      (blockGood got = true → (headOf got).bseq = (s.twin.rxSeq + 1).toNat → s.mon.softPending = none → (headOf got).idle = true →
        (headOf got).fault = false ∨ s.twin.rxLog = [] → Yields (.blockReceive blk) s fun t => t.twin.rxSeq = s.twin.rxSeq + 1 ∧ t.twin.peerState = BitVec.ofNat 3 (headOf got).state ∧
        counterOf t (twnCtr 0x104) = counterOf s (twnCtr 0x104) + 1 ∧ ((headOf got).hb = true → t.twin.hbMissed = 0) ∧
        ((headOf got).fault = true → s.twin.state = .standby → t.twin.state = .active ∧ t.twin.cause = 1) ∧
        ((headOf got).fault = true → s.twin.state = .syncing → t.twin.state = .withdrawn ∧ t.twin.cause = 1))) ∧
    (s.twin.link = false ∨ s.twin.state = .faultStop → exec (.blockReceive blk) s = .next s) ∧
    (s.twin.rxLog = [] ∨ followsLog s = false → exec .logApply s = .next s) ∧
    (s.twin.rxLog = x :: rest → followsLog s = true →
      (entryWaits s x.entry = true → exec .logApply s = .next s) ∧
      (x.entry = .stub k → s.media.inQ = [] → Yields .logApply s fun t => apart t ∧ t.ports = s.ports ∧ taken t) ∧
      (x.entry = .tick 0 0 k → Yields .logApply s fun t => t.media.tick = k ∧ taken t) ∧
      (x.entry = .command op c st → entryWaits s x.entry = false → ruleOf op = some rule → bodyCheck rule c base = none → hType c.object ≠ tySlot → s.media.inQ = [] →
        Yields .logApply s fun t => t.obj = (rule.effect c freed).2.obj ∧ t.mem = (rule.effect c freed).2.mem ∧ t.media = (rule.effect c freed).2.media) ∧
      (entryObject s x.entry = some h → s.twin.todoObjs.contains h = true →
        total (((s.twin.buffered ++ [(h, x)]).filter fun e => decide (e.1 = h)).map fun e => e.2.entry.size) ≤ 2 ^ 28 → Yields .logApply s fun t => apart t ∧ taken t ∧
        t.twin.buffered = s.twin.buffered ++ [(h, x)])) ∧
    (s.twin.state = .active → s.twin.prot = true → Yields (.watermark port) s fun t => apart t ∧
      portOf t p = { portOf s p with consumed := [], wmSeq := (portOf s p).wmSeq + 1 } ∧ ∀ q, q ≠ p → portOf t q = portOf s q) ∧
    (s.twin.state ≠ .active ∨ s.twin.prot = false → exec (.watermark port) s = .next s) ∧
    (s.twin.prot = false ∨ s.media.tick ≤ n ∨ s.twin.ownTicks.contains n = true → exec (.digest n) s = .next s) ∧
    (s.twin.prot = true → n < s.media.tick → s.twin.ownTicks = [] →
      (s.twin.peerTicks.contains n = false → Yields (.digest n) s fun t => apart t ∧ t.ports = s.ports ∧ t.twin.ownTicks = [n] ∧ t.twin.ownDigests = mine ∧
        t.twin.forming = s.twin.forming.filter fun d => decide (d.tick ≠ n)) ∧
      (s.twin.peerTicks.contains n = true → Yields (.digest n) s fun t => apart t ∧ t.ports = s.ports ∧
        (bad = none → t.twin.prot = true ∧ t.twin.ownTicks = [] ∧ t.twin.state = s.twin.state) ∧
        (bad ≠ none → t.twin.prot = false ∧ t.twin.divTick = BitVec.ofNat 32 n ∧ counterOf t (twnCtr 0x124) = counterOf s (twnCtr 0x124) + 1 ∧
          (followsLog s = true → t.twin.state = .withdrawn ∧ t.twin.cause = 4) ∧ (followsLog s = false → t.twin.state = s.twin.state)))) ∧
    (s.twin.prot = true → s.twin.ownTicks ≠ [] → Yields .digestTimeout s fun t => apart t ∧ t.ports = s.ports ∧ t.twin.prot = false ∧ t.twin.cause = 5 ∧
      t.twin.state = if followsLog s then .withdrawn else s.twin.state) ∧
    (s.twin.prot = false ∨ s.twin.ownTicks = [] → exec .digestTimeout s = .next s)

/-- R437, R438, R439, R440, R419, R414, R424, R442, R443, R444: when heartbeats and TWIN_LIVE_IN are gone, STANDBY becomes ACTIVE and sends its shadow packets, ACTIVE goes on unprotected and a resync ends; a lost link
and missing credit end protection and no role becomes ACTIVE; a planned switchover makes ACTIVE the STANDBY; a resync syncs its objects in order and ends in protection, where the lanes that work serve (R421). -/
def Obligations.ProtectionAndFailover : Prop :=
  ∀ (s : State) (level : Bool) (obj : Handle),
    let apart := fun (t : State) => t.obj = s.obj ∧ t.ports = s.ports ∧ t.media = s.media ∧ t.hbm = s.hbm ∧ t.phys = s.phys ∧ t.video = s.video ∧ t.accord = s.accord
    let unprotected := fun (t : State) => t.twin.prot = false ∧ t.twin.logging = false ∧ t.twin.pend = [] ∧ t.twin.resync = false
    let lost := fun (i : Instr) =>
      (s.twin.state = .standby → s.twin.rxLog = [] → Yields i s fun t => t.twin.state = .active ∧ t.twin.cause = 0 ∧ unprotected t ∧ t.tim.follow = false ∧
        t.twin.shadow = [] ∧ t.tim.c = s.tim.c ∧ t.tim.o = s.tim.o ∧ t.tim.r = s.tim.r ∧
        (∀ p, p < 8 → (portOf t p).rx = [] ∧ (portOf t p).pauseEnd = 0 ∧ ∀ f ∈ (portOf s p).tx, f ∈ (portOf t p).tx) ∧
        ∀ e ∈ s.twin.shadow, tgetD s.twin.confirmed e.stream 0 < e.number → e.frame ∈ (portOf t e.port.val).tx) ∧
      (s.twin.state = .syncing → Yields i s fun t => apart t ∧ t.twin.state = .withdrawn ∧ t.twin.cause = 0 ∧ unprotected t) ∧
      (s.twin.state = .active → s.twin.prot = true ∨ s.twin.logging = true → Yields i s fun t => apart t ∧ t.twin.state = .active ∧ t.twin.cause = 8 ∧ unprotected t) ∧
      (s.twin.state = .solo ∨ s.twin.state = .withdrawn ∨ s.twin.state = .faultStop → Yields i s fun t => apart t ∧ t.twin.state = s.twin.state ∧ t.twin.cause = s.twin.cause)
    Awake s →
    (s.twin.paired = true →
      (s.twin.liveIn = true ∨ s.twin.rxLog = [] → Yields .heartbeatTimeout s fun t => t.twin.hbMissed = 3 ∧ counterOf t (twnCtr 0x118) = counterOf s (twnCtr 0x118) + 3 ∧
        (s.twin.liveIn = true → apart t ∧ t.twin = { s.twin with hbMissed := 3 })) ∧
      (s.twin.liveIn = false → lost .heartbeatTimeout)) ∧
    (s.twin.paired = false → exec .heartbeatTimeout s = .next s) ∧
    (s.twin.hbMissed < 3 ∨ level = true → Yields (.twinLiveInChange level) s fun t => apart t ∧ t.hst = s.hst ∧ t.twin = { s.twin with liveIn := level }) ∧
    (3 ≤ s.twin.hbMissed → lost (.twinLiveInChange false)) ∧
    (s.twin.liveIn = true → Yields .linkLossTimeout s fun t => apart t ∧ t.twin.link = false ∧ t.twin.paired = false ∧
      (followsLog s = true → t.twin.state = .withdrawn ∧ t.twin.cause = 5 ∧ unprotected t) ∧
      (followsLog s = false → t.twin.state = s.twin.state) ∧
      (s.twin.state = .active → s.twin.prot = true ∨ s.twin.logging = true → t.twin.cause = 5 ∧ unprotected t)) ∧
    (s.twin.liveIn = false → exec .linkLossTimeout s = .next s) ∧
    (s.twin.logging = true → s.twin.pend ≠ [] → Yields .creditTimeout s fun t => apart t ∧ t.twin.cause = 6 ∧ unprotected t ∧ t.twin.state = s.twin.state) ∧
    (s.twin.logging = false ∨ s.twin.pend = [] → exec .creditTimeout s = .next s) ∧
    (s.twin.state = .active → s.twin.prot = true → s.twin.switchReq = true → logBusy s = false → s.twin.pend = [] → s.nose.waiting = [] → s.mon.softPending = none →
      Yields .plannedSwitchover s fun t => t.obj = s.obj ∧ t.media = s.media ∧ t.twin.state = .standby ∧ t.twin.cause = 2 ∧ t.twin.prot = true ∧ t.twin.logging = false ∧
        t.twin.switchReq = false ∧ t.twin.applied = s.twin.ordinal ∧ t.tim = { s.tim with follow := true } ∧
        ∀ p, p < 8 → (portOf t p).tx = [] ∧ (portOf t p).rx = [] ∧ (portOf t p).consumed = []) ∧
    (s.twin.state ≠ .active ∨ s.twin.prot = false ∨ s.twin.switchReq = false ∨ logBusy s = true → exec .plannedSwitchover s = .next s) ∧
    (s.twin.resync = true → s.twin.todoObjs.contains obj = true →
      (s.twin.state = .active → s.twin.logging = true → nextObject s ≠ some obj → exec (.resyncObjectSync obj) s = .next s) ∧
      (s.twin.state = .active → s.twin.logging = true → nextObject s = some obj → Yields (.resyncObjectSync obj) s fun t => apart t ∧ t.tim = s.tim ∧ t.twin.synced = s.twin.synced + 1 ∧
        t.twin.todoObjs = s.twin.todoObjs.filter (· != obj)) ∧
      (followsLog s = true → s.twin.readyObjs.contains obj = true → (∀ e ∈ s.twin.buffered, e.1 ≠ obj) → Yields (.resyncObjectSync obj) s fun t => apart t ∧
        t.twin.synced = s.twin.synced + 1 ∧ t.twin.todoObjs = s.twin.todoObjs.filter (· != obj) ∧ t.twin.buffered = s.twin.buffered)) ∧
    (s.twin.resync = false ∨ s.twin.todoObjs.contains obj = false → exec (.resyncObjectSync obj) s = .next s) ∧
    (s.twin.resync = true → allSynced s = true → s.twin.prot = false →
      (s.twin.state = .active → s.twin.logging = true → groupServes s = true → Yields .resyncComplete s fun t => t.obj = s.obj ∧ t.media = s.media ∧ t.tim = s.tim ∧ t.twin.state = .active ∧
        t.twin.prot = true ∧ t.twin.resync = false ∧ t.twin.duration = counterMs s - s.twin.syncStart) ∧
      (s.twin.state = .active → groupServes s = false → Yields .resyncComplete s fun t => apart t ∧ unprotected t ∧ t.twin.state = .active) ∧
      (s.twin.state = .syncing → groupServes s = false → Yields .resyncComplete s fun t => apart t ∧ unprotected t ∧ t.twin.state = .withdrawn ∧ t.twin.cause = 9) ∧
      (s.twin.state = .syncing → groupServes s = true → Yields .resyncComplete s fun t => t.obj = s.obj ∧ t.media = s.media ∧ t.tim = s.tim ∧ t.twin.state = .standby ∧
        t.twin.prot = true ∧ t.twin.resync = false ∧ t.twin.shadow = [])) ∧
    (s.twin.resync = false ∨ allSynced s = false → exec .resyncComplete s = .next s)

/-! ### Faults inside the device (R446) -/

/-- R446, R6, R322, R140, Table 16-11, on a device that no peer protects, and for the last three clauses on one of a pair: ENGINE_FAULT takes the engine, core, unit or pipeline out of service; a spare replaces a codec
engine; lost data is poisoned or its frame marked errored, the packet in a faulty datapath is dropped (which one: the model's choice, log entry 164), a slot emptied; uncorrectable tables and a failed stack stop the device; a follower withdraws, and a protected ACTIVE stops with its notice. -/
def Obligations.EngineFaultsAreHandled : Prop :=
  ∀ (s : State) (a slot n : Nat) (c : ClusterNo) (e : Fin 2) (core : CoreNo) (x : Fin 16) (y : Fin 8) (stack : StackNo) (k : KeySlot),
    let yields := fun (f : FaultReport) (p : State → Prop) => Yields (.engineFault f) s fun t => t.ports = s.ports ∧ t.tim = s.tim ∧ p t
    let out := fun (m : Nat) (t : State) => t.twin = s.twin ∧ m ∈ t.orgue.quarantined ∧ ∀ q ∈ s.orgue.quarantined, q ∈ t.orgue.quarantined
    let kept := fun (t : State) => t.twin = s.twin ∧ t.orgue = s.orgue ∧ t.obj = s.obj ∧ t.video = s.video
    let engine := fun (kind : Nat) (f : FaultReport) =>
      ((engines kind (vidCluster s c.val)).length = 2 → ((engines kind (vidCluster s c.val)).getD e.val {}).quar = false →
        ((vidCluster s c.val).spareKind = 0 → (vidCluster s c.val).spare.quar = false → yields f fun t => t.twin = s.twin ∧ t.orgue.quarantined = s.orgue.quarantined ∧
          ((engines kind (vidCluster t c.val)).getD e.val {}).quar = true ∧ (vidCluster t c.val).spareKind = kind ∧ (vidCluster t c.val).spareFor = 2 * c.val + e.val) ∧
        ((vidCluster s c.val).spareKind ≠ 0 ∨ (vidCluster s c.val).spare.quar = true → yields f fun t => out (engineNumber kind c.val e.val) t ∧
          ((engines kind (vidCluster t c.val)).getD e.val {}).quar = true ∧ (vidCluster t c.val).spare = (vidCluster s c.val).spare)) ∧
      (((engines kind (vidCluster s c.val)).getD e.val {}).quar = true → exec (.engineFault f) s = .next s)
    Awake s →
    (s.twin.state = .solo →
      engine 1 (.decodeEngine c ⟨e.val, by omega⟩) ∧ engine 2 (.encodeEngine c ⟨e.val, by omega⟩) ∧
      (yields (.sramCorrected a) fun t => kept t ∧ t.accord = s.accord ∧
        (scratchOf a = some n → counterOf t (accCtr n 0x100) = counterOf s (accCtr n 0x100) + 1)) ∧
      ((vidCluster s c.val).cmp.length = 2 → ((vidCluster s c.val).cmp.getD e.val {}).quar = false → yields (.composeEngine c e) fun t => out (32 + 2 * c.val + e.val) t ∧
        ((vidCluster t c.val).cmp.getD e.val {}).quar = true ∧ (vidCluster t c.val).dec = (vidCluster s c.val).dec) ∧
      (stitcherQuar s c.val = false → yields (.stitcher c) fun t => out (48 + c.val) t ∧ stitcherQuar t c.val = true) ∧
      (yields (.accordCore core) fun t => out (56 + core.val) t ∧ (accClusterOf t (core.val / 16)).coreQuar.getLsbD (core.val % 16) = true ∧
        ∀ m, m ≠ core.val / 16 → accClusterOf t m = accClusterOf s m) ∧
      ((accClusterOf s c.val).assistQuar = false → yields (.assist c) fun t => out (184 + c.val) t ∧ t.obj = s.obj ∧
        accClusterOf t c.val = { accClusterOf s c.val with assistQuar := true }) ∧
      (yields (.aesPipeline x) fun t => out (200 + x.val) t ∧ t.obj = s.obj ∧ t.media = s.media) ∧
      (yields (.sha1Engine y) fun t => out (216 + y.val) t ∧ t.obj = s.obj ∧ t.media = s.media) ∧
      (scratchOf a = some n → yields (.dataUncorrectable a) fun t => kept t ∧
        accClusterOf t n = { accClusterOf s n with poison := (accClusterOf s n).poison ++ [(a - 0x8000000) % 0x200000 / 4] }) ∧
      (scratchOf a = none → bufferAt a = none → yields (.dataUncorrectable a) fun t => kept t ∧ t.accord = s.accord) ∧
      (∀ b, bufferAt a = some b → Yields (.engineFault (.dataUncorrectable a)) s fun t => t.obj = s.obj ∧ t.tim = s.tim ∧ t.twin = s.twin ∧
        ∀ p : Nat, (portOf t p).rx.length = (portOf s p).rx.length ∧ ∀ r ∈ (portOf t p).rx, (∃ h ∈ r.bufs, h.toNat / 2 ^ 29 = b.1 ∧ h.toNat / 128 % 2 ^ 22 = b.2) →
          r.err = true) ∧
      (slotAt s slot = some k → yields (.keyStore slot) fun t => t.twin = s.twin ∧ t.obj.legs = s.obj.legs ∧ slotAt t slot = some (emptySlot k) ∧
        ∀ j, j ≠ slot → slotAt t j = slotAt s j) ∧
      (yields (.datapath .sillage) fun t => t.twin = s.twin ∧ t.obj = s.obj ∧ t.media = { s.media with egress := s.media.egress.drop 1 }) ∧
      (yields (.datapath .attar) fun t => t.twin = s.twin ∧ t.obj = s.obj ∧ t.media = { s.media with outQ := s.media.outQ.drop 1 }) ∧
      (∀ (p : PortNo) r l, (portOf s p.val).rx = r :: l → Yields (.engineFault (.datapath (.parser p))) s fun t => t.twin = s.twin ∧ t.obj = s.obj ∧
        (portOf t p.val).rx = { r with err := true } :: l) ∧
      (∀ (p : PortNo) r l, (portOf s p.val).rx = l ++ [r] → Yields (.engineFault (.datapath (.mac p))) s fun t => t.twin = s.twin ∧ t.obj = s.obj ∧
        (portOf t p.val).rx = l ++ [{ r with err := true }]) ∧
      (yields .noseCore fun t => t.twin = s.twin ∧ t.nose.restarts = s.nose.restarts + 1 ∧ t.nose.bulk = [] ∧ t.nose.waiting = [] ∧ t.obj.legs = s.obj.legs) ∧
      (yields .tables fun t => t.obj = s.obj ∧ t.twin.state = .faultStop ∧ t.twin.liveOut = false) ∧
      (yields (.hbmFailed stack) fun t => t.obj = s.obj ∧ t.twin.state = .faultStop ∧ (stackOf t stack.val).pcFailed = true)) ∧
    (followsLog s = true →
      (∀ u, yields (.datapath u) fun t => t.obj = s.obj ∧ t.twin.state = .withdrawn ∧ t.twin.cause = 3) ∧
      (yields .tables fun t => t.obj = s.obj ∧ t.twin.state = .faultStop ∧ t.twin.cause = 3)) ∧
    (∀ u, s.twin.state = .active → s.twin.prot = true → Yields (.engineFault (.datapath u)) s fun t => t.obj = s.obj ∧ t.tim = s.tim ∧ t.twin.state = .faultStop ∧ t.twin.cause = 3 ∧
      t.twin.liveOut = false ∧ t.twin.faultNote = true)

/-! ### The block as a whole -/

/-- The queue is first in, first out: a step takes the command at its front and is that command's exec on the state with the queue's rest. On an empty queue, out of reset, only the
Time Unit's counter advances, the tick of R393 (the model's choice, log entry 1), and in reset nothing happens. -/
def Obligations.StepRunsTheFrontCommand : Prop :=
  (∀ (c : Instr) (rest : List Instr) (s : State), step { s with pending := c :: rest } = exec c { s with pending := rest }) ∧
  (∀ s : State, s.pending = [] →
    (s.mon.inReset = true → step s = .next s) ∧
    (s.mon.inReset = false → ∃ t, step s = .next t ∧ t.tim.c = s.tim.c + 1 ∧ t = { s with tim := { s.tim with c := s.tim.c + 1 } }))

/-- R458, R480: every command answers a next state that keeps the queue, except that no rule applies to RESET_N's release with TEST_MODE high, where the step faults; and a device held in
reset takes nothing but what the AON domain takes. -/
def Obligations.CommandsCompleteAndResetHolds : Prop :=
  ∀ (i : Instr) (s : State),
    (i = .resetNRelease → s.mon.testMode = false) → (∃ t, exec i s = .next t ∧ t.pending = s.pending) ∧
    (s.mon.inReset = true → aonRow i = false → exec i s = .next s)

/-- R112, R501, R24, Table 17-2, Table 17-9: at reset the device stands in reset with tenant 0 alone, its 1,024 slots empty, no object, no ring, no counter, an empty queue and no service; the host memory, empty, is
in its canonical form. -/
def Obligations.ResetStateOfTheDevice : Prop :=
  let s := State.reset
  s.pending = [] ∧ s.mon.inReset = true ∧ s.nose.service = .off ∧ HostMemoryWf s ∧ s.hst.mem = [] ∧ s.hst.fns = [] ∧ s.counters = [] ∧ s.objCounters = [] ∧ s.ports = [] ∧
  s.obj.confs.live = [] ∧ s.obj.legs.live = [] ∧ s.obj.ins.live = [] ∧ s.obj.outs.live = [] ∧ s.obj.trunks.live = [] ∧ (s.obj.tenants.live.map (·.1)) = [0] ∧
  (∀ i, i < 1024 → (slotAt s i).map KeySlot.state = some .empty) ∧ (∀ i, 1024 ≤ i → slotAt s i = none) ∧ s.tim.c = 0 ∧ s.tim.stepped = false ∧
  s.mem.partition = [20480, 12288, 8192, 8192, 4096, 2048, 512, 512] ∧ (∀ n, (coreOf s n).pc = 0 ∧ (coreOf s n).user = false)

/-- The host memory keeps its canonical form over every step, from every state: addresses strictly rise, and no entry holds what an unlisted byte reads as. -/
def Obligations.StepKeepsHostMemoryCanonical : Prop :=
  ∀ (s t : State), HostMemoryWf s → step s = .next t → HostMemoryWf t

/-- R475: writing 1 to MON_OP_LOCK.LOCK sets the operator lock. While it is set, writes to MAC_LANE_MAP and MON_TEMP_WARN are discarded, and it stays set until a COLD or WARM reset (or the
loss of the AON supply), which clears it. -/
def Obligations.OperatorLockHolds : Prop :=
  ∀ (s : State) (w : Word) (n : Fin 4),
    (Awake s → Yields (.monOpLockSet w) s fun t => t = { s with mon := { s.mon with opLock := s.mon.opLock || w.getLsbD 0 } }) ∧
    (s.mon.opLock = true →
      exec (.macLaneMapWrite n w) s = .next s ∧
      (∀ (a size : Nat) (v : Word64) (t : State), exec (.registerWrite 0 a size v) s = .next t → t.mon.tempWarn = s.mon.tempWarn ∧
        t.mon.opLock = true ∧ ∀ m, (physOf t m).laneMap = (physOf s m).laneMap) ∧
      (∀ (i : Instr) (t : State), exec i s = .next t → wideReset i = false → t.mon.opLock = true)) ∧
    (∀ c, Yields (.coldReset c) s fun t => t.mon.opLock = false) ∧
    (Yields (.warmReset .hotReset) s fun t => t.mon.opLock = false) ∧ (Yields (.warmReset .linkDown) s fun t => t.mon.opLock = false) ∧
    (s.mon.pwrGood = true → Yields (.warmReset .perst) s fun t => t.mon.opLock = false)

/-- R393, R395, R397: no command writes the counter of the Time Unit but a reset, which sets it to 0; and of the host commands only TIME_STEP and TIME_RATE change what the
network time is computed from: offset O, rate R, slew rate S. -/
def Obligations.OnlyResetsWriteTheTimeCounter : Prop :=
  (∀ (i : Instr) (s t : State), exec i s = .next t → t.tim.c = s.tim.c ∨ t.tim.c = 0) ∧
  (∀ (i : Instr) (s t : State), exec i s = .next t → (hostRule? i).isSome = true → (∀ c, i ≠ .timeStep c ∧ i ≠ .timeRate c) → t.tim.o = s.tim.o ∧ t.tim.r = s.tim.r ∧ t.tim.s = s.tim.s ∧ t.tim.c = s.tim.c)
end

