-- ==== Sys2Proof/Laws/State.lean ====
section
/-! SUPPORT. The field laws of the named updates of State: each update leaves every part of the state that it does not name as it was. A lemma
holds one equation per field; simp uses each equation by itself. -/

namespace Sys2Proof.Machine

@[simp] theorem setAccCluster_fields (n : Nat) (c : AccCluster) (s : State) :
    (setAccCluster n c s).pending = s.pending ∧ (setAccCluster n c s).free = s.free ∧ (setAccCluster n c s).hst = s.hst ∧
    (setAccCluster n c s).nose = s.nose ∧ (setAccCluster n c s).obj = s.obj ∧ (setAccCluster n c s).ports = s.ports ∧
    (setAccCluster n c s).phys = s.phys ∧ (setAccCluster n c s).media = s.media ∧ (setAccCluster n c s).video = s.video ∧
    (setAccCluster n c s).mem = s.mem ∧ (setAccCluster n c s).hbm = s.hbm ∧ (setAccCluster n c s).orgue = s.orgue ∧
    (setAccCluster n c s).tim = s.tim ∧ (setAccCluster n c s).twin = s.twin ∧ (setAccCluster n c s).mon = s.mon ∧
    (setAccCluster n c s).counters = s.counters ∧ (setAccCluster n c s).objCounters = s.objCounters :=
  ⟨rfl, rfl, rfl, rfl, rfl, rfl, rfl, rfl, rfl, rfl, rfl, rfl, rfl, rfl, rfl, rfl, rfl⟩

@[simp] theorem setCore_fields (n : Nat) (c : Core) (s : State) :
    (setCore n c s).pending = s.pending ∧ (setCore n c s).free = s.free ∧ (setCore n c s).hst = s.hst ∧
    (setCore n c s).nose = s.nose ∧ (setCore n c s).obj = s.obj ∧ (setCore n c s).ports = s.ports ∧
    (setCore n c s).phys = s.phys ∧ (setCore n c s).media = s.media ∧ (setCore n c s).video = s.video ∧
    (setCore n c s).mem = s.mem ∧ (setCore n c s).hbm = s.hbm ∧ (setCore n c s).orgue = s.orgue ∧
    (setCore n c s).tim = s.tim ∧ (setCore n c s).twin = s.twin ∧ (setCore n c s).mon = s.mon ∧
    (setCore n c s).counters = s.counters ∧ (setCore n c s).objCounters = s.objCounters :=
  ⟨rfl, rfl, rfl, rfl, rfl, rfl, rfl, rfl, rfl, rfl, rfl, rfl, rfl, rfl, rfl, rfl, rfl⟩

@[simp] theorem setMon_fields (f : Mon → Mon) (s : State) :
    (setMon f s).pending = s.pending ∧ (setMon f s).free = s.free ∧ (setMon f s).hst = s.hst ∧
    (setMon f s).nose = s.nose ∧ (setMon f s).obj = s.obj ∧ (setMon f s).ports = s.ports ∧
    (setMon f s).phys = s.phys ∧ (setMon f s).media = s.media ∧ (setMon f s).video = s.video ∧
    (setMon f s).accord = s.accord ∧ (setMon f s).mem = s.mem ∧ (setMon f s).hbm = s.hbm ∧
    (setMon f s).orgue = s.orgue ∧ (setMon f s).tim = s.tim ∧ (setMon f s).twin = s.twin ∧
    (setMon f s).counters = s.counters ∧ (setMon f s).objCounters = s.objCounters :=
  ⟨rfl, rfl, rfl, rfl, rfl, rfl, rfl, rfl, rfl, rfl, rfl, rfl, rfl, rfl, rfl, rfl, rfl⟩

@[simp] theorem modVid_fields (n : Nat) (f : VidCluster → VidCluster) (s : State) :
    (modVid n f s).pending = s.pending ∧ (modVid n f s).free = s.free ∧ (modVid n f s).hst = s.hst ∧
    (modVid n f s).nose = s.nose ∧ (modVid n f s).obj = s.obj ∧ (modVid n f s).ports = s.ports ∧
    (modVid n f s).phys = s.phys ∧ (modVid n f s).media = s.media ∧ (modVid n f s).accord = s.accord ∧
    (modVid n f s).mem = s.mem ∧ (modVid n f s).hbm = s.hbm ∧ (modVid n f s).orgue = s.orgue ∧
    (modVid n f s).tim = s.tim ∧ (modVid n f s).twin = s.twin ∧ (modVid n f s).mon = s.mon ∧
    (modVid n f s).counters = s.counters ∧ (modVid n f s).objCounters = s.objCounters :=
  ⟨rfl, rfl, rfl, rfl, rfl, rfl, rfl, rfl, rfl, rfl, rfl, rfl, rfl, rfl, rfl, rfl, rfl⟩

@[simp] theorem modStack_fields (n : Nat) (f : Stack → Stack) (s : State) :
    (modStack n f s).pending = s.pending ∧ (modStack n f s).free = s.free ∧ (modStack n f s).hst = s.hst ∧
    (modStack n f s).nose = s.nose ∧ (modStack n f s).obj = s.obj ∧ (modStack n f s).ports = s.ports ∧
    (modStack n f s).phys = s.phys ∧ (modStack n f s).media = s.media ∧ (modStack n f s).video = s.video ∧
    (modStack n f s).accord = s.accord ∧ (modStack n f s).mem = s.mem ∧ (modStack n f s).orgue = s.orgue ∧
    (modStack n f s).tim = s.tim ∧ (modStack n f s).twin = s.twin ∧ (modStack n f s).mon = s.mon ∧
    (modStack n f s).counters = s.counters ∧ (modStack n f s).objCounters = s.objCounters :=
  ⟨rfl, rfl, rfl, rfl, rfl, rfl, rfl, rfl, rfl, rfl, rfl, rfl, rfl, rfl, rfl, rfl, rfl⟩

@[simp] theorem modPc_fields (p : Nat) (f : Pc → Pc) (s : State) :
    (modPc p f s).pending = s.pending ∧ (modPc p f s).free = s.free ∧ (modPc p f s).hst = s.hst ∧
    (modPc p f s).nose = s.nose ∧ (modPc p f s).obj = s.obj ∧ (modPc p f s).ports = s.ports ∧
    (modPc p f s).phys = s.phys ∧ (modPc p f s).media = s.media ∧ (modPc p f s).video = s.video ∧
    (modPc p f s).accord = s.accord ∧ (modPc p f s).mem = s.mem ∧ (modPc p f s).orgue = s.orgue ∧
    (modPc p f s).tim = s.tim ∧ (modPc p f s).twin = s.twin ∧ (modPc p f s).mon = s.mon ∧
    (modPc p f s).counters = s.counters ∧ (modPc p f s).objCounters = s.objCounters :=
  ⟨rfl, rfl, rfl, rfl, rfl, rfl, rfl, rfl, rfl, rfl, rfl, rfl, rfl, rfl, rfl, rfl, rfl⟩

@[simp] theorem setTwin_fields (f : Twin → Twin) (s : State) :
    (setTwin f s).pending = s.pending ∧ (setTwin f s).free = s.free ∧ (setTwin f s).hst = s.hst ∧
    (setTwin f s).nose = s.nose ∧ (setTwin f s).obj = s.obj ∧ (setTwin f s).ports = s.ports ∧
    (setTwin f s).phys = s.phys ∧ (setTwin f s).media = s.media ∧ (setTwin f s).video = s.video ∧
    (setTwin f s).accord = s.accord ∧ (setTwin f s).mem = s.mem ∧ (setTwin f s).hbm = s.hbm ∧
    (setTwin f s).orgue = s.orgue ∧ (setTwin f s).tim = s.tim ∧ (setTwin f s).mon = s.mon ∧
    (setTwin f s).counters = s.counters ∧ (setTwin f s).objCounters = s.objCounters :=
  ⟨rfl, rfl, rfl, rfl, rfl, rfl, rfl, rfl, rfl, rfl, rfl, rfl, rfl, rfl, rfl, rfl, rfl⟩

@[simp] theorem setFn_fields (n : Nat) (p : HstFn) (s : State) :
    (setFn n p s).pending = s.pending ∧ (setFn n p s).free = s.free ∧ (setFn n p s).nose = s.nose ∧
    (setFn n p s).obj = s.obj ∧ (setFn n p s).ports = s.ports ∧ (setFn n p s).phys = s.phys ∧
    (setFn n p s).media = s.media ∧ (setFn n p s).video = s.video ∧ (setFn n p s).accord = s.accord ∧
    (setFn n p s).mem = s.mem ∧ (setFn n p s).hbm = s.hbm ∧ (setFn n p s).orgue = s.orgue ∧
    (setFn n p s).tim = s.tim ∧ (setFn n p s).twin = s.twin ∧ (setFn n p s).mon = s.mon ∧
    (setFn n p s).counters = s.counters ∧ (setFn n p s).objCounters = s.objCounters :=
  ⟨rfl, rfl, rfl, rfl, rfl, rfl, rfl, rfl, rfl, rfl, rfl, rfl, rfl, rfl, rfl, rfl, rfl⟩

@[simp] theorem modFn_fields (n : Nat) (f : HstFn → HstFn) (s : State) :
    (modFn n f s).pending = s.pending ∧ (modFn n f s).free = s.free ∧ (modFn n f s).nose = s.nose ∧
    (modFn n f s).obj = s.obj ∧ (modFn n f s).ports = s.ports ∧ (modFn n f s).phys = s.phys ∧
    (modFn n f s).media = s.media ∧ (modFn n f s).video = s.video ∧ (modFn n f s).accord = s.accord ∧
    (modFn n f s).mem = s.mem ∧ (modFn n f s).hbm = s.hbm ∧ (modFn n f s).orgue = s.orgue ∧
    (modFn n f s).tim = s.tim ∧ (modFn n f s).twin = s.twin ∧ (modFn n f s).mon = s.mon ∧
    (modFn n f s).counters = s.counters ∧ (modFn n f s).objCounters = s.objCounters :=
  ⟨rfl, rfl, rfl, rfl, rfl, rfl, rfl, rfl, rfl, rfl, rfl, rfl, rfl, rfl, rfl, rfl, rfl⟩

@[simp] theorem setRing_fields (f n : Nat) (r : Ring) (s : State) :
    (setRing f n r s).pending = s.pending ∧ (setRing f n r s).free = s.free ∧ (setRing f n r s).nose = s.nose ∧
    (setRing f n r s).obj = s.obj ∧ (setRing f n r s).ports = s.ports ∧ (setRing f n r s).phys = s.phys ∧
    (setRing f n r s).media = s.media ∧ (setRing f n r s).video = s.video ∧ (setRing f n r s).accord = s.accord ∧
    (setRing f n r s).mem = s.mem ∧ (setRing f n r s).hbm = s.hbm ∧ (setRing f n r s).orgue = s.orgue ∧
    (setRing f n r s).tim = s.tim ∧ (setRing f n r s).twin = s.twin ∧ (setRing f n r s).mon = s.mon ∧
    (setRing f n r s).counters = s.counters ∧ (setRing f n r s).objCounters = s.objCounters :=
  ⟨rfl, rfl, rfl, rfl, rfl, rfl, rfl, rfl, rfl, rfl, rfl, rfl, rfl, rfl, rfl, rfl, rfl⟩

@[simp] theorem setVector_fields (f n : Nat) (v : Vector) (s : State) :
    (setVector f n v s).pending = s.pending ∧ (setVector f n v s).free = s.free ∧ (setVector f n v s).nose = s.nose ∧
    (setVector f n v s).obj = s.obj ∧ (setVector f n v s).ports = s.ports ∧ (setVector f n v s).phys = s.phys ∧
    (setVector f n v s).media = s.media ∧ (setVector f n v s).video = s.video ∧ (setVector f n v s).accord = s.accord ∧
    (setVector f n v s).mem = s.mem ∧ (setVector f n v s).hbm = s.hbm ∧ (setVector f n v s).orgue = s.orgue ∧
    (setVector f n v s).tim = s.tim ∧ (setVector f n v s).twin = s.twin ∧ (setVector f n v s).mon = s.mon ∧
    (setVector f n v s).counters = s.counters ∧ (setVector f n v s).objCounters = s.objCounters :=
  ⟨rfl, rfl, rfl, rfl, rfl, rfl, rfl, rfl, rfl, rfl, rfl, rfl, rfl, rfl, rfl, rfl, rfl⟩

@[simp] theorem noteEntry_fields (f n : Nat) (s : State) :
    (noteEntry f n s).pending = s.pending ∧ (noteEntry f n s).free = s.free ∧ (noteEntry f n s).nose = s.nose ∧
    (noteEntry f n s).obj = s.obj ∧ (noteEntry f n s).ports = s.ports ∧ (noteEntry f n s).phys = s.phys ∧
    (noteEntry f n s).media = s.media ∧ (noteEntry f n s).video = s.video ∧ (noteEntry f n s).accord = s.accord ∧
    (noteEntry f n s).mem = s.mem ∧ (noteEntry f n s).hbm = s.hbm ∧ (noteEntry f n s).orgue = s.orgue ∧
    (noteEntry f n s).tim = s.tim ∧ (noteEntry f n s).twin = s.twin ∧ (noteEntry f n s).mon = s.mon ∧
    (noteEntry f n s).counters = s.counters ∧ (noteEntry f n s).objCounters = s.objCounters :=
  ⟨rfl, rfl, rfl, rfl, rfl, rfl, rfl, rfl, rfl, rfl, rfl, rfl, rfl, rfl, rfl, rfl, rfl⟩

@[simp] theorem badAccess_fields (f : Nat) (s : State) :
    (badAccess f s).pending = s.pending ∧ (badAccess f s).free = s.free ∧ (badAccess f s).nose = s.nose ∧
    (badAccess f s).obj = s.obj ∧ (badAccess f s).ports = s.ports ∧ (badAccess f s).phys = s.phys ∧
    (badAccess f s).media = s.media ∧ (badAccess f s).video = s.video ∧ (badAccess f s).accord = s.accord ∧
    (badAccess f s).mem = s.mem ∧ (badAccess f s).hbm = s.hbm ∧ (badAccess f s).orgue = s.orgue ∧
    (badAccess f s).tim = s.tim ∧ (badAccess f s).twin = s.twin ∧ (badAccess f s).mon = s.mon ∧
    (badAccess f s).counters = s.counters ∧ (badAccess f s).objCounters = s.objCounters :=
  ⟨rfl, rfl, rfl, rfl, rfl, rfl, rfl, rfl, rfl, rfl, rfl, rfl, rfl, rfl, rfl, rfl, rfl⟩

@[simp] theorem isoViolation_fields (f : Nat) (s : State) :
    (isoViolation f s).pending = s.pending ∧ (isoViolation f s).free = s.free ∧ (isoViolation f s).nose = s.nose ∧
    (isoViolation f s).obj = s.obj ∧ (isoViolation f s).ports = s.ports ∧ (isoViolation f s).phys = s.phys ∧
    (isoViolation f s).media = s.media ∧ (isoViolation f s).video = s.video ∧ (isoViolation f s).accord = s.accord ∧
    (isoViolation f s).mem = s.mem ∧ (isoViolation f s).hbm = s.hbm ∧ (isoViolation f s).orgue = s.orgue ∧
    (isoViolation f s).tim = s.tim ∧ (isoViolation f s).twin = s.twin ∧ (isoViolation f s).mon = s.mon ∧
    (isoViolation f s).counters = s.counters ∧ (isoViolation f s).objCounters = s.objCounters :=
  ⟨rfl, rfl, rfl, rfl, rfl, rfl, rfl, rfl, rfl, rfl, rfl, rfl, rfl, rfl, rfl, rfl, rfl⟩

@[simp] theorem hostWrite_fields (a : Nat) (bs : List Byte) (s : State) :
    (hostWrite a bs s).pending = s.pending ∧ (hostWrite a bs s).free = s.free ∧ (hostWrite a bs s).nose = s.nose ∧
    (hostWrite a bs s).obj = s.obj ∧ (hostWrite a bs s).ports = s.ports ∧ (hostWrite a bs s).phys = s.phys ∧
    (hostWrite a bs s).media = s.media ∧ (hostWrite a bs s).video = s.video ∧ (hostWrite a bs s).accord = s.accord ∧
    (hostWrite a bs s).mem = s.mem ∧ (hostWrite a bs s).hbm = s.hbm ∧ (hostWrite a bs s).orgue = s.orgue ∧
    (hostWrite a bs s).tim = s.tim ∧ (hostWrite a bs s).twin = s.twin ∧ (hostWrite a bs s).mon = s.mon ∧
    (hostWrite a bs s).counters = s.counters ∧ (hostWrite a bs s).objCounters = s.objCounters :=
  ⟨rfl, rfl, rfl, rfl, rfl, rfl, rfl, rfl, rfl, rfl, rfl, rfl, rfl, rfl, rfl, rfl, rfl⟩

@[simp] theorem countObj_fields (g : Nat) (h : Handle) (i n : Nat) (s : State) :
    (countObj g h i n s).pending = s.pending ∧ (countObj g h i n s).free = s.free ∧ (countObj g h i n s).hst = s.hst ∧
    (countObj g h i n s).nose = s.nose ∧ (countObj g h i n s).obj = s.obj ∧ (countObj g h i n s).ports = s.ports ∧
    (countObj g h i n s).phys = s.phys ∧ (countObj g h i n s).media = s.media ∧ (countObj g h i n s).video = s.video ∧
    (countObj g h i n s).accord = s.accord ∧ (countObj g h i n s).mem = s.mem ∧ (countObj g h i n s).hbm = s.hbm ∧
    (countObj g h i n s).orgue = s.orgue ∧ (countObj g h i n s).tim = s.tim ∧ (countObj g h i n s).twin = s.twin ∧
    (countObj g h i n s).mon = s.mon ∧ (countObj g h i n s).counters = s.counters :=
  ⟨rfl, rfl, rfl, rfl, rfl, rfl, rfl, rfl, rfl, rfl, rfl, rfl, rfl, rfl, rfl, rfl, rfl⟩

@[simp] theorem putObj_fields (g : Nat) (h : Handle) (i v : Nat) (s : State) :
    (putObj g h i v s).pending = s.pending ∧ (putObj g h i v s).free = s.free ∧ (putObj g h i v s).hst = s.hst ∧
    (putObj g h i v s).nose = s.nose ∧ (putObj g h i v s).obj = s.obj ∧ (putObj g h i v s).ports = s.ports ∧
    (putObj g h i v s).phys = s.phys ∧ (putObj g h i v s).media = s.media ∧ (putObj g h i v s).video = s.video ∧
    (putObj g h i v s).accord = s.accord ∧ (putObj g h i v s).mem = s.mem ∧ (putObj g h i v s).hbm = s.hbm ∧
    (putObj g h i v s).orgue = s.orgue ∧ (putObj g h i v s).tim = s.tim ∧ (putObj g h i v s).twin = s.twin ∧
    (putObj g h i v s).mon = s.mon ∧ (putObj g h i v s).counters = s.counters :=
  ⟨rfl, rfl, rfl, rfl, rfl, rfl, rfl, rfl, rfl, rfl, rfl, rfl, rfl, rfl, rfl, rfl, rfl⟩

@[simp] theorem dropObj_fields (h : Handle) (s : State) :
    (dropObj h s).pending = s.pending ∧ (dropObj h s).free = s.free ∧ (dropObj h s).hst = s.hst ∧
    (dropObj h s).nose = s.nose ∧ (dropObj h s).obj = s.obj ∧ (dropObj h s).ports = s.ports ∧
    (dropObj h s).phys = s.phys ∧ (dropObj h s).media = s.media ∧ (dropObj h s).video = s.video ∧
    (dropObj h s).accord = s.accord ∧ (dropObj h s).mem = s.mem ∧ (dropObj h s).hbm = s.hbm ∧
    (dropObj h s).orgue = s.orgue ∧ (dropObj h s).tim = s.tim ∧ (dropObj h s).twin = s.twin ∧
    (dropObj h s).mon = s.mon ∧ (dropObj h s).counters = s.counters :=
  ⟨rfl, rfl, rfl, rfl, rfl, rfl, rfl, rfl, rfl, rfl, rfl, rfl, rfl, rfl, rfl, rfl, rfl⟩

@[simp] theorem setTenants_fields (f : ObjTbl Tenant → ObjTbl Tenant) (s : State) :
    (setTenants f s).pending = s.pending ∧ (setTenants f s).free = s.free ∧ (setTenants f s).hst = s.hst ∧
    (setTenants f s).nose = s.nose ∧ (setTenants f s).ports = s.ports ∧ (setTenants f s).phys = s.phys ∧
    (setTenants f s).media = s.media ∧ (setTenants f s).video = s.video ∧ (setTenants f s).accord = s.accord ∧
    (setTenants f s).mem = s.mem ∧ (setTenants f s).hbm = s.hbm ∧ (setTenants f s).orgue = s.orgue ∧
    (setTenants f s).tim = s.tim ∧ (setTenants f s).twin = s.twin ∧ (setTenants f s).mon = s.mon ∧
    (setTenants f s).counters = s.counters ∧ (setTenants f s).objCounters = s.objCounters :=
  ⟨rfl, rfl, rfl, rfl, rfl, rfl, rfl, rfl, rfl, rfl, rfl, rfl, rfl, rfl, rfl, rfl, rfl⟩

@[simp] theorem setConfs_fields (f : ObjTbl Conf → ObjTbl Conf) (s : State) :
    (setConfs f s).pending = s.pending ∧ (setConfs f s).free = s.free ∧ (setConfs f s).hst = s.hst ∧
    (setConfs f s).nose = s.nose ∧ (setConfs f s).ports = s.ports ∧ (setConfs f s).phys = s.phys ∧
    (setConfs f s).media = s.media ∧ (setConfs f s).video = s.video ∧ (setConfs f s).accord = s.accord ∧
    (setConfs f s).mem = s.mem ∧ (setConfs f s).hbm = s.hbm ∧ (setConfs f s).orgue = s.orgue ∧
    (setConfs f s).tim = s.tim ∧ (setConfs f s).twin = s.twin ∧ (setConfs f s).mon = s.mon ∧
    (setConfs f s).counters = s.counters ∧ (setConfs f s).objCounters = s.objCounters :=
  ⟨rfl, rfl, rfl, rfl, rfl, rfl, rfl, rfl, rfl, rfl, rfl, rfl, rfl, rfl, rfl, rfl, rfl⟩

@[simp] theorem setLegs_fields (f : ObjTbl Leg → ObjTbl Leg) (s : State) :
    (setLegs f s).pending = s.pending ∧ (setLegs f s).free = s.free ∧ (setLegs f s).hst = s.hst ∧
    (setLegs f s).nose = s.nose ∧ (setLegs f s).ports = s.ports ∧ (setLegs f s).phys = s.phys ∧
    (setLegs f s).media = s.media ∧ (setLegs f s).video = s.video ∧ (setLegs f s).accord = s.accord ∧
    (setLegs f s).mem = s.mem ∧ (setLegs f s).hbm = s.hbm ∧ (setLegs f s).orgue = s.orgue ∧
    (setLegs f s).tim = s.tim ∧ (setLegs f s).twin = s.twin ∧ (setLegs f s).mon = s.mon ∧
    (setLegs f s).counters = s.counters ∧ (setLegs f s).objCounters = s.objCounters :=
  ⟨rfl, rfl, rfl, rfl, rfl, rfl, rfl, rfl, rfl, rfl, rfl, rfl, rfl, rfl, rfl, rfl, rfl⟩

@[simp] theorem setIns_fields (f : ObjTbl InStream → ObjTbl InStream) (s : State) :
    (setIns f s).pending = s.pending ∧ (setIns f s).free = s.free ∧ (setIns f s).hst = s.hst ∧
    (setIns f s).nose = s.nose ∧ (setIns f s).ports = s.ports ∧ (setIns f s).phys = s.phys ∧
    (setIns f s).media = s.media ∧ (setIns f s).video = s.video ∧ (setIns f s).accord = s.accord ∧
    (setIns f s).mem = s.mem ∧ (setIns f s).hbm = s.hbm ∧ (setIns f s).orgue = s.orgue ∧
    (setIns f s).tim = s.tim ∧ (setIns f s).twin = s.twin ∧ (setIns f s).mon = s.mon ∧
    (setIns f s).counters = s.counters ∧ (setIns f s).objCounters = s.objCounters :=
  ⟨rfl, rfl, rfl, rfl, rfl, rfl, rfl, rfl, rfl, rfl, rfl, rfl, rfl, rfl, rfl, rfl, rfl⟩

@[simp] theorem setOuts_fields (f : ObjTbl OutStream → ObjTbl OutStream) (s : State) :
    (setOuts f s).pending = s.pending ∧ (setOuts f s).free = s.free ∧ (setOuts f s).hst = s.hst ∧
    (setOuts f s).nose = s.nose ∧ (setOuts f s).ports = s.ports ∧ (setOuts f s).phys = s.phys ∧
    (setOuts f s).media = s.media ∧ (setOuts f s).video = s.video ∧ (setOuts f s).accord = s.accord ∧
    (setOuts f s).mem = s.mem ∧ (setOuts f s).hbm = s.hbm ∧ (setOuts f s).orgue = s.orgue ∧
    (setOuts f s).tim = s.tim ∧ (setOuts f s).twin = s.twin ∧ (setOuts f s).mon = s.mon ∧
    (setOuts f s).counters = s.counters ∧ (setOuts f s).objCounters = s.objCounters :=
  ⟨rfl, rfl, rfl, rfl, rfl, rfl, rfl, rfl, rfl, rfl, rfl, rfl, rfl, rfl, rfl, rfl, rfl⟩

@[simp] theorem setLayouts_fields (f : ObjTbl Layout → ObjTbl Layout) (s : State) :
    (setLayouts f s).pending = s.pending ∧ (setLayouts f s).free = s.free ∧ (setLayouts f s).hst = s.hst ∧
    (setLayouts f s).nose = s.nose ∧ (setLayouts f s).ports = s.ports ∧ (setLayouts f s).phys = s.phys ∧
    (setLayouts f s).media = s.media ∧ (setLayouts f s).video = s.video ∧ (setLayouts f s).accord = s.accord ∧
    (setLayouts f s).mem = s.mem ∧ (setLayouts f s).hbm = s.hbm ∧ (setLayouts f s).orgue = s.orgue ∧
    (setLayouts f s).tim = s.tim ∧ (setLayouts f s).twin = s.twin ∧ (setLayouts f s).mon = s.mon ∧
    (setLayouts f s).counters = s.counters ∧ (setLayouts f s).objCounters = s.objCounters :=
  ⟨rfl, rfl, rfl, rfl, rfl, rfl, rfl, rfl, rfl, rfl, rfl, rfl, rfl, rfl, rfl, rfl, rfl⟩

@[simp] theorem setMixes_fields (f : ObjTbl Mix → ObjTbl Mix) (s : State) :
    (setMixes f s).pending = s.pending ∧ (setMixes f s).free = s.free ∧ (setMixes f s).hst = s.hst ∧
    (setMixes f s).nose = s.nose ∧ (setMixes f s).ports = s.ports ∧ (setMixes f s).phys = s.phys ∧
    (setMixes f s).media = s.media ∧ (setMixes f s).video = s.video ∧ (setMixes f s).accord = s.accord ∧
    (setMixes f s).mem = s.mem ∧ (setMixes f s).hbm = s.hbm ∧ (setMixes f s).orgue = s.orgue ∧
    (setMixes f s).tim = s.tim ∧ (setMixes f s).twin = s.twin ∧ (setMixes f s).mon = s.mon ∧
    (setMixes f s).counters = s.counters ∧ (setMixes f s).objCounters = s.objCounters :=
  ⟨rfl, rfl, rfl, rfl, rfl, rfl, rfl, rfl, rfl, rfl, rfl, rfl, rfl, rfl, rfl, rfl, rfl⟩

@[simp] theorem setTilesets_fields (f : ObjTbl TileSet → ObjTbl TileSet) (s : State) :
    (setTilesets f s).pending = s.pending ∧ (setTilesets f s).free = s.free ∧ (setTilesets f s).hst = s.hst ∧
    (setTilesets f s).nose = s.nose ∧ (setTilesets f s).ports = s.ports ∧ (setTilesets f s).phys = s.phys ∧
    (setTilesets f s).media = s.media ∧ (setTilesets f s).video = s.video ∧ (setTilesets f s).accord = s.accord ∧
    (setTilesets f s).mem = s.mem ∧ (setTilesets f s).hbm = s.hbm ∧ (setTilesets f s).orgue = s.orgue ∧
    (setTilesets f s).tim = s.tim ∧ (setTilesets f s).twin = s.twin ∧ (setTilesets f s).mon = s.mon ∧
    (setTilesets f s).counters = s.counters ∧ (setTilesets f s).objCounters = s.objCounters :=
  ⟨rfl, rfl, rfl, rfl, rfl, rfl, rfl, rfl, rfl, rfl, rfl, rfl, rfl, rfl, rfl, rfl, rfl⟩

@[simp] theorem setSlots_fields (f : ObjTbl KeySlot → ObjTbl KeySlot) (s : State) :
    (setSlots f s).pending = s.pending ∧ (setSlots f s).free = s.free ∧ (setSlots f s).hst = s.hst ∧
    (setSlots f s).nose = s.nose ∧ (setSlots f s).ports = s.ports ∧ (setSlots f s).phys = s.phys ∧
    (setSlots f s).media = s.media ∧ (setSlots f s).video = s.video ∧ (setSlots f s).accord = s.accord ∧
    (setSlots f s).mem = s.mem ∧ (setSlots f s).hbm = s.hbm ∧ (setSlots f s).orgue = s.orgue ∧
    (setSlots f s).tim = s.tim ∧ (setSlots f s).twin = s.twin ∧ (setSlots f s).mon = s.mon ∧
    (setSlots f s).counters = s.counters ∧ (setSlots f s).objCounters = s.objCounters :=
  ⟨rfl, rfl, rfl, rfl, rfl, rfl, rfl, rfl, rfl, rfl, rfl, rfl, rfl, rfl, rfl, rfl, rfl⟩

@[simp] theorem setTrunks_fields (f : ObjTbl Trunk → ObjTbl Trunk) (s : State) :
    (setTrunks f s).pending = s.pending ∧ (setTrunks f s).free = s.free ∧ (setTrunks f s).hst = s.hst ∧
    (setTrunks f s).nose = s.nose ∧ (setTrunks f s).ports = s.ports ∧ (setTrunks f s).phys = s.phys ∧
    (setTrunks f s).media = s.media ∧ (setTrunks f s).video = s.video ∧ (setTrunks f s).accord = s.accord ∧
    (setTrunks f s).mem = s.mem ∧ (setTrunks f s).hbm = s.hbm ∧ (setTrunks f s).orgue = s.orgue ∧
    (setTrunks f s).tim = s.tim ∧ (setTrunks f s).twin = s.twin ∧ (setTrunks f s).mon = s.mon ∧
    (setTrunks f s).counters = s.counters ∧ (setTrunks f s).objCounters = s.objCounters :=
  ⟨rfl, rfl, rfl, rfl, rfl, rfl, rfl, rfl, rfl, rfl, rfl, rfl, rfl, rfl, rfl, rfl, rfl⟩

@[simp] theorem setImages_fields (f : ObjTbl Image → ObjTbl Image) (s : State) :
    (setImages f s).pending = s.pending ∧ (setImages f s).free = s.free ∧ (setImages f s).hst = s.hst ∧
    (setImages f s).nose = s.nose ∧ (setImages f s).ports = s.ports ∧ (setImages f s).phys = s.phys ∧
    (setImages f s).media = s.media ∧ (setImages f s).video = s.video ∧ (setImages f s).accord = s.accord ∧
    (setImages f s).mem = s.mem ∧ (setImages f s).hbm = s.hbm ∧ (setImages f s).orgue = s.orgue ∧
    (setImages f s).tim = s.tim ∧ (setImages f s).twin = s.twin ∧ (setImages f s).mon = s.mon ∧
    (setImages f s).counters = s.counters ∧ (setImages f s).objCounters = s.objCounters :=
  ⟨rfl, rfl, rfl, rfl, rfl, rfl, rfl, rfl, rfl, rfl, rfl, rfl, rfl, rfl, rfl, rfl, rfl⟩

@[simp] theorem setEncs_fields (f : ObjTbl EncCtx → ObjTbl EncCtx) (s : State) :
    (setEncs f s).pending = s.pending ∧ (setEncs f s).free = s.free ∧ (setEncs f s).hst = s.hst ∧
    (setEncs f s).nose = s.nose ∧ (setEncs f s).ports = s.ports ∧ (setEncs f s).phys = s.phys ∧
    (setEncs f s).media = s.media ∧ (setEncs f s).video = s.video ∧ (setEncs f s).accord = s.accord ∧
    (setEncs f s).mem = s.mem ∧ (setEncs f s).hbm = s.hbm ∧ (setEncs f s).orgue = s.orgue ∧
    (setEncs f s).tim = s.tim ∧ (setEncs f s).twin = s.twin ∧ (setEncs f s).mon = s.mon ∧
    (setEncs f s).counters = s.counters ∧ (setEncs f s).objCounters = s.objCounters :=
  ⟨rfl, rfl, rfl, rfl, rfl, rfl, rfl, rfl, rfl, rfl, rfl, rfl, rfl, rfl, rfl, rfl, rfl⟩

@[simp] theorem updTenant_fields (i : Nat) (f : Tenant → Tenant) (s : State) :
    (updTenant i f s).pending = s.pending ∧ (updTenant i f s).free = s.free ∧ (updTenant i f s).hst = s.hst ∧
    (updTenant i f s).nose = s.nose ∧ (updTenant i f s).ports = s.ports ∧ (updTenant i f s).phys = s.phys ∧
    (updTenant i f s).media = s.media ∧ (updTenant i f s).video = s.video ∧ (updTenant i f s).accord = s.accord ∧
    (updTenant i f s).mem = s.mem ∧ (updTenant i f s).hbm = s.hbm ∧ (updTenant i f s).orgue = s.orgue ∧
    (updTenant i f s).tim = s.tim ∧ (updTenant i f s).twin = s.twin ∧ (updTenant i f s).mon = s.mon ∧
    (updTenant i f s).counters = s.counters ∧ (updTenant i f s).objCounters = s.objCounters :=
  ⟨rfl, rfl, rfl, rfl, rfl, rfl, rfl, rfl, rfl, rfl, rfl, rfl, rfl, rfl, rfl, rfl, rfl⟩

@[simp] theorem updConf_fields (i : Nat) (f : Conf → Conf) (s : State) :
    (updConf i f s).pending = s.pending ∧ (updConf i f s).free = s.free ∧ (updConf i f s).hst = s.hst ∧
    (updConf i f s).nose = s.nose ∧ (updConf i f s).ports = s.ports ∧ (updConf i f s).phys = s.phys ∧
    (updConf i f s).media = s.media ∧ (updConf i f s).video = s.video ∧ (updConf i f s).accord = s.accord ∧
    (updConf i f s).mem = s.mem ∧ (updConf i f s).hbm = s.hbm ∧ (updConf i f s).orgue = s.orgue ∧
    (updConf i f s).tim = s.tim ∧ (updConf i f s).twin = s.twin ∧ (updConf i f s).mon = s.mon ∧
    (updConf i f s).counters = s.counters ∧ (updConf i f s).objCounters = s.objCounters :=
  ⟨rfl, rfl, rfl, rfl, rfl, rfl, rfl, rfl, rfl, rfl, rfl, rfl, rfl, rfl, rfl, rfl, rfl⟩

@[simp] theorem updLeg_fields (i : Nat) (f : Leg → Leg) (s : State) :
    (updLeg i f s).pending = s.pending ∧ (updLeg i f s).free = s.free ∧ (updLeg i f s).hst = s.hst ∧
    (updLeg i f s).nose = s.nose ∧ (updLeg i f s).ports = s.ports ∧ (updLeg i f s).phys = s.phys ∧
    (updLeg i f s).media = s.media ∧ (updLeg i f s).video = s.video ∧ (updLeg i f s).accord = s.accord ∧
    (updLeg i f s).mem = s.mem ∧ (updLeg i f s).hbm = s.hbm ∧ (updLeg i f s).orgue = s.orgue ∧
    (updLeg i f s).tim = s.tim ∧ (updLeg i f s).twin = s.twin ∧ (updLeg i f s).mon = s.mon ∧
    (updLeg i f s).counters = s.counters ∧ (updLeg i f s).objCounters = s.objCounters :=
  ⟨rfl, rfl, rfl, rfl, rfl, rfl, rfl, rfl, rfl, rfl, rfl, rfl, rfl, rfl, rfl, rfl, rfl⟩

@[simp] theorem updIn_fields (i : Nat) (f : InStream → InStream) (s : State) :
    (updIn i f s).pending = s.pending ∧ (updIn i f s).free = s.free ∧ (updIn i f s).hst = s.hst ∧
    (updIn i f s).nose = s.nose ∧ (updIn i f s).ports = s.ports ∧ (updIn i f s).phys = s.phys ∧
    (updIn i f s).media = s.media ∧ (updIn i f s).video = s.video ∧ (updIn i f s).accord = s.accord ∧
    (updIn i f s).mem = s.mem ∧ (updIn i f s).hbm = s.hbm ∧ (updIn i f s).orgue = s.orgue ∧
    (updIn i f s).tim = s.tim ∧ (updIn i f s).twin = s.twin ∧ (updIn i f s).mon = s.mon ∧
    (updIn i f s).counters = s.counters ∧ (updIn i f s).objCounters = s.objCounters :=
  ⟨rfl, rfl, rfl, rfl, rfl, rfl, rfl, rfl, rfl, rfl, rfl, rfl, rfl, rfl, rfl, rfl, rfl⟩

@[simp] theorem updOut_fields (i : Nat) (f : OutStream → OutStream) (s : State) :
    (updOut i f s).pending = s.pending ∧ (updOut i f s).free = s.free ∧ (updOut i f s).hst = s.hst ∧
    (updOut i f s).nose = s.nose ∧ (updOut i f s).ports = s.ports ∧ (updOut i f s).phys = s.phys ∧
    (updOut i f s).media = s.media ∧ (updOut i f s).video = s.video ∧ (updOut i f s).accord = s.accord ∧
    (updOut i f s).mem = s.mem ∧ (updOut i f s).hbm = s.hbm ∧ (updOut i f s).orgue = s.orgue ∧
    (updOut i f s).tim = s.tim ∧ (updOut i f s).twin = s.twin ∧ (updOut i f s).mon = s.mon ∧
    (updOut i f s).counters = s.counters ∧ (updOut i f s).objCounters = s.objCounters :=
  ⟨rfl, rfl, rfl, rfl, rfl, rfl, rfl, rfl, rfl, rfl, rfl, rfl, rfl, rfl, rfl, rfl, rfl⟩

@[simp] theorem updLayout_fields (i : Nat) (f : Layout → Layout) (s : State) :
    (updLayout i f s).pending = s.pending ∧ (updLayout i f s).free = s.free ∧ (updLayout i f s).hst = s.hst ∧
    (updLayout i f s).nose = s.nose ∧ (updLayout i f s).ports = s.ports ∧ (updLayout i f s).phys = s.phys ∧
    (updLayout i f s).media = s.media ∧ (updLayout i f s).video = s.video ∧ (updLayout i f s).accord = s.accord ∧
    (updLayout i f s).mem = s.mem ∧ (updLayout i f s).hbm = s.hbm ∧ (updLayout i f s).orgue = s.orgue ∧
    (updLayout i f s).tim = s.tim ∧ (updLayout i f s).twin = s.twin ∧ (updLayout i f s).mon = s.mon ∧
    (updLayout i f s).counters = s.counters ∧ (updLayout i f s).objCounters = s.objCounters :=
  ⟨rfl, rfl, rfl, rfl, rfl, rfl, rfl, rfl, rfl, rfl, rfl, rfl, rfl, rfl, rfl, rfl, rfl⟩

@[simp] theorem updMix_fields (i : Nat) (f : Mix → Mix) (s : State) :
    (updMix i f s).pending = s.pending ∧ (updMix i f s).free = s.free ∧ (updMix i f s).hst = s.hst ∧
    (updMix i f s).nose = s.nose ∧ (updMix i f s).ports = s.ports ∧ (updMix i f s).phys = s.phys ∧
    (updMix i f s).media = s.media ∧ (updMix i f s).video = s.video ∧ (updMix i f s).accord = s.accord ∧
    (updMix i f s).mem = s.mem ∧ (updMix i f s).hbm = s.hbm ∧ (updMix i f s).orgue = s.orgue ∧
    (updMix i f s).tim = s.tim ∧ (updMix i f s).twin = s.twin ∧ (updMix i f s).mon = s.mon ∧
    (updMix i f s).counters = s.counters ∧ (updMix i f s).objCounters = s.objCounters :=
  ⟨rfl, rfl, rfl, rfl, rfl, rfl, rfl, rfl, rfl, rfl, rfl, rfl, rfl, rfl, rfl, rfl, rfl⟩

@[simp] theorem updTileset_fields (i : Nat) (f : TileSet → TileSet) (s : State) :
    (updTileset i f s).pending = s.pending ∧ (updTileset i f s).free = s.free ∧ (updTileset i f s).hst = s.hst ∧
    (updTileset i f s).nose = s.nose ∧ (updTileset i f s).ports = s.ports ∧ (updTileset i f s).phys = s.phys ∧
    (updTileset i f s).media = s.media ∧ (updTileset i f s).video = s.video ∧ (updTileset i f s).accord = s.accord ∧
    (updTileset i f s).mem = s.mem ∧ (updTileset i f s).hbm = s.hbm ∧ (updTileset i f s).orgue = s.orgue ∧
    (updTileset i f s).tim = s.tim ∧ (updTileset i f s).twin = s.twin ∧ (updTileset i f s).mon = s.mon ∧
    (updTileset i f s).counters = s.counters ∧ (updTileset i f s).objCounters = s.objCounters :=
  ⟨rfl, rfl, rfl, rfl, rfl, rfl, rfl, rfl, rfl, rfl, rfl, rfl, rfl, rfl, rfl, rfl, rfl⟩

@[simp] theorem updSlot_fields (i : Nat) (f : KeySlot → KeySlot) (s : State) :
    (updSlot i f s).pending = s.pending ∧ (updSlot i f s).free = s.free ∧ (updSlot i f s).hst = s.hst ∧
    (updSlot i f s).nose = s.nose ∧ (updSlot i f s).ports = s.ports ∧ (updSlot i f s).phys = s.phys ∧
    (updSlot i f s).media = s.media ∧ (updSlot i f s).video = s.video ∧ (updSlot i f s).accord = s.accord ∧
    (updSlot i f s).mem = s.mem ∧ (updSlot i f s).hbm = s.hbm ∧ (updSlot i f s).orgue = s.orgue ∧
    (updSlot i f s).tim = s.tim ∧ (updSlot i f s).twin = s.twin ∧ (updSlot i f s).mon = s.mon ∧
    (updSlot i f s).counters = s.counters ∧ (updSlot i f s).objCounters = s.objCounters :=
  ⟨rfl, rfl, rfl, rfl, rfl, rfl, rfl, rfl, rfl, rfl, rfl, rfl, rfl, rfl, rfl, rfl, rfl⟩

@[simp] theorem updTrunk_fields (i : Nat) (f : Trunk → Trunk) (s : State) :
    (updTrunk i f s).pending = s.pending ∧ (updTrunk i f s).free = s.free ∧ (updTrunk i f s).hst = s.hst ∧
    (updTrunk i f s).nose = s.nose ∧ (updTrunk i f s).ports = s.ports ∧ (updTrunk i f s).phys = s.phys ∧
    (updTrunk i f s).media = s.media ∧ (updTrunk i f s).video = s.video ∧ (updTrunk i f s).accord = s.accord ∧
    (updTrunk i f s).mem = s.mem ∧ (updTrunk i f s).hbm = s.hbm ∧ (updTrunk i f s).orgue = s.orgue ∧
    (updTrunk i f s).tim = s.tim ∧ (updTrunk i f s).twin = s.twin ∧ (updTrunk i f s).mon = s.mon ∧
    (updTrunk i f s).counters = s.counters ∧ (updTrunk i f s).objCounters = s.objCounters :=
  ⟨rfl, rfl, rfl, rfl, rfl, rfl, rfl, rfl, rfl, rfl, rfl, rfl, rfl, rfl, rfl, rfl, rfl⟩

@[simp] theorem updImage_fields (i : Nat) (f : Image → Image) (s : State) :
    (updImage i f s).pending = s.pending ∧ (updImage i f s).free = s.free ∧ (updImage i f s).hst = s.hst ∧
    (updImage i f s).nose = s.nose ∧ (updImage i f s).ports = s.ports ∧ (updImage i f s).phys = s.phys ∧
    (updImage i f s).media = s.media ∧ (updImage i f s).video = s.video ∧ (updImage i f s).accord = s.accord ∧
    (updImage i f s).mem = s.mem ∧ (updImage i f s).hbm = s.hbm ∧ (updImage i f s).orgue = s.orgue ∧
    (updImage i f s).tim = s.tim ∧ (updImage i f s).twin = s.twin ∧ (updImage i f s).mon = s.mon ∧
    (updImage i f s).counters = s.counters ∧ (updImage i f s).objCounters = s.objCounters :=
  ⟨rfl, rfl, rfl, rfl, rfl, rfl, rfl, rfl, rfl, rfl, rfl, rfl, rfl, rfl, rfl, rfl, rfl⟩

@[simp] theorem updEnc_fields (i : Nat) (f : EncCtx → EncCtx) (s : State) :
    (updEnc i f s).pending = s.pending ∧ (updEnc i f s).free = s.free ∧ (updEnc i f s).hst = s.hst ∧
    (updEnc i f s).nose = s.nose ∧ (updEnc i f s).ports = s.ports ∧ (updEnc i f s).phys = s.phys ∧
    (updEnc i f s).media = s.media ∧ (updEnc i f s).video = s.video ∧ (updEnc i f s).accord = s.accord ∧
    (updEnc i f s).mem = s.mem ∧ (updEnc i f s).hbm = s.hbm ∧ (updEnc i f s).orgue = s.orgue ∧
    (updEnc i f s).tim = s.tim ∧ (updEnc i f s).twin = s.twin ∧ (updEnc i f s).mon = s.mon ∧
    (updEnc i f s).counters = s.counters ∧ (updEnc i f s).objCounters = s.objCounters :=
  ⟨rfl, rfl, rfl, rfl, rfl, rfl, rfl, rfl, rfl, rfl, rfl, rfl, rfl, rfl, rfl, rfl, rfl⟩

@[simp] theorem modPort_fields (p : Nat) (f : Port → Port) (s : State) :
    (modPort p f s).pending = s.pending ∧ (modPort p f s).free = s.free ∧ (modPort p f s).hst = s.hst ∧
    (modPort p f s).nose = s.nose ∧ (modPort p f s).obj = s.obj ∧ (modPort p f s).phys = s.phys ∧
    (modPort p f s).media = s.media ∧ (modPort p f s).video = s.video ∧ (modPort p f s).accord = s.accord ∧
    (modPort p f s).mem = s.mem ∧ (modPort p f s).hbm = s.hbm ∧ (modPort p f s).orgue = s.orgue ∧
    (modPort p f s).tim = s.tim ∧ (modPort p f s).twin = s.twin ∧ (modPort p f s).mon = s.mon ∧
    (modPort p f s).counters = s.counters ∧ (modPort p f s).objCounters = s.objCounters :=
  ⟨rfl, rfl, rfl, rfl, rfl, rfl, rfl, rfl, rfl, rfl, rfl, rfl, rfl, rfl, rfl, rfl, rfl⟩

@[simp] theorem setTask_fields (n : Nat) (t : Task) (s : State) :
    (setTask n t s).pending = s.pending ∧ (setTask n t s).free = s.free ∧ (setTask n t s).hst = s.hst ∧
    (setTask n t s).nose = s.nose ∧ (setTask n t s).obj = s.obj ∧ (setTask n t s).ports = s.ports ∧
    (setTask n t s).phys = s.phys ∧ (setTask n t s).media = s.media ∧ (setTask n t s).video = s.video ∧
    (setTask n t s).accord = s.accord ∧ (setTask n t s).mem = s.mem ∧ (setTask n t s).hbm = s.hbm ∧
    (setTask n t s).tim = s.tim ∧ (setTask n t s).twin = s.twin ∧ (setTask n t s).mon = s.mon ∧
    (setTask n t s).counters = s.counters ∧ (setTask n t s).objCounters = s.objCounters :=
  ⟨rfl, rfl, rfl, rfl, rfl, rfl, rfl, rfl, rfl, rfl, rfl, rfl, rfl, rfl, rfl, rfl, rfl⟩

@[simp] theorem setQueue_fields (n : Nat) (q : SpillQ) (s : State) :
    (setQueue n q s).pending = s.pending ∧ (setQueue n q s).free = s.free ∧ (setQueue n q s).hst = s.hst ∧
    (setQueue n q s).nose = s.nose ∧ (setQueue n q s).obj = s.obj ∧ (setQueue n q s).ports = s.ports ∧
    (setQueue n q s).phys = s.phys ∧ (setQueue n q s).media = s.media ∧ (setQueue n q s).video = s.video ∧
    (setQueue n q s).accord = s.accord ∧ (setQueue n q s).hbm = s.hbm ∧ (setQueue n q s).orgue = s.orgue ∧
    (setQueue n q s).tim = s.tim ∧ (setQueue n q s).twin = s.twin ∧ (setQueue n q s).mon = s.mon ∧
    (setQueue n q s).counters = s.counters ∧ (setQueue n q s).objCounters = s.objCounters :=
  ⟨rfl, rfl, rfl, rfl, rfl, rfl, rfl, rfl, rfl, rfl, rfl, rfl, rfl, rfl, rfl, rfl, rfl⟩

@[simp] theorem takeEgress_fields (p : EgPkt) (s : State) :
    (takeEgress p s).pending = s.pending ∧ (takeEgress p s).free = s.free ∧ (takeEgress p s).hst = s.hst ∧
    (takeEgress p s).nose = s.nose ∧ (takeEgress p s).obj = s.obj ∧ (takeEgress p s).ports = s.ports ∧
    (takeEgress p s).phys = s.phys ∧ (takeEgress p s).video = s.video ∧ (takeEgress p s).accord = s.accord ∧
    (takeEgress p s).mem = s.mem ∧ (takeEgress p s).hbm = s.hbm ∧ (takeEgress p s).orgue = s.orgue ∧
    (takeEgress p s).tim = s.tim ∧ (takeEgress p s).twin = s.twin ∧ (takeEgress p s).mon = s.mon ∧
    (takeEgress p s).counters = s.counters ∧ (takeEgress p s).objCounters = s.objCounters :=
  ⟨rfl, rfl, rfl, rfl, rfl, rfl, rfl, rfl, rfl, rfl, rfl, rfl, rfl, rfl, rfl, rfl, rfl⟩

@[simp] theorem setTim_fields (f : Tim → Tim) (s : State) :
    (setTim f s).pending = s.pending ∧ (setTim f s).free = s.free ∧ (setTim f s).hst = s.hst ∧
    (setTim f s).nose = s.nose ∧ (setTim f s).obj = s.obj ∧ (setTim f s).ports = s.ports ∧
    (setTim f s).phys = s.phys ∧ (setTim f s).media = s.media ∧ (setTim f s).video = s.video ∧
    (setTim f s).accord = s.accord ∧ (setTim f s).mem = s.mem ∧ (setTim f s).hbm = s.hbm ∧
    (setTim f s).orgue = s.orgue ∧ (setTim f s).twin = s.twin ∧ (setTim f s).mon = s.mon ∧
    (setTim f s).counters = s.counters ∧ (setTim f s).objCounters = s.objCounters :=
  ⟨rfl, rfl, rfl, rfl, rfl, rfl, rfl, rfl, rfl, rfl, rfl, rfl, rfl, rfl, rfl, rfl, rfl⟩

@[simp] theorem setTenants_parts (f : ObjTbl Tenant → ObjTbl Tenant) (s : State) :
    (setTenants f s).obj.tenants = f s.obj.tenants ∧
    (setTenants f s).obj.confs = s.obj.confs ∧ (setTenants f s).obj.legs = s.obj.legs ∧ (setTenants f s).obj.ins = s.obj.ins ∧
    (setTenants f s).obj.outs = s.obj.outs ∧ (setTenants f s).obj.layouts = s.obj.layouts ∧ (setTenants f s).obj.mixes = s.obj.mixes ∧
    (setTenants f s).obj.tilesets = s.obj.tilesets ∧ (setTenants f s).obj.slots = s.obj.slots ∧ (setTenants f s).obj.trunks = s.obj.trunks ∧
    (setTenants f s).obj.images = s.obj.images ∧ (setTenants f s).obj.encs = s.obj.encs :=
  ⟨rfl, rfl, rfl, rfl, rfl, rfl, rfl, rfl, rfl, rfl, rfl, rfl⟩

@[simp] theorem setConfs_parts (f : ObjTbl Conf → ObjTbl Conf) (s : State) :
    (setConfs f s).obj.confs = f s.obj.confs ∧
    (setConfs f s).obj.tenants = s.obj.tenants ∧ (setConfs f s).obj.legs = s.obj.legs ∧ (setConfs f s).obj.ins = s.obj.ins ∧
    (setConfs f s).obj.outs = s.obj.outs ∧ (setConfs f s).obj.layouts = s.obj.layouts ∧ (setConfs f s).obj.mixes = s.obj.mixes ∧
    (setConfs f s).obj.tilesets = s.obj.tilesets ∧ (setConfs f s).obj.slots = s.obj.slots ∧ (setConfs f s).obj.trunks = s.obj.trunks ∧
    (setConfs f s).obj.images = s.obj.images ∧ (setConfs f s).obj.encs = s.obj.encs :=
  ⟨rfl, rfl, rfl, rfl, rfl, rfl, rfl, rfl, rfl, rfl, rfl, rfl⟩

@[simp] theorem setLegs_parts (f : ObjTbl Leg → ObjTbl Leg) (s : State) :
    (setLegs f s).obj.legs = f s.obj.legs ∧
    (setLegs f s).obj.tenants = s.obj.tenants ∧ (setLegs f s).obj.confs = s.obj.confs ∧ (setLegs f s).obj.ins = s.obj.ins ∧
    (setLegs f s).obj.outs = s.obj.outs ∧ (setLegs f s).obj.layouts = s.obj.layouts ∧ (setLegs f s).obj.mixes = s.obj.mixes ∧
    (setLegs f s).obj.tilesets = s.obj.tilesets ∧ (setLegs f s).obj.slots = s.obj.slots ∧ (setLegs f s).obj.trunks = s.obj.trunks ∧
    (setLegs f s).obj.images = s.obj.images ∧ (setLegs f s).obj.encs = s.obj.encs :=
  ⟨rfl, rfl, rfl, rfl, rfl, rfl, rfl, rfl, rfl, rfl, rfl, rfl⟩

@[simp] theorem setIns_parts (f : ObjTbl InStream → ObjTbl InStream) (s : State) :
    (setIns f s).obj.ins = f s.obj.ins ∧
    (setIns f s).obj.tenants = s.obj.tenants ∧ (setIns f s).obj.confs = s.obj.confs ∧ (setIns f s).obj.legs = s.obj.legs ∧
    (setIns f s).obj.outs = s.obj.outs ∧ (setIns f s).obj.layouts = s.obj.layouts ∧ (setIns f s).obj.mixes = s.obj.mixes ∧
    (setIns f s).obj.tilesets = s.obj.tilesets ∧ (setIns f s).obj.slots = s.obj.slots ∧ (setIns f s).obj.trunks = s.obj.trunks ∧
    (setIns f s).obj.images = s.obj.images ∧ (setIns f s).obj.encs = s.obj.encs :=
  ⟨rfl, rfl, rfl, rfl, rfl, rfl, rfl, rfl, rfl, rfl, rfl, rfl⟩

@[simp] theorem setOuts_parts (f : ObjTbl OutStream → ObjTbl OutStream) (s : State) :
    (setOuts f s).obj.outs = f s.obj.outs ∧
    (setOuts f s).obj.tenants = s.obj.tenants ∧ (setOuts f s).obj.confs = s.obj.confs ∧ (setOuts f s).obj.legs = s.obj.legs ∧
    (setOuts f s).obj.ins = s.obj.ins ∧ (setOuts f s).obj.layouts = s.obj.layouts ∧ (setOuts f s).obj.mixes = s.obj.mixes ∧
    (setOuts f s).obj.tilesets = s.obj.tilesets ∧ (setOuts f s).obj.slots = s.obj.slots ∧ (setOuts f s).obj.trunks = s.obj.trunks ∧
    (setOuts f s).obj.images = s.obj.images ∧ (setOuts f s).obj.encs = s.obj.encs :=
  ⟨rfl, rfl, rfl, rfl, rfl, rfl, rfl, rfl, rfl, rfl, rfl, rfl⟩

@[simp] theorem setLayouts_parts (f : ObjTbl Layout → ObjTbl Layout) (s : State) :
    (setLayouts f s).obj.layouts = f s.obj.layouts ∧
    (setLayouts f s).obj.tenants = s.obj.tenants ∧ (setLayouts f s).obj.confs = s.obj.confs ∧ (setLayouts f s).obj.legs = s.obj.legs ∧
    (setLayouts f s).obj.ins = s.obj.ins ∧ (setLayouts f s).obj.outs = s.obj.outs ∧ (setLayouts f s).obj.mixes = s.obj.mixes ∧
    (setLayouts f s).obj.tilesets = s.obj.tilesets ∧ (setLayouts f s).obj.slots = s.obj.slots ∧ (setLayouts f s).obj.trunks = s.obj.trunks ∧
    (setLayouts f s).obj.images = s.obj.images ∧ (setLayouts f s).obj.encs = s.obj.encs :=
  ⟨rfl, rfl, rfl, rfl, rfl, rfl, rfl, rfl, rfl, rfl, rfl, rfl⟩

@[simp] theorem setMixes_parts (f : ObjTbl Mix → ObjTbl Mix) (s : State) :
    (setMixes f s).obj.mixes = f s.obj.mixes ∧
    (setMixes f s).obj.tenants = s.obj.tenants ∧ (setMixes f s).obj.confs = s.obj.confs ∧ (setMixes f s).obj.legs = s.obj.legs ∧
    (setMixes f s).obj.ins = s.obj.ins ∧ (setMixes f s).obj.outs = s.obj.outs ∧ (setMixes f s).obj.layouts = s.obj.layouts ∧
    (setMixes f s).obj.tilesets = s.obj.tilesets ∧ (setMixes f s).obj.slots = s.obj.slots ∧ (setMixes f s).obj.trunks = s.obj.trunks ∧
    (setMixes f s).obj.images = s.obj.images ∧ (setMixes f s).obj.encs = s.obj.encs :=
  ⟨rfl, rfl, rfl, rfl, rfl, rfl, rfl, rfl, rfl, rfl, rfl, rfl⟩

@[simp] theorem setTilesets_parts (f : ObjTbl TileSet → ObjTbl TileSet) (s : State) :
    (setTilesets f s).obj.tilesets = f s.obj.tilesets ∧
    (setTilesets f s).obj.tenants = s.obj.tenants ∧ (setTilesets f s).obj.confs = s.obj.confs ∧ (setTilesets f s).obj.legs = s.obj.legs ∧
    (setTilesets f s).obj.ins = s.obj.ins ∧ (setTilesets f s).obj.outs = s.obj.outs ∧ (setTilesets f s).obj.layouts = s.obj.layouts ∧
    (setTilesets f s).obj.mixes = s.obj.mixes ∧ (setTilesets f s).obj.slots = s.obj.slots ∧ (setTilesets f s).obj.trunks = s.obj.trunks ∧
    (setTilesets f s).obj.images = s.obj.images ∧ (setTilesets f s).obj.encs = s.obj.encs :=
  ⟨rfl, rfl, rfl, rfl, rfl, rfl, rfl, rfl, rfl, rfl, rfl, rfl⟩

@[simp] theorem setSlots_parts (f : ObjTbl KeySlot → ObjTbl KeySlot) (s : State) :
    (setSlots f s).obj.slots = f s.obj.slots ∧
    (setSlots f s).obj.tenants = s.obj.tenants ∧ (setSlots f s).obj.confs = s.obj.confs ∧ (setSlots f s).obj.legs = s.obj.legs ∧
    (setSlots f s).obj.ins = s.obj.ins ∧ (setSlots f s).obj.outs = s.obj.outs ∧ (setSlots f s).obj.layouts = s.obj.layouts ∧
    (setSlots f s).obj.mixes = s.obj.mixes ∧ (setSlots f s).obj.tilesets = s.obj.tilesets ∧ (setSlots f s).obj.trunks = s.obj.trunks ∧
    (setSlots f s).obj.images = s.obj.images ∧ (setSlots f s).obj.encs = s.obj.encs :=
  ⟨rfl, rfl, rfl, rfl, rfl, rfl, rfl, rfl, rfl, rfl, rfl, rfl⟩

@[simp] theorem setTrunks_parts (f : ObjTbl Trunk → ObjTbl Trunk) (s : State) :
    (setTrunks f s).obj.trunks = f s.obj.trunks ∧
    (setTrunks f s).obj.tenants = s.obj.tenants ∧ (setTrunks f s).obj.confs = s.obj.confs ∧ (setTrunks f s).obj.legs = s.obj.legs ∧
    (setTrunks f s).obj.ins = s.obj.ins ∧ (setTrunks f s).obj.outs = s.obj.outs ∧ (setTrunks f s).obj.layouts = s.obj.layouts ∧
    (setTrunks f s).obj.mixes = s.obj.mixes ∧ (setTrunks f s).obj.tilesets = s.obj.tilesets ∧ (setTrunks f s).obj.slots = s.obj.slots ∧
    (setTrunks f s).obj.images = s.obj.images ∧ (setTrunks f s).obj.encs = s.obj.encs :=
  ⟨rfl, rfl, rfl, rfl, rfl, rfl, rfl, rfl, rfl, rfl, rfl, rfl⟩

@[simp] theorem setImages_parts (f : ObjTbl Image → ObjTbl Image) (s : State) :
    (setImages f s).obj.images = f s.obj.images ∧
    (setImages f s).obj.tenants = s.obj.tenants ∧ (setImages f s).obj.confs = s.obj.confs ∧ (setImages f s).obj.legs = s.obj.legs ∧
    (setImages f s).obj.ins = s.obj.ins ∧ (setImages f s).obj.outs = s.obj.outs ∧ (setImages f s).obj.layouts = s.obj.layouts ∧
    (setImages f s).obj.mixes = s.obj.mixes ∧ (setImages f s).obj.tilesets = s.obj.tilesets ∧ (setImages f s).obj.slots = s.obj.slots ∧
    (setImages f s).obj.trunks = s.obj.trunks ∧ (setImages f s).obj.encs = s.obj.encs :=
  ⟨rfl, rfl, rfl, rfl, rfl, rfl, rfl, rfl, rfl, rfl, rfl, rfl⟩

@[simp] theorem setEncs_parts (f : ObjTbl EncCtx → ObjTbl EncCtx) (s : State) :
    (setEncs f s).obj.encs = f s.obj.encs ∧
    (setEncs f s).obj.tenants = s.obj.tenants ∧ (setEncs f s).obj.confs = s.obj.confs ∧ (setEncs f s).obj.legs = s.obj.legs ∧
    (setEncs f s).obj.ins = s.obj.ins ∧ (setEncs f s).obj.outs = s.obj.outs ∧ (setEncs f s).obj.layouts = s.obj.layouts ∧
    (setEncs f s).obj.mixes = s.obj.mixes ∧ (setEncs f s).obj.tilesets = s.obj.tilesets ∧ (setEncs f s).obj.slots = s.obj.slots ∧
    (setEncs f s).obj.trunks = s.obj.trunks ∧ (setEncs f s).obj.images = s.obj.images :=
  ⟨rfl, rfl, rfl, rfl, rfl, rfl, rfl, rfl, rfl, rfl, rfl, rfl⟩

@[simp] theorem updTenant_parts (i : Nat) (f : Tenant → Tenant) (s : State) :
    (updTenant i f s).obj.tenants = s.obj.tenants.upd i f ∧
    (updTenant i f s).obj.confs = s.obj.confs ∧ (updTenant i f s).obj.legs = s.obj.legs ∧ (updTenant i f s).obj.ins = s.obj.ins ∧
    (updTenant i f s).obj.outs = s.obj.outs ∧ (updTenant i f s).obj.layouts = s.obj.layouts ∧ (updTenant i f s).obj.mixes = s.obj.mixes ∧
    (updTenant i f s).obj.tilesets = s.obj.tilesets ∧ (updTenant i f s).obj.slots = s.obj.slots ∧ (updTenant i f s).obj.trunks = s.obj.trunks ∧
    (updTenant i f s).obj.images = s.obj.images ∧ (updTenant i f s).obj.encs = s.obj.encs :=
  ⟨rfl, rfl, rfl, rfl, rfl, rfl, rfl, rfl, rfl, rfl, rfl, rfl⟩

@[simp] theorem updConf_parts (i : Nat) (f : Conf → Conf) (s : State) :
    (updConf i f s).obj.confs = s.obj.confs.upd i f ∧
    (updConf i f s).obj.tenants = s.obj.tenants ∧ (updConf i f s).obj.legs = s.obj.legs ∧ (updConf i f s).obj.ins = s.obj.ins ∧
    (updConf i f s).obj.outs = s.obj.outs ∧ (updConf i f s).obj.layouts = s.obj.layouts ∧ (updConf i f s).obj.mixes = s.obj.mixes ∧
    (updConf i f s).obj.tilesets = s.obj.tilesets ∧ (updConf i f s).obj.slots = s.obj.slots ∧ (updConf i f s).obj.trunks = s.obj.trunks ∧
    (updConf i f s).obj.images = s.obj.images ∧ (updConf i f s).obj.encs = s.obj.encs :=
  ⟨rfl, rfl, rfl, rfl, rfl, rfl, rfl, rfl, rfl, rfl, rfl, rfl⟩

@[simp] theorem updLeg_parts (i : Nat) (f : Leg → Leg) (s : State) :
    (updLeg i f s).obj.legs = s.obj.legs.upd i f ∧
    (updLeg i f s).obj.tenants = s.obj.tenants ∧ (updLeg i f s).obj.confs = s.obj.confs ∧ (updLeg i f s).obj.ins = s.obj.ins ∧
    (updLeg i f s).obj.outs = s.obj.outs ∧ (updLeg i f s).obj.layouts = s.obj.layouts ∧ (updLeg i f s).obj.mixes = s.obj.mixes ∧
    (updLeg i f s).obj.tilesets = s.obj.tilesets ∧ (updLeg i f s).obj.slots = s.obj.slots ∧ (updLeg i f s).obj.trunks = s.obj.trunks ∧
    (updLeg i f s).obj.images = s.obj.images ∧ (updLeg i f s).obj.encs = s.obj.encs :=
  ⟨rfl, rfl, rfl, rfl, rfl, rfl, rfl, rfl, rfl, rfl, rfl, rfl⟩

@[simp] theorem updIn_parts (i : Nat) (f : InStream → InStream) (s : State) :
    (updIn i f s).obj.ins = s.obj.ins.upd i f ∧
    (updIn i f s).obj.tenants = s.obj.tenants ∧ (updIn i f s).obj.confs = s.obj.confs ∧ (updIn i f s).obj.legs = s.obj.legs ∧
    (updIn i f s).obj.outs = s.obj.outs ∧ (updIn i f s).obj.layouts = s.obj.layouts ∧ (updIn i f s).obj.mixes = s.obj.mixes ∧
    (updIn i f s).obj.tilesets = s.obj.tilesets ∧ (updIn i f s).obj.slots = s.obj.slots ∧ (updIn i f s).obj.trunks = s.obj.trunks ∧
    (updIn i f s).obj.images = s.obj.images ∧ (updIn i f s).obj.encs = s.obj.encs :=
  ⟨rfl, rfl, rfl, rfl, rfl, rfl, rfl, rfl, rfl, rfl, rfl, rfl⟩

@[simp] theorem updOut_parts (i : Nat) (f : OutStream → OutStream) (s : State) :
    (updOut i f s).obj.outs = s.obj.outs.upd i f ∧
    (updOut i f s).obj.tenants = s.obj.tenants ∧ (updOut i f s).obj.confs = s.obj.confs ∧ (updOut i f s).obj.legs = s.obj.legs ∧
    (updOut i f s).obj.ins = s.obj.ins ∧ (updOut i f s).obj.layouts = s.obj.layouts ∧ (updOut i f s).obj.mixes = s.obj.mixes ∧
    (updOut i f s).obj.tilesets = s.obj.tilesets ∧ (updOut i f s).obj.slots = s.obj.slots ∧ (updOut i f s).obj.trunks = s.obj.trunks ∧
    (updOut i f s).obj.images = s.obj.images ∧ (updOut i f s).obj.encs = s.obj.encs :=
  ⟨rfl, rfl, rfl, rfl, rfl, rfl, rfl, rfl, rfl, rfl, rfl, rfl⟩

@[simp] theorem updLayout_parts (i : Nat) (f : Layout → Layout) (s : State) :
    (updLayout i f s).obj.layouts = s.obj.layouts.upd i f ∧
    (updLayout i f s).obj.tenants = s.obj.tenants ∧ (updLayout i f s).obj.confs = s.obj.confs ∧ (updLayout i f s).obj.legs = s.obj.legs ∧
    (updLayout i f s).obj.ins = s.obj.ins ∧ (updLayout i f s).obj.outs = s.obj.outs ∧ (updLayout i f s).obj.mixes = s.obj.mixes ∧
    (updLayout i f s).obj.tilesets = s.obj.tilesets ∧ (updLayout i f s).obj.slots = s.obj.slots ∧ (updLayout i f s).obj.trunks = s.obj.trunks ∧
    (updLayout i f s).obj.images = s.obj.images ∧ (updLayout i f s).obj.encs = s.obj.encs :=
  ⟨rfl, rfl, rfl, rfl, rfl, rfl, rfl, rfl, rfl, rfl, rfl, rfl⟩

@[simp] theorem updMix_parts (i : Nat) (f : Mix → Mix) (s : State) :
    (updMix i f s).obj.mixes = s.obj.mixes.upd i f ∧
    (updMix i f s).obj.tenants = s.obj.tenants ∧ (updMix i f s).obj.confs = s.obj.confs ∧ (updMix i f s).obj.legs = s.obj.legs ∧
    (updMix i f s).obj.ins = s.obj.ins ∧ (updMix i f s).obj.outs = s.obj.outs ∧ (updMix i f s).obj.layouts = s.obj.layouts ∧
    (updMix i f s).obj.tilesets = s.obj.tilesets ∧ (updMix i f s).obj.slots = s.obj.slots ∧ (updMix i f s).obj.trunks = s.obj.trunks ∧
    (updMix i f s).obj.images = s.obj.images ∧ (updMix i f s).obj.encs = s.obj.encs :=
  ⟨rfl, rfl, rfl, rfl, rfl, rfl, rfl, rfl, rfl, rfl, rfl, rfl⟩

@[simp] theorem updTileset_parts (i : Nat) (f : TileSet → TileSet) (s : State) :
    (updTileset i f s).obj.tilesets = s.obj.tilesets.upd i f ∧
    (updTileset i f s).obj.tenants = s.obj.tenants ∧ (updTileset i f s).obj.confs = s.obj.confs ∧ (updTileset i f s).obj.legs = s.obj.legs ∧
    (updTileset i f s).obj.ins = s.obj.ins ∧ (updTileset i f s).obj.outs = s.obj.outs ∧ (updTileset i f s).obj.layouts = s.obj.layouts ∧
    (updTileset i f s).obj.mixes = s.obj.mixes ∧ (updTileset i f s).obj.slots = s.obj.slots ∧ (updTileset i f s).obj.trunks = s.obj.trunks ∧
    (updTileset i f s).obj.images = s.obj.images ∧ (updTileset i f s).obj.encs = s.obj.encs :=
  ⟨rfl, rfl, rfl, rfl, rfl, rfl, rfl, rfl, rfl, rfl, rfl, rfl⟩

@[simp] theorem updSlot_parts (i : Nat) (f : KeySlot → KeySlot) (s : State) :
    (updSlot i f s).obj.slots = s.obj.slots.upd i f ∧
    (updSlot i f s).obj.tenants = s.obj.tenants ∧ (updSlot i f s).obj.confs = s.obj.confs ∧ (updSlot i f s).obj.legs = s.obj.legs ∧
    (updSlot i f s).obj.ins = s.obj.ins ∧ (updSlot i f s).obj.outs = s.obj.outs ∧ (updSlot i f s).obj.layouts = s.obj.layouts ∧
    (updSlot i f s).obj.mixes = s.obj.mixes ∧ (updSlot i f s).obj.tilesets = s.obj.tilesets ∧ (updSlot i f s).obj.trunks = s.obj.trunks ∧
    (updSlot i f s).obj.images = s.obj.images ∧ (updSlot i f s).obj.encs = s.obj.encs :=
  ⟨rfl, rfl, rfl, rfl, rfl, rfl, rfl, rfl, rfl, rfl, rfl, rfl⟩

@[simp] theorem updTrunk_parts (i : Nat) (f : Trunk → Trunk) (s : State) :
    (updTrunk i f s).obj.trunks = s.obj.trunks.upd i f ∧
    (updTrunk i f s).obj.tenants = s.obj.tenants ∧ (updTrunk i f s).obj.confs = s.obj.confs ∧ (updTrunk i f s).obj.legs = s.obj.legs ∧
    (updTrunk i f s).obj.ins = s.obj.ins ∧ (updTrunk i f s).obj.outs = s.obj.outs ∧ (updTrunk i f s).obj.layouts = s.obj.layouts ∧
    (updTrunk i f s).obj.mixes = s.obj.mixes ∧ (updTrunk i f s).obj.tilesets = s.obj.tilesets ∧ (updTrunk i f s).obj.slots = s.obj.slots ∧
    (updTrunk i f s).obj.images = s.obj.images ∧ (updTrunk i f s).obj.encs = s.obj.encs :=
  ⟨rfl, rfl, rfl, rfl, rfl, rfl, rfl, rfl, rfl, rfl, rfl, rfl⟩

@[simp] theorem updImage_parts (i : Nat) (f : Image → Image) (s : State) :
    (updImage i f s).obj.images = s.obj.images.upd i f ∧
    (updImage i f s).obj.tenants = s.obj.tenants ∧ (updImage i f s).obj.confs = s.obj.confs ∧ (updImage i f s).obj.legs = s.obj.legs ∧
    (updImage i f s).obj.ins = s.obj.ins ∧ (updImage i f s).obj.outs = s.obj.outs ∧ (updImage i f s).obj.layouts = s.obj.layouts ∧
    (updImage i f s).obj.mixes = s.obj.mixes ∧ (updImage i f s).obj.tilesets = s.obj.tilesets ∧ (updImage i f s).obj.slots = s.obj.slots ∧
    (updImage i f s).obj.trunks = s.obj.trunks ∧ (updImage i f s).obj.encs = s.obj.encs :=
  ⟨rfl, rfl, rfl, rfl, rfl, rfl, rfl, rfl, rfl, rfl, rfl, rfl⟩

@[simp] theorem updEnc_parts (i : Nat) (f : EncCtx → EncCtx) (s : State) :
    (updEnc i f s).obj.encs = s.obj.encs.upd i f ∧
    (updEnc i f s).obj.tenants = s.obj.tenants ∧ (updEnc i f s).obj.confs = s.obj.confs ∧ (updEnc i f s).obj.legs = s.obj.legs ∧
    (updEnc i f s).obj.ins = s.obj.ins ∧ (updEnc i f s).obj.outs = s.obj.outs ∧ (updEnc i f s).obj.layouts = s.obj.layouts ∧
    (updEnc i f s).obj.mixes = s.obj.mixes ∧ (updEnc i f s).obj.tilesets = s.obj.tilesets ∧ (updEnc i f s).obj.slots = s.obj.slots ∧
    (updEnc i f s).obj.trunks = s.obj.trunks ∧ (updEnc i f s).obj.images = s.obj.images :=
  ⟨rfl, rfl, rfl, rfl, rfl, rfl, rfl, rfl, rfl, rfl, rfl, rfl⟩

@[simp] theorem hostWrite_mem (a : Nat) (bs : List Byte) (s : State) :
    (hostWrite a bs s).hst.mem = mwriteN s.hst.mem a bs ∧ (hostWrite a bs s).hst.fns = s.hst.fns := ⟨rfl, rfl⟩

@[simp] theorem setFn_mem (n : Nat) (p : HstFn) (s : State) :
    (setFn n p s).hst.mem = s.hst.mem ∧ (setFn n p s).hst.fns = tput s.hst.fns n p := ⟨rfl, rfl⟩

@[simp] theorem setMon_mon (f : Mon → Mon) (s : State) : (setMon f s).mon = f s.mon := rfl

@[simp] theorem setTwin_twin (f : Twin → Twin) (s : State) : (setTwin f s).twin = f s.twin := rfl

@[simp] theorem setTim_tim (f : Tim → Tim) (s : State) : (setTim f s).tim = f s.tim := rfl

@[simp] theorem modPort_ports (p : Nat) (f : Port → Port) (s : State) : (modPort p f s).ports = tput s.ports p (f (portOf s p)) := rfl

@[simp] theorem setCore_accord (n : Nat) (c : Core) (s : State) : (setCore n c s).accord.cores = tput s.accord.cores n c := rfl

@[simp] theorem setBases_fields (l : List BaseEntry) (s : State) :
    (setBases l s).pending = s.pending ∧ (setBases l s).free = s.free ∧ (setBases l s).hst = s.hst ∧
    (setBases l s).nose = s.nose ∧ (setBases l s).obj = s.obj ∧ (setBases l s).ports = s.ports ∧
    (setBases l s).phys = s.phys ∧ (setBases l s).media = s.media ∧ (setBases l s).accord = s.accord ∧
    (setBases l s).mem = s.mem ∧ (setBases l s).hbm = s.hbm ∧ (setBases l s).orgue = s.orgue ∧
    (setBases l s).tim = s.tim ∧ (setBases l s).twin = s.twin ∧ (setBases l s).mon = s.mon ∧
    (setBases l s).counters = s.counters ∧ (setBases l s).objCounters = s.objCounters :=
  ⟨rfl, rfl, rfl, rfl, rfl, rfl, rfl, rfl, rfl, rfl, rfl, rfl, rfl, rfl, rfl, rfl, rfl⟩

@[simp] theorem setTx_fields (p : Nat) (l : List TxFrame) (s : State) :
    (setTx p l s).pending = s.pending ∧ (setTx p l s).free = s.free ∧ (setTx p l s).hst = s.hst ∧
    (setTx p l s).nose = s.nose ∧ (setTx p l s).obj = s.obj ∧ (setTx p l s).phys = s.phys ∧
    (setTx p l s).media = s.media ∧ (setTx p l s).video = s.video ∧ (setTx p l s).accord = s.accord ∧
    (setTx p l s).mem = s.mem ∧ (setTx p l s).hbm = s.hbm ∧ (setTx p l s).orgue = s.orgue ∧
    (setTx p l s).tim = s.tim ∧ (setTx p l s).twin = s.twin ∧ (setTx p l s).mon = s.mon ∧
    (setTx p l s).counters = s.counters ∧ (setTx p l s).objCounters = s.objCounters :=
  ⟨rfl, rfl, rfl, rfl, rfl, rfl, rfl, rfl, rfl, rfl, rfl, rfl, rfl, rfl, rfl, rfl, rfl⟩

@[simp] theorem modEnc_fields (i k : Nat) (f : Encoding → Encoding) (s : State) :
    (modEnc i k f s).pending = s.pending ∧ (modEnc i k f s).free = s.free ∧ (modEnc i k f s).hst = s.hst ∧
    (modEnc i k f s).nose = s.nose ∧ (modEnc i k f s).ports = s.ports ∧ (modEnc i k f s).phys = s.phys ∧
    (modEnc i k f s).media = s.media ∧ (modEnc i k f s).video = s.video ∧ (modEnc i k f s).accord = s.accord ∧
    (modEnc i k f s).mem = s.mem ∧ (modEnc i k f s).hbm = s.hbm ∧ (modEnc i k f s).orgue = s.orgue ∧
    (modEnc i k f s).tim = s.tim ∧ (modEnc i k f s).twin = s.twin ∧ (modEnc i k f s).mon = s.mon ∧
    (modEnc i k f s).counters = s.counters ∧ (modEnc i k f s).objCounters = s.objCounters :=
  ⟨rfl, rfl, rfl, rfl, rfl, rfl, rfl, rfl, rfl, rfl, rfl, rfl, rfl, rfl, rfl, rfl, rfl⟩

@[simp] theorem modDec_fields (i : Nat) (f : DecCtx → DecCtx) (s : State) :
    (modDec i f s).pending = s.pending ∧ (modDec i f s).free = s.free ∧ (modDec i f s).hst = s.hst ∧
    (modDec i f s).nose = s.nose ∧ (modDec i f s).ports = s.ports ∧ (modDec i f s).phys = s.phys ∧
    (modDec i f s).media = s.media ∧ (modDec i f s).video = s.video ∧ (modDec i f s).accord = s.accord ∧
    (modDec i f s).mem = s.mem ∧ (modDec i f s).hbm = s.hbm ∧ (modDec i f s).orgue = s.orgue ∧
    (modDec i f s).tim = s.tim ∧ (modDec i f s).twin = s.twin ∧ (modDec i f s).mon = s.mon ∧
    (modDec i f s).counters = s.counters ∧ (modDec i f s).objCounters = s.objCounters :=
  ⟨rfl, rfl, rfl, rfl, rfl, rfl, rfl, rfl, rfl, rfl, rfl, rfl, rfl, rfl, rfl, rfl, rfl⟩

@[simp] theorem updComp_fields (i : Nat) (f : Comp → Comp) (s : State) :
    (updComp i f s).pending = s.pending ∧ (updComp i f s).free = s.free ∧ (updComp i f s).hst = s.hst ∧
    (updComp i f s).nose = s.nose ∧ (updComp i f s).ports = s.ports ∧ (updComp i f s).phys = s.phys ∧
    (updComp i f s).media = s.media ∧ (updComp i f s).video = s.video ∧ (updComp i f s).accord = s.accord ∧
    (updComp i f s).mem = s.mem ∧ (updComp i f s).hbm = s.hbm ∧ (updComp i f s).orgue = s.orgue ∧
    (updComp i f s).tim = s.tim ∧ (updComp i f s).twin = s.twin ∧ (updComp i f s).mon = s.mon ∧
    (updComp i f s).counters = s.counters ∧ (updComp i f s).objCounters = s.objCounters :=
  ⟨rfl, rfl, rfl, rfl, rfl, rfl, rfl, rfl, rfl, rfl, rfl, rfl, rfl, rfl, rfl, rfl, rfl⟩

@[simp] theorem updSound_fields (i : Nat) (f : AudioOut → AudioOut) (s : State) :
    (updSound i f s).pending = s.pending ∧ (updSound i f s).free = s.free ∧ (updSound i f s).hst = s.hst ∧
    (updSound i f s).nose = s.nose ∧ (updSound i f s).ports = s.ports ∧ (updSound i f s).phys = s.phys ∧
    (updSound i f s).media = s.media ∧ (updSound i f s).video = s.video ∧ (updSound i f s).accord = s.accord ∧
    (updSound i f s).mem = s.mem ∧ (updSound i f s).hbm = s.hbm ∧ (updSound i f s).orgue = s.orgue ∧
    (updSound i f s).tim = s.tim ∧ (updSound i f s).twin = s.twin ∧ (updSound i f s).mon = s.mon ∧
    (updSound i f s).counters = s.counters ∧ (updSound i f s).objCounters = s.objCounters :=
  ⟨rfl, rfl, rfl, rfl, rfl, rfl, rfl, rfl, rfl, rfl, rfl, rfl, rfl, rfl, rfl, rfl, rfl⟩

end Sys2Proof.Machine
end

