-- ==== Sys2Proof/Laws/Tables.lean ====
section
/-! SUPPORT. The laws of sparse tables and byte memories: a read after a write, a write leaves every other key alone, and every memory
operation keeps the canonical form (log entry 11). -/

namespace Sys2Proof.Machine

variable {α : Type}

/-! ### Tables -/

@[simp] theorem tget_tput_self (t : Tbl α) (n : Nat) (a : α) : tget (tput t n a) n = some a := by
  induction t with
  | nil => simp [tput, tget]
  | cons kv r ih =>
    obtain ⟨k, v⟩ := kv
    by_cases h : n = k
    · simp [tput, tget, h]
    · by_cases h' : n < k
      · simp [tput, tget, h, h']
      · simp [tput, tget, h, h', ih]

theorem tget_tput_ne (t : Tbl α) {n m : Nat} (a : α) (hm : m ≠ n) : tget (tput t n a) m = tget t m := by
  induction t with
  | nil => simp [tput, tget, hm]
  | cons kv r ih =>
    obtain ⟨k, v⟩ := kv
    by_cases h : n = k
    · subst h
      simp [tput, tget, hm]
    · by_cases h' : n < k
      · by_cases h2 : m < n
        · have : ¬ m = k := by omega
          have : m < k := by omega
          simp [tput, tget, *]
        · simp [tput, tget, h, h', hm, h2]
      · simp [tput, tget, h, h', ih]

@[simp] theorem tgetD_tput_self (t : Tbl α) (n : Nat) (a d : α) : tgetD (tput t n a) n d = a := by simp [tgetD]

theorem tgetD_tput_ne (t : Tbl α) {n m : Nat} (a d : α) (hm : m ≠ n) : tgetD (tput t n a) m d = tgetD t m d := by
  simp [tgetD, tget_tput_ne t a hm]

@[simp] theorem tget_tdel_self (t : Tbl α) (n : Nat) : tget (tdel t n) n = none := by
  induction t with
  | nil => simp [tdel, tget]
  | cons kv r ih =>
    obtain ⟨k, v⟩ := kv
    by_cases h : n = k
    · simp [tdel, h, h ▸ ih]
    · simp [tdel, tget, h, ih]

theorem tget_tupd_self (t : Tbl α) (n : Nat) (f : α → α) : tget (tupd t n f) n = (tget t n).map f := by
  induction t with
  | nil => simp [tupd, tget]
  | cons kv r ih =>
    obtain ⟨k, v⟩ := kv
    by_cases h : n = k
    · simp [tupd, tget, h]
    · by_cases h' : n < k <;> simp [tupd, tget, h, h', ih]

theorem tget_tupd_ne (t : Tbl α) {n m : Nat} (f : α → α) (hm : m ≠ n) : tget (tupd t n f) m = tget t m := by
  induction t with
  | nil => simp [tupd]
  | cons kv r ih =>
    obtain ⟨k, v⟩ := kv
    by_cases h : n = k
    · subst h
      simp [tupd, tget, hm]
    · simp [tupd, tget, h, ih]

/-! ### Rising keys -/

theorem keysFrom_mono {t : Tbl α} {lo lo' : Nat} (h : lo' ≤ lo) (ht : keysFrom lo t = true) : keysFrom lo' t = true := by
  cases t with
  | nil => rfl
  | cons kv r =>
    obtain ⟨k, v⟩ := kv
    simp [keysFrom] at ht ⊢
    exact ⟨by omega, ht.2⟩

theorem keysFrom_tput {t : Tbl α} {lo n : Nat} (a : α) (hn : lo ≤ n) (ht : keysFrom lo t = true) : keysFrom lo (tput t n a) = true := by
  induction t generalizing lo with
  | nil => simp [tput, keysFrom, hn]
  | cons kv r ih =>
    obtain ⟨k, v⟩ := kv
    simp [keysFrom] at ht
    by_cases h : n = k
    · simp [tput, keysFrom, h, ht]
    · by_cases h' : n < k
      · simp only [tput, keysFrom, h, h', hn, ht.2, if_true, if_false]
        simp
        omega
      · simp [tput, keysFrom, h, h', ht.1]
        exact ih (by omega) ht.2

theorem keysFrom_tdel {t : Tbl α} {lo : Nat} (n : Nat) (ht : keysFrom lo t = true) : keysFrom lo (tdel t n) = true := by
  induction t generalizing lo with
  | nil => simp [tdel, keysFrom]
  | cons kv r ih =>
    obtain ⟨k, v⟩ := kv
    simp [keysFrom] at ht
    by_cases h : n = k
    · simp only [tdel, if_pos h]
      exact keysFrom_mono (by omega) (ih ht.2)
    · simp [tdel, keysFrom, h, ht.1, ih ht.2]

theorem keysRise_tput {t : Tbl α} (n : Nat) (a : α) (ht : keysRise t = true) : keysRise (tput t n a) = true :=
  keysFrom_tput a (Nat.zero_le n) ht

theorem keysRise_tdel {t : Tbl α} (n : Nat) (ht : keysRise t = true) : keysRise (tdel t n) = true := keysFrom_tdel n ht

theorem tget_of_lt {t : Tbl α} {lo m : Nat} (ht : keysFrom lo t = true) (hm : m < lo) : tget t m = none := by
  cases t with
  | nil => rfl
  | cons kv r =>
    obtain ⟨k, v⟩ := kv
    simp [keysFrom] at ht
    have h1 : ¬ m = k := by omega
    have h2 : m < k := by omega
    simp [tget, h1, h2]

theorem tget_tdel_ne {t : Tbl α} {n m : Nat} (ht : keysRise t = true) (hm : m ≠ n) : tget (tdel t n) m = tget t m := by
  suffices h : ∀ lo, keysFrom lo t = true → tget (tdel t n) m = tget t m from h 0 ht
  clear ht
  induction t with
  | nil => intros; rfl
  | cons kv r ih =>
    obtain ⟨k, v⟩ := kv
    intro lo ht
    simp [keysFrom] at ht
    by_cases h : n = k
    · subst h
      simp only [tdel, tget, if_neg hm]
      by_cases h2 : m < n
      · simp only [h2, if_true]
        exact (ih _ ht.2).trans (tget_of_lt ht.2 (by omega))
      · simp only [h2, if_false]
        exact ih _ ht.2
    · simp only [tdel, if_neg h, tget, ih _ ht.2]

/-! ### Memories -/

theorem Memory.wf_iff (m : Memory) : Memory.wf m = true ↔ keysRise m = true ∧ ∀ c ∈ m, c.2 ≠ 0 := by
  simp [Memory.wf]

@[simp] theorem Memory.wf_nil : Memory.wf [] = true := by decide

theorem mem_tput {t : Tbl α} {n : Nat} {a : α} {c : Nat × α} (h : c ∈ tput t n a) : c ∈ t ∨ c.2 = a := by
  induction t with
  | nil => simp [tput] at h; exact .inr (by simp [h])
  | cons kv r ih =>
    obtain ⟨k, v⟩ := kv
    by_cases h1 : n = k
    · simp [tput, h1] at h
      rcases h with h | h
      · exact .inr (by simp [h])
      · exact .inl (by simp [h])
    · by_cases h2 : n < k
      · simp [tput, h1, h2] at h
        rcases h with h | h | h
        · exact .inr (by simp [h])
        · exact .inl (by simp [h])
        · exact .inl (by simp [h])
      · simp [tput, h1, h2] at h
        rcases h with h | h
        · exact .inl (by simp [h])
        · rcases ih h with h' | h'
          · exact .inl (by simp [h'])
          · exact .inr h'

theorem mem_tdel {t : Tbl α} {n : Nat} {c : Nat × α} (h : c ∈ tdel t n) : c ∈ t := by
  induction t with
  | nil => simp [tdel] at h
  | cons kv r ih =>
    obtain ⟨k, v⟩ := kv
    by_cases h1 : n = k
    · simp only [tdel, if_pos h1] at h
      exact List.mem_cons_of_mem _ (ih h)
    · simp only [tdel, if_neg h1, List.mem_cons] at h
      rcases h with h | h
      · exact h ▸ List.mem_cons_self
      · exact List.mem_cons_of_mem _ (ih h)

/-- Writing one byte keeps the canonical form. -/
theorem mwrite_wf {m : Memory} (a : Nat) (b : Byte) (h : Memory.wf m = true) : Memory.wf (mwrite m a b) = true := by
  rw [Memory.wf_iff] at h ⊢
  unfold mwrite
  split
  · exact ⟨keysRise_tdel a h.1, fun c hc => h.2 c (mem_tdel hc)⟩
  · rename_i hb
    refine ⟨keysRise_tput a b h.1, fun c hc => ?_⟩
    rcases mem_tput hc with h' | h'
    · exact h.2 c h'
    · exact h' ▸ hb

/-- Writing bytes keeps the canonical form. -/
theorem mwriteN_wf {m : Memory} (a : Nat) (bs : List Byte) (h : Memory.wf m = true) : Memory.wf (mwriteN m a bs) = true := by
  induction bs generalizing m a with
  | nil => exact h
  | cons b r ih => exact ih (a + 1) (mwrite_wf a b h)

/-- A byte written is read back. -/
@[simp] theorem mread_mwrite_self (m : Memory) (a : Nat) (b : Byte) : mread (mwrite m a b) a = b := by
  unfold mread mwrite
  split
  · simp [*]
  · simp

/-- A write leaves every other byte alone. -/
theorem mread_mwrite_ne {m : Memory} {a x : Nat} (b : Byte) (h : Memory.wf m = true) (hx : x ≠ a) : mread (mwrite m a b) x = mread m x := by
  rw [Memory.wf_iff] at h
  unfold mread mwrite
  split
  · rw [tget_tdel_ne h.1 hx]
  · rw [tget_tput_ne m b hx]

/-- A write of bytes leaves every byte outside them alone. -/
theorem mread_mwriteN_out {m : Memory} {a x : Nat} {bs : List Byte} (h : Memory.wf m = true) (hx : x < a ∨ a + bs.length ≤ x) :
    mread (mwriteN m a bs) x = mread m x := by
  induction bs generalizing m a with
  | nil => rfl
  | cons b r ih =>
    simp only [List.length_cons] at hx
    rw [mwriteN, ih (mwrite_wf a b h) (by omega), mread_mwrite_ne b h (by omega)]

/-- Bytes written are read back in order. -/
theorem mread_mwriteN_in {m : Memory} {a i : Nat} {bs : List Byte} (h : Memory.wf m = true) (hi : i < bs.length) :
    mread (mwriteN m a bs) (a + i) = bs.getD i 0 := by
  induction bs generalizing m a i with
  | nil => simp at hi
  | cons b r ih =>
    cases i with
    | zero => rw [mwriteN, mread_mwriteN_out (mwrite_wf a b h) (by omega)]; simp
    | succ i =>
      simp only [List.length_cons] at hi
      have := ih (m := mwrite m a b) (a := a + 1) (i := i) (mwrite_wf a b h) (by omega)
      rw [mwriteN, show a + (i + 1) = a + 1 + i by omega, this]
      simp

@[simp] theorem length_mreadN (m : Memory) (a n : Nat) : (mreadN m a n).length = n := by
  induction n generalizing a with
  | zero => rfl
  | succ n ih => simp [mreadN, ih]

theorem getD_mreadN (m : Memory) (a n i : Nat) (hi : i < n) : (mreadN m a n).getD i 0 = mread m (a + i) := by
  induction n generalizing a i with
  | zero => omega
  | succ n ih =>
    cases i with
    | zero => simp [mreadN]
    | succ i =>
      have := ih (a + 1) i (by omega)
      simp only [mreadN, List.getD_cons_succ, this]
      congr 1
      omega

/-- Bytes written and read at one address come back. -/
theorem mreadN_mwriteN (m : Memory) (a : Nat) (bs : List Byte) (h : Memory.wf m = true) : mreadN (mwriteN m a bs) a bs.length = bs := by
  apply List.ext_getElem
  · simp
  · intro i h1 h2
    have e1 := getD_mreadN (mwriteN m a bs) a bs.length i h2
    have e2 := mread_mwriteN_in (a := a) h h2
    rw [e2] at e1
    simpa [List.getD_eq_getElem?_getD, List.getElem?_eq_getElem, h1, h2] using e1

/-! ### Byte order -/

@[simp] theorem length_leBytes (n x : Nat) : (leBytes n x).length = n := by
  induction n generalizing x with
  | zero => rfl
  | succ n ih => simp [leBytes, ih]

/-- n bytes spell a number below 256^n. -/
theorem leNat_leBytes (n x : Nat) : leNat (leBytes n x) = x % 256 ^ n := by
  induction n generalizing x with
  | zero => simp [leBytes, leNat, Nat.mod_one]
  | succ n ih =>
    have h : 256 ^ (n + 1) = 256 * 256 ^ n := by rw [Nat.pow_succ, Nat.mul_comm]
    rw [leBytes, leNat, ih, BitVec.toNat_ofNat, h, Nat.mod_mul]

end Sys2Proof.Machine
end

