-- ==== Sys2Proof/Laws/Ops.lean ====
section
/-! SUPPORT. What each shared operation can do, once: the parts of the state that it leaves as they were, and the outcome of a command. -/

namespace Sys2Proof.Machine

/-! ### The outcome of a command -/

theorem doneAon_next (s t : State) : doneAon s t = .next { t with pending := s.pending } := rfl

/-- Every command that ends in `done` answers a next state whose queue is the step's. -/
theorem done_next (s t : State) : ∃ u, done s t = .next u ∧ u.pending = s.pending := ⟨_, rfl, rfl⟩

/-- A device that is held in reset takes nothing. -/
theorem done_inReset {s : State} (t : State) (h : s.mon.inReset = true) : done s t = .next s := by
  simp [done, doneAon, h]

/-- Out of reset the command's state is the outcome, with the step's queue. -/
theorem done_awake {s : State} (t : State) (h : s.mon.inReset = false) : done s t = .next { t with pending := s.pending } := by
  simp [done, doneAon, h]

/-! ### Entries, events and counters -/

@[simp] theorem putEntry_fields (f n : Nat) (d : List Word) (s : State) :
    (putEntry f n d s).pending = s.pending ∧ (putEntry f n d s).free = s.free ∧ (putEntry f n d s).nose = s.nose ∧
    (putEntry f n d s).obj = s.obj ∧ (putEntry f n d s).ports = s.ports ∧ (putEntry f n d s).phys = s.phys ∧
    (putEntry f n d s).media = s.media ∧ (putEntry f n d s).video = s.video ∧ (putEntry f n d s).accord = s.accord ∧
    (putEntry f n d s).mem = s.mem ∧ (putEntry f n d s).hbm = s.hbm ∧ (putEntry f n d s).orgue = s.orgue ∧
    (putEntry f n d s).tim = s.tim ∧ (putEntry f n d s).twin = s.twin ∧ (putEntry f n d s).mon = s.mon ∧
    (putEntry f n d s).counters = s.counters ∧ (putEntry f n d s).objCounters = s.objCounters := by
  unfold putEntry; split <;> simp

@[simp] theorem putEvent_fields (f n : Nat) (d : List Word) (s : State) :
    (putEvent f n d s).pending = s.pending ∧ (putEvent f n d s).free = s.free ∧ (putEvent f n d s).nose = s.nose ∧
    (putEvent f n d s).obj = s.obj ∧ (putEvent f n d s).ports = s.ports ∧ (putEvent f n d s).phys = s.phys ∧
    (putEvent f n d s).media = s.media ∧ (putEvent f n d s).video = s.video ∧ (putEvent f n d s).accord = s.accord ∧
    (putEvent f n d s).mem = s.mem ∧ (putEvent f n d s).hbm = s.hbm ∧ (putEvent f n d s).orgue = s.orgue ∧
    (putEvent f n d s).tim = s.tim ∧ (putEvent f n d s).twin = s.twin ∧ (putEvent f n d s).mon = s.mon ∧
    (putEvent f n d s).counters = s.counters ∧ (putEvent f n d s).objCounters = s.objCounters := by
  unfold putEvent; split <;> simp

@[simp] theorem holdEvent_fields (f n : Nat) (d : List Word) (s : State) :
    (holdEvent f n d s).pending = s.pending ∧ (holdEvent f n d s).free = s.free ∧ (holdEvent f n d s).nose = s.nose ∧
    (holdEvent f n d s).obj = s.obj ∧ (holdEvent f n d s).ports = s.ports ∧ (holdEvent f n d s).phys = s.phys ∧
    (holdEvent f n d s).media = s.media ∧ (holdEvent f n d s).video = s.video ∧ (holdEvent f n d s).accord = s.accord ∧
    (holdEvent f n d s).mem = s.mem ∧ (holdEvent f n d s).hbm = s.hbm ∧ (holdEvent f n d s).orgue = s.orgue ∧
    (holdEvent f n d s).tim = s.tim ∧ (holdEvent f n d s).twin = s.twin ∧ (holdEvent f n d s).mon = s.mon ∧
    (holdEvent f n d s).counters = s.counters ∧ (holdEvent f n d s).objCounters = s.objCounters := by
  unfold holdEvent; repeat' split
  all_goals simp

@[simp] theorem deliverEvent_fields (k o g : Nat) (d : List Word) (s : State) :
    (deliverEvent k o g d s).pending = s.pending ∧ (deliverEvent k o g d s).free = s.free ∧ (deliverEvent k o g d s).nose = s.nose ∧
    (deliverEvent k o g d s).obj = s.obj ∧ (deliverEvent k o g d s).ports = s.ports ∧ (deliverEvent k o g d s).phys = s.phys ∧
    (deliverEvent k o g d s).media = s.media ∧ (deliverEvent k o g d s).video = s.video ∧ (deliverEvent k o g d s).accord = s.accord ∧
    (deliverEvent k o g d s).mem = s.mem ∧ (deliverEvent k o g d s).hbm = s.hbm ∧ (deliverEvent k o g d s).orgue = s.orgue ∧
    (deliverEvent k o g d s).tim = s.tim ∧ (deliverEvent k o g d s).twin = s.twin ∧ (deliverEvent k o g d s).mon = s.mon ∧
    (deliverEvent k o g d s).counters = s.counters ∧ (deliverEvent k o g d s).objCounters = s.objCounters := by
  induction k generalizing g d s with
  | zero => simp [deliverEvent]
  | succ k ih =>
    unfold deliverEvent
    dsimp only
    repeat' split
    all_goals simp [ih]

@[simp] theorem postEvent_fields (o c : Nat) (w : Word) (x y z : Nat) (s : State) :
    (postEvent o c w x y z s).pending = s.pending ∧ (postEvent o c w x y z s).free = s.free ∧ (postEvent o c w x y z s).nose = s.nose ∧
    (postEvent o c w x y z s).obj = s.obj ∧ (postEvent o c w x y z s).ports = s.ports ∧ (postEvent o c w x y z s).phys = s.phys ∧
    (postEvent o c w x y z s).media = s.media ∧ (postEvent o c w x y z s).video = s.video ∧ (postEvent o c w x y z s).accord = s.accord ∧
    (postEvent o c w x y z s).mem = s.mem ∧ (postEvent o c w x y z s).hbm = s.hbm ∧ (postEvent o c w x y z s).orgue = s.orgue ∧
    (postEvent o c w x y z s).tim = s.tim ∧ (postEvent o c w x y z s).twin = s.twin ∧ (postEvent o c w x y z s).mon = s.mon ∧
    (postEvent o c w x y z s).counters = s.counters ∧ (postEvent o c w x y z s).objCounters = s.objCounters := by
  unfold postEvent; split <;> simp

@[simp] theorem postDevice_fields (c x y : Nat) (s : State) :
    (postDevice c x y s).pending = s.pending ∧ (postDevice c x y s).free = s.free ∧ (postDevice c x y s).nose = s.nose ∧
    (postDevice c x y s).obj = s.obj ∧ (postDevice c x y s).ports = s.ports ∧ (postDevice c x y s).phys = s.phys ∧
    (postDevice c x y s).media = s.media ∧ (postDevice c x y s).video = s.video ∧ (postDevice c x y s).accord = s.accord ∧
    (postDevice c x y s).mem = s.mem ∧ (postDevice c x y s).hbm = s.hbm ∧ (postDevice c x y s).orgue = s.orgue ∧
    (postDevice c x y s).tim = s.tim ∧ (postDevice c x y s).twin = s.twin ∧ (postDevice c x y s).mon = s.mon ∧
    (postDevice c x y s).counters = s.counters ∧ (postDevice c x y s).objCounters = s.objCounters := by
  unfold postDevice; simp

@[simp] theorem postPrecedence_fields (x y z : Nat) (b : Bool) (s : State) :
    (postPrecedence x y z b s).pending = s.pending ∧ (postPrecedence x y z b s).free = s.free ∧ (postPrecedence x y z b s).nose = s.nose ∧
    (postPrecedence x y z b s).obj = s.obj ∧ (postPrecedence x y z b s).ports = s.ports ∧ (postPrecedence x y z b s).phys = s.phys ∧
    (postPrecedence x y z b s).media = s.media ∧ (postPrecedence x y z b s).video = s.video ∧ (postPrecedence x y z b s).accord = s.accord ∧
    (postPrecedence x y z b s).mem = s.mem ∧ (postPrecedence x y z b s).hbm = s.hbm ∧ (postPrecedence x y z b s).orgue = s.orgue ∧
    (postPrecedence x y z b s).tim = s.tim ∧ (postPrecedence x y z b s).twin = s.twin ∧ (postPrecedence x y z b s).mon = s.mon ∧
    (postPrecedence x y z b s).counters = s.counters ∧ (postPrecedence x y z b s).objCounters = s.objCounters := by
  unfold postPrecedence; split <;> simp

@[simp] theorem count_fields (o i n : Nat) (s : State) :
    (count o i n s).pending = s.pending ∧ (count o i n s).free = s.free ∧ (count o i n s).nose = s.nose ∧
    (count o i n s).obj = s.obj ∧ (count o i n s).ports = s.ports ∧ (count o i n s).phys = s.phys ∧
    (count o i n s).media = s.media ∧ (count o i n s).video = s.video ∧ (count o i n s).accord = s.accord ∧
    (count o i n s).mem = s.mem ∧ (count o i n s).hbm = s.hbm ∧ (count o i n s).orgue = s.orgue ∧
    (count o i n s).tim = s.tim ∧ (count o i n s).twin = s.twin ∧ (count o i n s).mon = s.mon ∧
    (count o i n s).objCounters = s.objCounters := by
  unfold count; dsimp only; repeat' split
  all_goals simp

@[simp] theorem count1_fields (i : Nat) (s : State) :
    (count1 i s).pending = s.pending ∧ (count1 i s).free = s.free ∧ (count1 i s).nose = s.nose ∧
    (count1 i s).obj = s.obj ∧ (count1 i s).ports = s.ports ∧ (count1 i s).phys = s.phys ∧
    (count1 i s).media = s.media ∧ (count1 i s).video = s.video ∧ (count1 i s).accord = s.accord ∧
    (count1 i s).mem = s.mem ∧ (count1 i s).hbm = s.hbm ∧ (count1 i s).orgue = s.orgue ∧
    (count1 i s).tim = s.tim ∧ (count1 i s).twin = s.twin ∧ (count1 i s).mon = s.mon ∧
    (count1 i s).objCounters = s.objCounters := by
  unfold count1; simp

@[simp] theorem logInput_fields (e : LogEntry) (s : State) :
    (logInput e s).pending = s.pending ∧ (logInput e s).free = s.free ∧ (logInput e s).hst = s.hst ∧
    (logInput e s).nose = s.nose ∧ (logInput e s).obj = s.obj ∧ (logInput e s).ports = s.ports ∧
    (logInput e s).phys = s.phys ∧ (logInput e s).media = s.media ∧ (logInput e s).video = s.video ∧
    (logInput e s).accord = s.accord ∧ (logInput e s).mem = s.mem ∧ (logInput e s).hbm = s.hbm ∧
    (logInput e s).orgue = s.orgue ∧ (logInput e s).tim = s.tim ∧ (logInput e s).mon = s.mon ∧
    (logInput e s).counters = s.counters ∧ (logInput e s).objCounters = s.objCounters := by
  unfold logInput; split <;> simp

@[simp] theorem ringError_fields (f n : Nat) (b : Byte) (s : State) :
    (ringError f n b s).pending = s.pending ∧ (ringError f n b s).free = s.free ∧ (ringError f n b s).nose = s.nose ∧
    (ringError f n b s).obj = s.obj ∧ (ringError f n b s).ports = s.ports ∧ (ringError f n b s).phys = s.phys ∧
    (ringError f n b s).media = s.media ∧ (ringError f n b s).video = s.video ∧ (ringError f n b s).accord = s.accord ∧
    (ringError f n b s).mem = s.mem ∧ (ringError f n b s).hbm = s.hbm ∧ (ringError f n b s).orgue = s.orgue ∧
    (ringError f n b s).tim = s.tim ∧ (ringError f n b s).twin = s.twin ∧ (ringError f n b s).mon = s.mon ∧
    (ringError f n b s).counters = s.counters ∧ (ringError f n b s).objCounters = s.objCounters := by
  unfold ringError; split <;> simp

@[simp] theorem settleReply_fields (f n : Nat) (s : State) :
    (settleReply f n s).pending = s.pending ∧ (settleReply f n s).free = s.free ∧ (settleReply f n s).nose = s.nose ∧
    (settleReply f n s).obj = s.obj ∧ (settleReply f n s).ports = s.ports ∧ (settleReply f n s).phys = s.phys ∧
    (settleReply f n s).media = s.media ∧ (settleReply f n s).video = s.video ∧ (settleReply f n s).accord = s.accord ∧
    (settleReply f n s).mem = s.mem ∧ (settleReply f n s).hbm = s.hbm ∧ (settleReply f n s).orgue = s.orgue ∧
    (settleReply f n s).tim = s.tim ∧ (settleReply f n s).twin = s.twin ∧ (settleReply f n s).mon = s.mon ∧
    (settleReply f n s).counters = s.counters ∧ (settleReply f n s).objCounters = s.objCounters := by
  unfold settleReply; split <;> simp

@[simp] theorem writeReply_fields (h : HeldReply) (s : State) :
    (writeReply h s).pending = s.pending ∧ (writeReply h s).free = s.free ∧ (writeReply h s).obj = s.obj ∧
    (writeReply h s).ports = s.ports ∧ (writeReply h s).phys = s.phys ∧ (writeReply h s).media = s.media ∧
    (writeReply h s).video = s.video ∧ (writeReply h s).accord = s.accord ∧ (writeReply h s).mem = s.mem ∧
    (writeReply h s).hbm = s.hbm ∧ (writeReply h s).orgue = s.orgue ∧ (writeReply h s).tim = s.tim ∧
    (writeReply h s).twin = s.twin ∧ (writeReply h s).mon = s.mon ∧ (writeReply h s).counters = s.counters ∧
    (writeReply h s).objCounters = s.objCounters := by
  unfold writeReply; dsimp only; repeat' split
  all_goals simp

theorem writeReplies_fields (l : List HeldReply) (s : State) :
    (l.foldl (fun s h => writeReply h s) s).pending = s.pending ∧ (l.foldl (fun s h => writeReply h s) s).free = s.free ∧ (l.foldl (fun s h => writeReply h s) s).obj = s.obj ∧
    (l.foldl (fun s h => writeReply h s) s).ports = s.ports ∧ (l.foldl (fun s h => writeReply h s) s).phys = s.phys ∧ (l.foldl (fun s h => writeReply h s) s).media = s.media ∧
    (l.foldl (fun s h => writeReply h s) s).video = s.video ∧ (l.foldl (fun s h => writeReply h s) s).accord = s.accord ∧ (l.foldl (fun s h => writeReply h s) s).mem = s.mem ∧
    (l.foldl (fun s h => writeReply h s) s).hbm = s.hbm ∧ (l.foldl (fun s h => writeReply h s) s).orgue = s.orgue ∧ (l.foldl (fun s h => writeReply h s) s).tim = s.tim ∧
    (l.foldl (fun s h => writeReply h s) s).twin = s.twin ∧ (l.foldl (fun s h => writeReply h s) s).mon = s.mon ∧ (l.foldl (fun s h => writeReply h s) s).counters = s.counters ∧
    (l.foldl (fun s h => writeReply h s) s).objCounters = s.objCounters := by
  induction l generalizing s with
  | nil => simp
  | cons h l ih => simp [ih]

@[simp] theorem flushReplies_fields  (s : State) :
    (flushReplies s).pending = s.pending ∧ (flushReplies s).free = s.free ∧ (flushReplies s).obj = s.obj ∧
    (flushReplies s).ports = s.ports ∧ (flushReplies s).phys = s.phys ∧ (flushReplies s).media = s.media ∧
    (flushReplies s).video = s.video ∧ (flushReplies s).accord = s.accord ∧ (flushReplies s).mem = s.mem ∧
    (flushReplies s).hbm = s.hbm ∧ (flushReplies s).orgue = s.orgue ∧ (flushReplies s).tim = s.tim ∧
    (flushReplies s).twin = s.twin ∧ (flushReplies s).mon = s.mon ∧ (flushReplies s).counters = s.counters ∧
    (flushReplies s).objCounters = s.objCounters := by
  exact writeReplies_fields _ s

@[simp] theorem retire_fields (c : Cmd) (s : State) :
    (retire c s).pending = s.pending ∧ (retire c s).free = s.free ∧ (retire c s).obj = s.obj ∧
    (retire c s).ports = s.ports ∧ (retire c s).phys = s.phys ∧ (retire c s).media = s.media ∧
    (retire c s).video = s.video ∧ (retire c s).accord = s.accord ∧ (retire c s).mem = s.mem ∧
    (retire c s).hbm = s.hbm ∧ (retire c s).orgue = s.orgue ∧ (retire c s).tim = s.tim ∧
    (retire c s).twin = s.twin ∧ (retire c s).mon = s.mon ∧ (retire c s).counters = s.counters ∧
    (retire c s).objCounters = s.objCounters := by
  unfold retire; simp

@[simp] theorem answer_fields (op : Nat) (c : Cmd) (r : Reply) (s : State) :
    (answer op c r s).pending = s.pending ∧ (answer op c r s).free = s.free ∧ (answer op c r s).obj = s.obj ∧
    (answer op c r s).ports = s.ports ∧ (answer op c r s).phys = s.phys ∧ (answer op c r s).media = s.media ∧
    (answer op c r s).video = s.video ∧ (answer op c r s).accord = s.accord ∧ (answer op c r s).mem = s.mem ∧
    (answer op c r s).hbm = s.hbm ∧ (answer op c r s).orgue = s.orgue ∧ (answer op c r s).tim = s.tim ∧
    (answer op c r s).twin = s.twin ∧ (answer op c r s).mon = s.mon ∧ (answer op c r s).counters = s.counters ∧
    (answer op c r s).objCounters = s.objCounters := by
  unfold answer; dsimp only; repeat' split
  all_goals simp

@[simp] theorem noteApplied_fields (c : Cmd) (s : State) :
    (noteApplied c s).pending = s.pending ∧ (noteApplied c s).free = s.free ∧ (noteApplied c s).nose = s.nose ∧
    (noteApplied c s).obj = s.obj ∧ (noteApplied c s).ports = s.ports ∧ (noteApplied c s).phys = s.phys ∧
    (noteApplied c s).media = s.media ∧ (noteApplied c s).video = s.video ∧ (noteApplied c s).accord = s.accord ∧
    (noteApplied c s).mem = s.mem ∧ (noteApplied c s).hbm = s.hbm ∧ (noteApplied c s).orgue = s.orgue ∧
    (noteApplied c s).tim = s.tim ∧ (noteApplied c s).twin = s.twin ∧ (noteApplied c s).mon = s.mon ∧
    (noteApplied c s).counters = s.counters ∧ (noteApplied c s).objCounters = s.objCounters := by
  unfold noteApplied; simp

@[simp] theorem output_fields (a : Nat) (bs : List Byte) (s : State) :
    (output a bs s).pending = s.pending ∧ (output a bs s).free = s.free ∧ (output a bs s).nose = s.nose ∧
    (output a bs s).obj = s.obj ∧ (output a bs s).ports = s.ports ∧ (output a bs s).phys = s.phys ∧
    (output a bs s).media = s.media ∧ (output a bs s).video = s.video ∧ (output a bs s).accord = s.accord ∧
    (output a bs s).mem = s.mem ∧ (output a bs s).hbm = s.hbm ∧ (output a bs s).orgue = s.orgue ∧
    (output a bs s).tim = s.tim ∧ (output a bs s).twin = s.twin ∧ (output a bs s).mon = s.mon ∧
    (output a bs s).counters = s.counters ∧ (output a bs s).objCounters = s.objCounters := by
  unfold output; split <;> simp

@[simp] theorem countFailure_fields (r : CmdRule) (c : Cmd) (f : Fail) (s : State) :
    (countFailure r c f s).pending = s.pending ∧ (countFailure r c f s).free = s.free ∧ (countFailure r c f s).nose = s.nose ∧
    (countFailure r c f s).obj = s.obj ∧ (countFailure r c f s).ports = s.ports ∧ (countFailure r c f s).phys = s.phys ∧
    (countFailure r c f s).media = s.media ∧ (countFailure r c f s).video = s.video ∧ (countFailure r c f s).accord = s.accord ∧
    (countFailure r c f s).mem = s.mem ∧ (countFailure r c f s).hbm = s.hbm ∧ (countFailure r c f s).orgue = s.orgue ∧
    (countFailure r c f s).tim = s.tim ∧ (countFailure r c f s).twin = s.twin ∧ (countFailure r c f s).mon = s.mon ∧
    (countFailure r c f s).objCounters = s.objCounters := by
  unfold countFailure; dsimp only; repeat' split
  all_goals simp

/-! ### Counters -/

/-- A counter holds its value plus n, modulo 2^32 (R112). -/
theorem count_value (o i n : Nat) (s : State) : counterOf (count o i n s) i = BitVec.ofNat 32 ((counterOf s i).toNat + n) := by
  unfold count counterOf
  dsimp only
  repeat' split
  all_goals simp

/-- Every other counter stays. -/
theorem count_other (o i n : Nat) (s : State) {k : Nat} (h : k ≠ i) : counterOf (count o i n s) k = counterOf s k := by
  unfold count counterOf
  dsimp only
  repeat' split
  all_goals simp [tgetD_tput_ne _ _ _ h]

/-! ### Host commands -/

/-- What a command leaves beside its effect: only its reply, the log, the Nose's own records and the end of QUIESCE. -/
theorem perform_fields (r : CmdRule) (c : Cmd) (s : State) :
    let e := (r.effect c s).2
    (perform r c s).free = e.free ∧ (perform r c s).obj = e.obj ∧ (perform r c s).ports = e.ports ∧ (perform r c s).phys = e.phys ∧
    (perform r c s).media = e.media ∧ (perform r c s).video = e.video ∧ (perform r c s).accord = e.accord ∧ (perform r c s).mem = e.mem ∧
    (perform r c s).orgue = e.orgue ∧ (perform r c s).tim = e.tim ∧
    (perform r c s).counters = e.counters ∧ (perform r c s).objCounters = e.objCounters := by
  unfold perform leaveQuiesce
  dsimp only
  repeat' split
  all_goals simp

/-- QUIESCE alone may change beside the effect, in the AON records. -/
theorem perform_mon (r : CmdRule) (c : Cmd) (s : State) :
    (perform r c s).mon = if (r.effect c s).2.mon.quiesce ∧ needsClusters r.op then { (r.effect c s).2.mon with quiesce := false }
      else (r.effect c s).2.mon := by
  unfold perform leaveQuiesce
  dsimp only
  repeat' split
  all_goals simp_all

/-- The HBM too is left as the effect leaves it, but for the end of self-refresh with QUIESCE. -/
theorem perform_hbm (r : CmdRule) (c : Cmd) (s : State) :
    (perform r c s).hbm = if (r.effect c s).2.mon.quiesce ∧ needsClusters r.op then (r.effect c s).2.hbm.roused
      else (r.effect c s).2.hbm := by
  unfold perform leaveQuiesce
  dsimp only
  repeat' split
  all_goals simp_all

/-- A command that meets every condition of R82 takes effect at once. -/
theorem issue_performs {r : CmdRule} {c : Cmd} {s : State} (h : Admits r c s) :
    issue r c s = .next { perform r c s with pending := s.pending } := by
  obtain ⟨h1, h2, h3, h4, h5, h6⟩ := h
  rw [issue, done_awake _ h1]
  have : ¬ (r.waits c s = true ∨ behindWaiting c s = true ∨ (r.logged = true ∧ logBusy s = true)) := by
    rintro (h | h | ⟨h, h'⟩)
    · simp [h4] at h
    · simp [h5] at h
    · simp [h6 h] at h'
  simp only [issued, h2, if_true, h3, if_neg this]

/-- A command that fails a check is answered with that check's status and DETAIL, and nothing else happens but the counting of R27. -/
theorem issue_fails {r : CmdRule} {c : Cmd} {s : State} {f : Fail} (h1 : s.mon.inReset = false) (h2 : noseRuns s = true)
    (h3 : fullCheck r c s = some f) :
    issue r c s = .next { answer r.op c (.ofFail f) (countFailure r c f s) with pending := s.pending } := by
  rw [issue, done_awake _ h1]
  simp only [issued, h2, if_true, h3]

end Sys2Proof.Machine
end

