-- ==== Sys2Proof/Laws/PerInstr.lean ====
section
/-! SUPPORT. The family Payload of LAWS.json: for every command, what its well-formedness rests on. -/

namespace Sys2Proof.Laws.Payload

/-- A host command is well formed exactly when its descriptor is (R79, R80). -/
def Statement (i : Instr) : Prop := ∀ c, i.cmd? = some c → i.wf = c.wf

theorem devQuery (c : Cmd) : Statement (.devQuery c) := fun _ h => by cases h; rfl
theorem devReset (c : Cmd) : Statement (.devReset c) := fun _ h => by cases h; rfl
theorem ringCreate (c : Cmd) : Statement (.ringCreate c) := fun _ h => by cases h; rfl
theorem ringDestroy (c : Cmd) : Statement (.ringDestroy c) := fun _ h => by cases h; rfl
theorem ringReset (c : Cmd) : Statement (.ringReset c) := fun _ h => by cases h; rfl
theorem vectorConfig (c : Cmd) : Statement (.vectorConfig c) := fun _ h => by cases h; rfl
theorem portConfig (c : Cmd) : Statement (.portConfig c) := fun _ h => by cases h; rfl
theorem watchdogSet (c : Cmd) : Statement (.watchdogSet c) := fun _ h => by cases h; rfl
theorem fwUpdate (c : Cmd) : Statement (.fwUpdate c) := fun _ h => by cases h; rfl
theorem debugLock (c : Cmd) : Statement (.debugLock c) := fun _ h => by cases h; rfl
theorem tenantCreate (c : Cmd) : Statement (.tenantCreate c) := fun _ h => by cases h; rfl
theorem tenantModify (c : Cmd) : Statement (.tenantModify c) := fun _ h => by cases h; rfl
theorem tenantDestroy (c : Cmd) : Statement (.tenantDestroy c) := fun _ h => by cases h; rfl
theorem tenantQuery (c : Cmd) : Statement (.tenantQuery c) := fun _ h => by cases h; rfl
theorem tenantRoute (c : Cmd) : Statement (.tenantRoute c) := fun _ h => by cases h; rfl
theorem confCreate (c : Cmd) : Statement (.confCreate c) := fun _ h => by cases h; rfl
theorem confModify (c : Cmd) : Statement (.confModify c) := fun _ h => by cases h; rfl
theorem confDestroy (c : Cmd) : Statement (.confDestroy c) := fun _ h => by cases h; rfl
theorem confQuery (c : Cmd) : Statement (.confQuery c) := fun _ h => by cases h; rfl
theorem legAttach (c : Cmd) : Statement (.legAttach c) := fun _ h => by cases h; rfl
theorem legEnable (c : Cmd) : Statement (.legEnable c) := fun _ h => by cases h; rfl
theorem legModify (c : Cmd) : Statement (.legModify c) := fun _ h => by cases h; rfl
theorem legHold (c : Cmd) : Statement (.legHold c) := fun _ h => by cases h; rfl
theorem legResume (c : Cmd) : Statement (.legResume c) := fun _ h => by cases h; rfl
theorem legMove (c : Cmd) : Statement (.legMove c) := fun _ h => by cases h; rfl
theorem legDetach (c : Cmd) : Statement (.legDetach c) := fun _ h => by cases h; rfl
theorem legQuery (c : Cmd) : Statement (.legQuery c) := fun _ h => by cases h; rfl
theorem streamAdd (c : Cmd) : Statement (.streamAdd c) := fun _ h => by cases h; rfl
theorem streamRemove (c : Cmd) : Statement (.streamRemove c) := fun _ h => by cases h; rfl
theorem streamModify (c : Cmd) : Statement (.streamModify c) := fun _ h => by cases h; rfl
theorem streamRoute (c : Cmd) : Statement (.streamRoute c) := fun _ h => by cases h; rfl
theorem streamKeypic (c : Cmd) : Statement (.streamKeypic c) := fun _ h => by cases h; rfl
theorem slotAssign (c : Cmd) : Statement (.slotAssign c) := fun _ h => by cases h; rfl
theorem keyLoad (c : Cmd) : Statement (.keyLoad c) := fun _ h => by cases h; rfl
theorem keyErase (c : Cmd) : Statement (.keyErase c) := fun _ h => by cases h; rfl
theorem keyDerive (c : Cmd) : Statement (.keyDerive c) := fun _ h => by cases h; rfl
theorem keyQuery (c : Cmd) : Statement (.keyQuery c) := fun _ h => by cases h; rfl
theorem graphLoad (c : Cmd) : Statement (.graphLoad c) := fun _ h => by cases h; rfl
theorem graphSwap (c : Cmd) : Statement (.graphSwap c) := fun _ h => by cases h; rfl
theorem graphUnload (c : Cmd) : Statement (.graphUnload c) := fun _ h => by cases h; rfl
theorem mixCreate (c : Cmd) : Statement (.mixCreate c) := fun _ h => by cases h; rfl
theorem mixModify (c : Cmd) : Statement (.mixModify c) := fun _ h => by cases h; rfl
theorem mixDestroy (c : Cmd) : Statement (.mixDestroy c) := fun _ h => by cases h; rfl
theorem tonePlay (c : Cmd) : Statement (.tonePlay c) := fun _ h => by cases h; rfl
theorem toneStop (c : Cmd) : Statement (.toneStop c) := fun _ h => by cases h; rfl
theorem isolationSet (c : Cmd) : Statement (.isolationSet c) := fun _ h => by cases h; rfl
theorem layoutCreate (c : Cmd) : Statement (.layoutCreate c) := fun _ h => by cases h; rfl
theorem layoutModify (c : Cmd) : Statement (.layoutModify c) := fun _ h => by cases h; rfl
theorem layoutDestroy (c : Cmd) : Statement (.layoutDestroy c) := fun _ h => by cases h; rfl
theorem layerFlip (c : Cmd) : Statement (.layerFlip c) := fun _ h => by cases h; rfl
theorem fenceSignal (c : Cmd) : Statement (.fenceSignal c) := fun _ h => by cases h; rfl
theorem tilesetCreate (c : Cmd) : Statement (.tilesetCreate c) := fun _ h => by cases h; rfl
theorem tilesetDestroy (c : Cmd) : Statement (.tilesetDestroy c) := fun _ h => by cases h; rfl
theorem scalerBankLoad (c : Cmd) : Statement (.scalerBankLoad c) := fun _ h => by cases h; rfl
theorem policerSet (c : Cmd) : Statement (.policerSet c) := fun _ h => by cases h; rfl
theorem shaperSet (c : Cmd) : Statement (.shaperSet c) := fun _ h => by cases h; rfl
theorem estimatorSet (c : Cmd) : Statement (.estimatorSet c) := fun _ h => by cases h; rfl
theorem schedWeightSet (c : Cmd) : Statement (.schedWeightSet c) := fun _ h => by cases h; rfl
theorem gateSet (c : Cmd) : Statement (.gateSet c) := fun _ h => by cases h; rfl
theorem dscpMapSet (c : Cmd) : Statement (.dscpMapSet c) := fun _ h => by cases h; rfl
theorem timeStep (c : Cmd) : Statement (.timeStep c) := fun _ h => by cases h; rfl
theorem timeRate (c : Cmd) : Statement (.timeRate c) := fun _ h => by cases h; rfl
theorem timeQuery (c : Cmd) : Statement (.timeQuery c) := fun _ h => by cases h; rfl
theorem ptpConfig (c : Cmd) : Statement (.ptpConfig c) := fun _ h => by cases h; rfl
theorem ppsConfig (c : Cmd) : Statement (.ppsConfig c) := fun _ h => by cases h; rfl
theorem portTsComp (c : Cmd) : Statement (.portTsComp c) := fun _ h => by cases h; rfl
theorem twinConfig (c : Cmd) : Statement (.twinConfig c) := fun _ h => by cases h; rfl
theorem twinRoleSet (c : Cmd) : Statement (.twinRoleSet c) := fun _ h => by cases h; rfl
theorem twinResync (c : Cmd) : Statement (.twinResync c) := fun _ h => by cases h; rfl
theorem twinQuery (c : Cmd) : Statement (.twinQuery c) := fun _ h => by cases h; rfl
theorem counterRead (c : Cmd) : Statement (.counterRead c) := fun _ h => by cases h; rfl
theorem statusRead (c : Cmd) : Statement (.statusRead c) := fun _ h => by cases h; rfl
theorem portLoopback (c : Cmd) : Statement (.portLoopback c) := fun _ h => by cases h; rfl
theorem selftest (c : Cmd) : Statement (.selftest c) := fun _ h => by cases h; rfl
theorem partitionSet (c : Cmd) : Statement (.partitionSet c) := fun _ h => by cases h; rfl
theorem partitionQuery (c : Cmd) : Statement (.partitionQuery c) := fun _ h => by cases h; rfl
theorem poolQuery (c : Cmd) : Statement (.poolQuery c) := fun _ h => by cases h; rfl
theorem cascadeConfig (c : Cmd) : Statement (.cascadeConfig c) := fun _ h => by cases h; rfl
theorem trunkCreate (c : Cmd) : Statement (.trunkCreate c) := fun _ h => by cases h; rfl
theorem trunkModify (c : Cmd) : Statement (.trunkModify c) := fun _ h => by cases h; rfl
theorem trunkDestroy (c : Cmd) : Statement (.trunkDestroy c) := fun _ h => by cases h; rfl
theorem commandFetch (dma : Dma) : Statement (.commandFetch dma) := fun _ h => nomatch h
theorem injectionFetch (dma : Dma) : Statement (.injectionFetch dma) := fun _ h => nomatch h
theorem doorbell (fn : Fn) (ring : Nat) (size : Nat) (value : Word) : Statement (.doorbell fn ring size value) := fun _ h => nomatch h
theorem hstAdmEnable (fn : Fn) (value : Word) : Statement (.hstAdmEnable fn value) := fun _ h => nomatch h
theorem hstAdmDisable (fn : Fn) (value : Word) : Statement (.hstAdmDisable fn value) := fun _ h => nomatch h
theorem admErrResClear (fn : Fn) : Statement (.admErrResClear fn) := fun _ h => nomatch h
theorem admErrCfgClear (fn : Fn) : Statement (.admErrCfgClear fn) := fun _ h => nomatch h
theorem adminRingsFree (fn : Fn) : Statement (.adminRingsFree fn) := fun _ h => nomatch h
theorem registerWrite (fn : Fn) (addr : Nat) (size : Nat) (value : Word64) : Statement (.registerWrite fn addr size value) := fun _ h => nomatch h
theorem timNowRead (fn : Fn) (addr : Nat) (size : Nat) : Statement (.timNowRead fn addr size) := fun _ h => nomatch h
theorem hbmMaxDebtRead (stack : StackNo) : Statement (.hbmMaxDebtRead stack) := fun _ h => nomatch h
theorem macLaneMapWrite (phys : Fin 4) (value : Word) : Statement (.macLaneMapWrite phys value) := fun _ h => nomatch h
theorem twnRetrain : Statement (.twnRetrain) := fun _ h => nomatch h
theorem hbmMitSeedWrite (hi : Bool) (value : Word) : Statement (.hbmMitSeedWrite hi value) := fun _ h => nomatch h
theorem hbmRefCtlWrite (value : Word) : Statement (.hbmRefCtlWrite value) := fun _ h => nomatch h
theorem hbmMitCtlWrite (value : Word) : Statement (.hbmMitCtlWrite value) := fun _ h => nomatch h
theorem monOpLockSet (value : Word) : Statement (.monOpLockSet value) := fun _ h => nomatch h
theorem monResetCauseClear (value : Word) : Statement (.monResetCauseClear value) := fun _ h => nomatch h
theorem monVmonAlarmClear (value : Word) : Statement (.monVmonAlarmClear value) := fun _ h => nomatch h
theorem quiesceEnWrite (value : Word) : Statement (.quiesceEnWrite value) := fun _ h => nomatch h
theorem accDbgHalt (core : CoreNo) (value : Word) : Statement (.accDbgHalt core value) := fun _ h => nomatch h
theorem accDbgStep (core : CoreNo) (value : Word) : Statement (.accDbgStep core value) := fun _ h => nomatch h
theorem smbusBlockRead (code : Byte) : Statement (.smbusBlockRead code) := fun _ h => nomatch h
theorem jtagLockDebug : Statement (.jtagLockDebug) := fun _ h => nomatch h
theorem pcieConfigRequest (req : CfgRequest) : Statement (.pcieConfigRequest req) := fun _ h => nomatch h
theorem resetNRelease : Statement (.resetNRelease) := fun _ h => nomatch h
theorem coldReset (cause : ColdCause) : Statement (.coldReset cause) := fun _ h => nomatch h
theorem warmReset (cause : WarmCause) : Statement (.warmReset cause) := fun _ h => nomatch h
theorem pfFlr : Statement (.pfFlr) := fun _ h => nomatch h
theorem vfFlr (fn : Fn) : Statement (.vfFlr fn) := fun _ h => nomatch h
theorem d3hotEntry (fn : Fn) : Statement (.d3hotEntry fn) := fun _ h => nomatch h
theorem d3hotExit (fn : Fn) : Statement (.d3hotExit fn) := fun _ h => nomatch h
theorem linkL1Exit : Statement (.linkL1Exit) := fun _ h => nomatch h
theorem bootVerify (slotA : FlashImage) (slotB : FlashImage) : Statement (.bootVerify slotA slotB) := fun _ h => nomatch h
theorem hbmTraining (stack : StackNo) (r : TrainResult) : Statement (.hbmTraining stack r) := fun _ h => nomatch h
theorem blotterServiceStart : Statement (.blotterServiceStart) := fun _ h => nomatch h
theorem fullServiceStart : Statement (.fullServiceStart) := fun _ h => nomatch h
theorem quiesceEntry : Statement (.quiesceEntry) := fun _ h => nomatch h
theorem quiesceExit (forCommand : Bool) : Statement (.quiesceExit forCommand) := fun _ h => nomatch h
theorem watchdogExpiry : Statement (.watchdogExpiry) := fun _ h => nomatch h
theorem refclkSysLoss : Statement (.refclkSysLoss) := fun _ h => nomatch h
theorem timeRefclkLoss : Statement (.timeRefclkLoss) := fun _ h => nomatch h
theorem timeRefclkReturn : Statement (.timeRefclkReturn) := fun _ h => nomatch h
theorem ethRefclkLoss : Statement (.ethRefclkLoss) := fun _ h => nomatch h
theorem monitorSample (temps : List Int) (volts : List Nat) (procs : List Nat) : Statement (.monitorSample temps volts procs) := fun _ h => nomatch h
theorem throttleStageChange (rise : Bool) (sensor : Fin 28) : Statement (.throttleStageChange rise sensor) := fun _ h => nomatch h
theorem thermTrip (sensor : Fin 24) : Statement (.thermTrip sensor) := fun _ h => nomatch h
theorem vmonAlarm (monitor : Fin 16) : Statement (.vmonAlarm monitor) := fun _ h => nomatch h
theorem vmonTrip (monitor : Fin 16) : Statement (.vmonTrip monitor) := fun _ h => nomatch h
theorem frameReceive (port : PortNo) (f : WireFrame) : Statement (.frameReceive port f) := fun _ h => nomatch h
theorem pauseExpiry (port : PortNo) (prio : Option (Fin 8)) : Statement (.pauseExpiry port prio) := fun _ h => nomatch h
theorem linkUp (port : PortNo) : Statement (.linkUp port) := fun _ h => nomatch h
theorem linkDown (port : PortNo) : Statement (.linkDown port) := fun _ h => nomatch h
theorem frameTransmit (port : PortNo) : Statement (.frameTransmit port) := fun _ h => nomatch h
theorem txUnderrun (port : PortNo) : Statement (.txUnderrun port) := fun _ h => nomatch h
theorem logTransmit (port : PortNo) : Statement (.logTransmit port) := fun _ h => nomatch h
theorem parseFrame (port : PortNo) : Statement (.parseFrame port) := fun _ h => nomatch h
theorem attarIngress : Statement (.attarIngress) := fun _ h => nomatch h
theorem attarEgress : Statement (.attarEgress) := fun _ h => nomatch h
theorem egressSchedule (port : PortNo) : Statement (.egressSchedule port) := fun _ h => nomatch h
theorem taskAdmit (t : TaskReq) : Statement (.taskAdmit t) := fun _ h => nomatch h
theorem flagEvent (slot : Nat) (gen : Nat) (bits : Word) : Statement (.flagEvent slot gen bits) := fun _ h => nomatch h
theorem taskDispatch (completer : Fin 224) : Statement (.taskDispatch completer) := fun _ h => nomatch h
theorem completionCollect (arrivals : List (Nat × Nat)) : Statement (.completionCollect arrivals) := fun _ h => nomatch h
theorem taskRelease (flow : Nat) : Statement (.taskRelease flow) := fun _ h => nomatch h
theorem engineFault (f : FaultReport) : Statement (.engineFault f) := fun _ h => nomatch h
theorem bufferRequest (port : Fin 16) (size : Nat) : Statement (.bufferRequest port size) := fun _ h => nomatch h
theorem bufferFree (owner : Nat) (handle : Word) (handoff : Option Nat) : Statement (.bufferFree owner handle handoff) := fun _ h => nomatch h
theorem bufferShare (owner : Nat) (handle : Word) (mask : BitVec 4) : Statement (.bufferShare owner handle mask) := fun _ h => nomatch h
theorem sqWrite (queue : Nat) (e : SqEntry) : Statement (.sqWrite queue e) := fun _ h => nomatch h
theorem sqRead (queue : Nat) : Statement (.sqRead queue) := fun _ h => nomatch h
theorem sqRetract (queue : Nat) : Statement (.sqRetract queue) := fun _ h => nomatch h
theorem discardRest (queue : Nat) : Statement (.discardRest queue) := fun _ h => nomatch h
theorem sqFrameRelease (queue : Nat) : Statement (.sqFrameRelease queue) := fun _ h => nomatch h
theorem hbmRequest (r : HbmReq) : Statement (.hbmRequest r) := fun _ h => nomatch h
theorem caParityError (stack : StackNo) (faulty : Nat) (again : Bool) : Statement (.caParityError stack faulty again) := fun _ h => nomatch h
theorem refreshInterval (pc : PcNo) : Statement (.refreshInterval pc) := fun _ h => nomatch h
theorem refreshMakeup (pc : PcNo) : Statement (.refreshMakeup pc) := fun _ h => nomatch h
theorem hbmTempRead (stack : StackNo) (temp : BitVec 8) : Statement (.hbmTempRead stack temp) := fun _ h => nomatch h
theorem patrolScrub (addr : BitVec 36) (errorBits : Nat) : Statement (.patrolScrub addr errorBits) := fun _ h => nomatch h
theorem selfRefreshEntry (pc : PcNo) (phase : Fin 5) : Statement (.selfRefreshEntry pc phase) := fun _ h => nomatch h
theorem selfRefreshExit (pc : PcNo) : Statement (.selfRefreshExit pc) := fun _ h => nomatch h
theorem audioTick (n : Nat) : Statement (.audioTick n) := fun _ h => nomatch h
theorem halfTick (m : Nat) : Statement (.halfTick m) := fun _ h => nomatch h
theorem pictureTick (rate : Nat) (k : Nat) : Statement (.pictureTick rate k) := fun _ h => nomatch h
theorem fenceTimeout (layout : Nat) (layer : Nat) : Statement (.fenceTimeout layout layer) := fun _ h => nomatch h
theorem rankingResort (conf : Nat) (n : Nat) : Statement (.rankingResort conf n) := fun _ h => nomatch h
theorem talkerTimeout (conf : Nat) (n : Nat) : Statement (.talkerTimeout conf n) := fun _ h => nomatch h
theorem playoutDepthMove (stream : Nat) (n : Nat) : Statement (.playoutDepthMove stream n) := fun _ h => nomatch h
theorem loudnessUpdate (stream : Nat) (n : Nat) : Statement (.loudnessUpdate stream n) := fun _ h => nomatch h
theorem audioSilenceReset (stream : Nat) : Statement (.audioSilenceReset stream) := fun _ h => nomatch h
theorem estimatorDecision (leg : Handle) (n : Nat) : Statement (.estimatorDecision leg n) := fun _ h => nomatch h
theorem feedbackTimeoutHalving (leg : Handle) (n : Nat) : Statement (.feedbackTimeoutHalving leg n) := fun _ h => nomatch h
theorem audioBlock (conf : Nat) (n : Nat) : Statement (.audioBlock conf n) := fun _ h => nomatch h
theorem talkerReport (conf : Nat) (n : Nat) : Statement (.talkerReport conf n) := fun _ h => nomatch h
theorem cascadeReturnMix (conf : Nat) (n : Nat) : Statement (.cascadeReturnMix conf n) := fun _ h => nomatch h
theorem toneCadenceEdge (obj : Handle) (n : Nat) : Statement (.toneCadenceEdge obj n) := fun _ h => nomatch h
theorem toneEnd (obj : Handle) (n : Nat) : Statement (.toneEnd obj n) := fun _ h => nomatch h
theorem decodePicture (stream ts : Nat) : Statement (.decodePicture stream ts) := fun _ h => nomatch h
theorem pictureAbandon (stream : Nat) (n : Nat) : Statement (.pictureAbandon stream n) := fun _ h => nomatch h
theorem nackRepeat (stream : Nat) (n : Nat) : Statement (.nackRepeat stream n) := fun _ h => nomatch h
theorem keyRequestRepeat (stream : Nat) (n : Nat) : Statement (.keyRequestRepeat stream n) := fun _ h => nomatch h
theorem layoutPicture (layout : Nat) (k : Nat) : Statement (.layoutPicture layout k) := fun _ h => nomatch h
theorem tileScaling (tileset : Nat) (member : Nat) (k : Nat) : Statement (.tileScaling tileset member k) := fun _ h => nomatch h
theorem encodePicture (ctx : Nat) (k : Nat) : Statement (.encodePicture ctx k) := fun _ h => nomatch h
theorem stitchPicture (stream : Nat) (k : Nat) : Statement (.stitchPicture stream k) := fun _ h => nomatch h
theorem bridgeRejoin (stream : Nat) (k : Nat) : Statement (.bridgeRejoin stream k) := fun _ h => nomatch h
theorem keyDrainEnd (slot : Nat) : Statement (.keyDrainEnd slot) := fun _ h => nomatch h
theorem keyEraseComplete (slot : Nat) : Statement (.keyEraseComplete slot) := fun _ h => nomatch h
theorem fallbackKeyExpiry (slot : Nat) : Statement (.fallbackKeyExpiry slot) := fun _ h => nomatch h
theorem legDrainEnd (leg : Nat) : Statement (.legDrainEnd leg) := fun _ h => nomatch h
theorem gateScheduleSwitch (port : PortNo) : Statement (.gateScheduleSwitch port) := fun _ h => nomatch h
theorem gateInstant (port : PortNo) : Statement (.gateInstant port) := fun _ h => nomatch h
theorem audioGateOverride (leg : Nat) : Statement (.audioGateOverride leg) := fun _ h => nomatch h
theorem trunkKeepalive (trunk : Nat) : Statement (.trunkKeepalive trunk) := fun _ h => nomatch h
theorem trunkDown (trunk : Nat) : Statement (.trunkDown trunk) := fun _ h => nomatch h
theorem eventFlush (fn : Fn) (ring : Nat) : Statement (.eventFlush fn ring) := fun _ h => nomatch h
theorem vectorModTimeExpiry (fn : Fn) (vector : Fin 32) : Statement (.vectorModTimeExpiry fn vector) := fun _ h => nomatch h
theorem dmaForcedGrant (cluster : ClusterNo) (bank : Fin 16) : Statement (.dmaForcedGrant cluster bank) := fun _ h => nomatch h
theorem dmaTransfer (core : CoreNo) (t : DmaReq) : Statement (.dmaTransfer core t) := fun _ h => nomatch h
theorem interruptEntry (core : CoreNo) (cause : Fin 3) : Statement (.interruptEntry core cause) := fun _ h => nomatch h
theorem add (core : CoreNo) (f : FmtA) : Statement (.add core f) := fun _ h => nomatch h
theorem sub (core : CoreNo) (f : FmtA) : Statement (.sub core f) := fun _ h => nomatch h
theorem and (core : CoreNo) (f : FmtA) : Statement (.and core f) := fun _ h => nomatch h
theorem or (core : CoreNo) (f : FmtA) : Statement (.or core f) := fun _ h => nomatch h
theorem xor (core : CoreNo) (f : FmtA) : Statement (.xor core f) := fun _ h => nomatch h
theorem sll (core : CoreNo) (f : FmtA) : Statement (.sll core f) := fun _ h => nomatch h
theorem srl (core : CoreNo) (f : FmtA) : Statement (.srl core f) := fun _ h => nomatch h
theorem sra (core : CoreNo) (f : FmtA) : Statement (.sra core f) := fun _ h => nomatch h
theorem min (core : CoreNo) (f : FmtA) : Statement (.min core f) := fun _ h => nomatch h
theorem max (core : CoreNo) (f : FmtA) : Statement (.max core f) := fun _ h => nomatch h
theorem abs (core : CoreNo) (f : FmtA) : Statement (.abs core f) := fun _ h => nomatch h
theorem slt (core : CoreNo) (f : FmtA) : Statement (.slt core f) := fun _ h => nomatch h
theorem clz (core : CoreNo) (f : FmtA) : Statement (.clz core f) := fun _ h => nomatch h
theorem jr (core : CoreNo) (f : FmtA) : Statement (.jr core f) := fun _ h => nomatch h
theorem aadd (core : CoreNo) (f : FmtA) : Statement (.aadd core f) := fun _ h => nomatch h
theorem aswp (core : CoreNo) (f : FmtA) : Statement (.aswp core f) := fun _ h => nomatch h
theorem addi (core : CoreNo) (f : FmtB) : Statement (.addi core f) := fun _ h => nomatch h
theorem andi (core : CoreNo) (f : FmtB) : Statement (.andi core f) := fun _ h => nomatch h
theorem ori (core : CoreNo) (f : FmtB) : Statement (.ori core f) := fun _ h => nomatch h
theorem lui (core : CoreNo) (f : FmtB) : Statement (.lui core f) := fun _ h => nomatch h
theorem slli (core : CoreNo) (f : FmtB) : Statement (.slli core f) := fun _ h => nomatch h
theorem srli (core : CoreNo) (f : FmtB) : Statement (.srli core f) := fun _ h => nomatch h
theorem srai (core : CoreNo) (f : FmtB) : Statement (.srai core f) := fun _ h => nomatch h
theorem srar (core : CoreNo) (f : FmtB) : Statement (.srar core f) := fun _ h => nomatch h
theorem lw (core : CoreNo) (f : FmtB) : Statement (.lw core f) := fun _ h => nomatch h
theorem lh (core : CoreNo) (f : FmtB) : Statement (.lh core f) := fun _ h => nomatch h
theorem sw (core : CoreNo) (f : FmtB) : Statement (.sw core f) := fun _ h => nomatch h
theorem sh (core : CoreNo) (f : FmtB) : Statement (.sh core f) := fun _ h => nomatch h
theorem csrr (core : CoreNo) (f : FmtB) : Statement (.csrr core f) := fun _ h => nomatch h
theorem csrw (core : CoreNo) (f : FmtB) : Statement (.csrw core f) := fun _ h => nomatch h
theorem beqz (core : CoreNo) (f : FmtC) : Statement (.beqz core f) := fun _ h => nomatch h
theorem bnez (core : CoreNo) (f : FmtC) : Statement (.bnez core f) := fun _ h => nomatch h
theorem bltz (core : CoreNo) (f : FmtC) : Statement (.bltz core f) := fun _ h => nomatch h
theorem bgez (core : CoreNo) (f : FmtC) : Statement (.bgez core f) := fun _ h => nomatch h
theorem j (core : CoreNo) (f : FmtC) : Statement (.j core f) := fun _ h => nomatch h
theorem call (core : CoreNo) (f : FmtC) : Statement (.call core f) := fun _ h => nomatch h
theorem rpt (core : CoreNo) (f : FmtC) : Statement (.rpt core f) := fun _ h => nomatch h
theorem wait (core : CoreNo) (f : FmtC) : Statement (.wait core f) := fun _ h => nomatch h
theorem reti (core : CoreNo) (f : FmtC) : Statement (.reti core f) := fun _ h => nomatch h
theorem mac (core : CoreNo) (f : FmtD) : Statement (.mac core f) := fun _ h => nomatch h
theorem msu (core : CoreNo) (f : FmtD) : Statement (.msu core f) := fun _ h => nomatch h
theorem mac2m (core : CoreNo) (f : FmtD) : Statement (.mac2m core f) := fun _ h => nomatch h
theorem mac4m (core : CoreNo) (f : FmtD) : Statement (.mac4m core f) := fun _ h => nomatch h
theorem aclr (core : CoreNo) (f : FmtD) : Statement (.aclr core f) := fun _ h => nomatch h
theorem rnd (core : CoreNo) (f : FmtD) : Statement (.rnd core f) := fun _ h => nomatch h
theorem ard (core : CoreNo) (f : FmtD) : Statement (.ard core f) := fun _ h => nomatch h
theorem awr (core : CoreNo) (f : FmtD) : Statement (.awr core f) := fun _ h => nomatch h
theorem ashr (core : CoreNo) (f : FmtD) : Statement (.ashr core f) := fun _ h => nomatch h
theorem ppsInEdge : Statement (.ppsInEdge) := fun _ h => nomatch h
theorem ppsLost : Statement (.ppsLost) := fun _ h => nomatch h
theorem announceTimeout : Statement (.announceTimeout) := fun _ h => nomatch h
theorem ptpTransmit (port : PortNo) (kind : PtpTx) : Statement (.ptpTransmit port kind) := fun _ h => nomatch h
theorem slewEnd : Statement (.slewEnd) := fun _ h => nomatch h
theorem llynasLinkTraining (working : Byte) (order : List (Fin 8)) (inverted : Byte) : Statement (.llynasLinkTraining working order inverted) := fun _ h => nomatch h
theorem laneFastRetrain (working : Byte) : Statement (.laneFastRetrain working) := fun _ h => nomatch h
theorem blockReceive (blk : List Byte) : Statement (.blockReceive blk) := fun _ h => nomatch h
theorem pair (peer : PeerPair) : Statement (.pair peer) := fun _ h => nomatch h
theorem logApply : Statement (.logApply) := fun _ h => nomatch h
theorem watermark (port : PortNo) : Statement (.watermark port) := fun _ h => nomatch h
theorem digest (n : Nat) : Statement (.digest n) := fun _ h => nomatch h
theorem digestTimeout : Statement (.digestTimeout) := fun _ h => nomatch h
theorem autoResyncStart : Statement (.autoResyncStart) := fun _ h => nomatch h
theorem time : Statement (.time) := fun _ h => nomatch h
theorem heartbeat : Statement (.heartbeat) := fun _ h => nomatch h
theorem heartbeatTimeout : Statement (.heartbeatTimeout) := fun _ h => nomatch h
theorem linkLossTimeout : Statement (.linkLossTimeout) := fun _ h => nomatch h
theorem creditTimeout : Statement (.creditTimeout) := fun _ h => nomatch h
theorem plannedSwitchover : Statement (.plannedSwitchover) := fun _ h => nomatch h
theorem resyncObjectSync (obj : Handle) : Statement (.resyncObjectSync obj) := fun _ h => nomatch h
theorem resyncComplete : Statement (.resyncComplete) := fun _ h => nomatch h
theorem twinLiveInChange (level : Bool) : Statement (.twinLiveInChange level) := fun _ h => nomatch h
theorem perstNRelease : Statement (.perstNRelease) := fun _ h => nomatch h
theorem aonPowerUp (straps : BitVec 2) : Statement (.aonPowerUp straps) := fun _ h => nomatch h
theorem aspmL1Entry (sub : Fin 3) : Statement (.aspmL1Entry sub) := fun _ h => nomatch h
theorem heartbeatGeneratorStall : Statement (.heartbeatGeneratorStall) := fun _ h => nomatch h
theorem reservedOpcode (core : CoreNo) (w : Word) : Statement (.reservedOpcode core w) := fun _ h => nomatch h

end Sys2Proof.Laws.Payload
end

