-- ==== Sys2Proof/Tests/Slice0.lean ====
section
/-! SUPPORT. The model's own tests: ill-formed terms that the checks refuse, words and worked numbers of the manual, and for every statement
for the provers a concrete state and operands that meet its hypotheses, clause by clause. -/

namespace Sys2Proof.Tests

set_option Elab.async false

open Sys2Proof.Machine

/-! ### Small commands and states -/

/-- Bytes of which the listed fields, (offset, size, value) counted from `base`, are set, low byte at the lowest offset. -/
def fill (base len : Nat) (fs : List (Nat × Nat × Nat)) : List Byte :=
  fs.foldl (fun b f => patch b (f.1 - base) (leBytes f.2.1 f.2.2)) (List.replicate len 0)

/-- A descriptor of function 0 on ring 1 with its parameters inline from byte 16 (Table 03-7). -/
def cmd (obj : Handle) (plen : Nat) (fs : List (Nat × Nat × Nat)) : Cmd :=
  { fn := 0, ring := 1, index := 0, dw0 := 0, tag := 7, plen := BitVec.ofNat 32 plen, object := obj, params := fill 16 48 fs, ext := none, data := none }

/-- A descriptor with an extended block, whose bytes count from 64 (R80). -/
def big (obj : Handle) (len : Nat) (fs : List (Nat × Nat × Nat)) : Cmd :=
  { fn := 0, ring := 1, index := 0, dw0 := 1, tag := 7, plen := BitVec.ofNat 32 len, object := obj, params := List.replicate 48 0,
    ext := some (fill 64 len fs), data := none }

/-- The same command with QUIET. -/
def quiet (c : Cmd) : Cmd := { c with dw0 := c.dw0 ||| 2 }

/-- The handle of tenant 0's object of first generation. -/
def h (ty i : Nat) : Handle := mkHandle 0 ty i 1

def hn (ty i : Nat) : Nat := (h ty i).toNat

/-- Every condition of `Admits`, as one Boolean. -/
def ok (r : CmdRule) (c : Cmd) (s : State) : Bool :=
  !s.mon.inReset && noseRuns s && (fullCheck r c s).isNone && !r.waits c s && !behindWaiting c s && (!r.logged || !logBusy s)

theorem admits_of_ok {r : CmdRule} {c : Cmd} {s : State} (h : ok r c s = true) : Admits r c s := by
  simp only [ok, Bool.and_eq_true, Bool.not_eq_true', Bool.or_eq_true, Option.isNone_iff_eq_none] at h
  obtain ⟨⟨⟨⟨⟨a, b⟩, c⟩, d⟩, e⟩, f⟩ := h
  exact ⟨a, b, c, d, e, fun g => by simpa [g] using f⟩

/-- Tenant 0 with 16 key slots and one local address (Table 02-6). -/
def ten : Tenant := { keySlots := 16, addrs := [⟨[10, 0, 0, 1] ++ List.replicate 12 0, 1, 65535, false⟩] }

/-- The device in full service with tenant 0 and its 16 empty slots. -/
def up : State :=
  { State.reset with
    mon := { State.reset.mon with inReset := false }
    nose := { State.reset.nose with service := .full }
    obj := { State.reset.obj with
      tenants := { live := [(0, ten)] }
      slots := { live := (List.range 16).map fun i => (i, { tenant := 0 }) } } }

/-- The command answers a next state. -/
def runs (i : Instr) (s : State) : Bool :=
  match exec i s with
  | .next _ => true
  | _ => false

/-! ### Ill-formed terms are refused -/

theorem smoke_params_length : Cmd.wf { cmd 0 0 [] with params := [] } = false := by decide +kernel
theorem smoke_ext_without_flag : Cmd.wf { big 0 64 [] with dw0 := 0 } = false := by decide +kernel
theorem smoke_ext_length : Cmd.wf { big 0 64 [] with ext := some [0] } = false := by decide +kernel
theorem smoke_training_channels : TrainResult.wf { identityOk := true, calibrationOk := true, caFails := [0], dqFails := [], patternOk := true } = false := by
  decide +kernel
theorem smoke_good_terms : Cmd.wf (cmd 0 0 []) = true ∧ Cmd.wf (big 0 64 []) = true := by decide +kernel

/-! ### The block as a whole -/

/-- StepRunsTheFrontCommand: an empty queue in reset and out of it. -/
theorem witness_step : (State.reset.pending = [] ∧ State.reset.mon.inReset = true) ∧ (up.pending = [] ∧ up.mon.inReset = false) := by decide +kernel

/-- CommandsCompleteAndResetHolds: RESET_N's release without TEST_MODE, another command, and a command that a device in reset does not take. -/
theorem witness_complete : (Instr.resetNRelease = .resetNRelease → State.reset.mon.testMode = false) ∧ Instr.linkL1Exit ≠ .resetNRelease ∧
    State.reset.mon.inReset = true ∧ aonRow .linkL1Exit = false := by decide +kernel

/-- StepKeepsHostMemoryCanonical: a step that writes host memory. -/
theorem witness_canonical : HostMemoryWf up ∧ ∃ t, step { up with pending := [.linkL1Exit] } = .next t :=
  ⟨(by decide +kernel : Memory.wf up.hst.mem = true), _, rfl⟩

/-- The operator lock set. -/
def locked : State := { up with mon := { up.mon with opLock := true } }

theorem witness_lock : up.mon.inReset = false ∧ locked.mon.opLock = true ∧ locked.mon.pwrGood = true ∧ runs (.registerWrite 0 0x300001C 4 70) locked = true ∧
    runs .linkL1Exit locked = true ∧ wideReset .linkL1Exit = false := by decide +kernel

theorem witness_time_counter : runs (.confCreate (cmd 0 12 [(17, 1, 8), (18, 2, 100)])) up = true ∧
    (hostRule? (.confCreate (cmd 0 12 [(17, 1, 8), (18, 2, 100)]))).isSome = true ∧
    (∀ c, Instr.confCreate (cmd 0 12 [(17, 1, 8), (18, 2, 100)]) ≠ .timeStep c ∧ Instr.confCreate (cmd 0 12 [(17, 1, 8), (18, 2, 100)]) ≠ .timeRate c) :=
  ⟨by decide +kernel, rfl, fun _ => ⟨nofun, nofun⟩⟩

/-! ### Host commands, rings and doorbells -/

def cmdRing : Ring := { state := .running, kind := .command, boundReply := 17, base := 0x1000, wb := 64 }
def rplRing : Ring := { state := .running, kind := .reply, base := 0x2000, prod := 5, cons := 3 }
def evtRing : Ring := { state := .running, kind := .event, base := 0x3000, held := [[1, 2, 3, 4, 5, 6, 7, 8]] }

def withRings (rs : List (Nat × Ring)) : State := { up with hst := { up.hst with fns := [(0, { ready := true, enable := true, rings := rs })] } }

/-- Rings 1, 17 and 33 of function 0 in use. -/
def ringed : State := withRings [(1, cmdRing), (17, rplRing), (33, evtRing)]

theorem reply_ready (c : Cmd) (hf : c.fn = 0) (hr : c.ring = 1) (s : State) (h1 : ringOf s 0 1 = some cmdRing) (h2 : ringOf s 0 17 = some rplRing)
    (h3 : (fnOf s 0).d3hot = false ∧ (fnOf s 0).flr = false ∧ entryReaches s 0 17 = true ∧ s.nose.behind = [] ∧ unanswered s = [] ∧ Memory.wf s.hst.mem = true) :
    ReplyReady c 17 rplRing s := by
  obtain ⟨a, b, d, e, g, f⟩ := h3
  have hf' : c.fn.val = 0 := by simp [hf]
  have hr' : c.ring.val = 1 := by simp [hr]
  refine ⟨by simp [hr], ⟨cmdRing, by rw [hf', hr', h1], rfl⟩, by decide, by rw [hf', h2], rfl, by decide, rfl, rfl, by rw [hf']; exact a, by rw [hf']; exact b,
    by rw [hf']; exact d, e, by rw [g]; simp, f⟩

/-- HostCommandsRunByTheirRules: a command that every check passes, and one that a check refuses. -/
theorem witness_rules : hostRule? (.confCreate (cmd 0 12 [(17, 1, 8), (18, 2, 100)])) = some (ruleConfCreate, cmd 0 12 [(17, 1, 8), (18, 2, 100)]) ∧
    ok ruleConfCreate (cmd 0 12 [(17, 1, 8), (18, 2, 100)]) up = true ∧
    (fullCheck ruleConfCreate (cmd 0 8 [(17, 1, 8)]) up).map Fail.status = some stLength :=
  ⟨rfl, by decide +kernel, by decide +kernel⟩

theorem witness_replies : ReplyReady (cmd 0 0 []) 17 rplRing ringed ∧ ok ruleDevQuery (cmd 0 0 []) ringed = true ∧ (cmd 0 0 []).quiet = false ∧
    ReplyReady (cmd 0 12 []) 17 rplRing ringed ∧ fullCheck ruleDevQuery (cmd 0 12 []) ringed = some ⟨stLength, 0⟩ ∧
    stLength ≠ stNotOwner ∧ stLength ≠ stTimeRefused ∧ stLength ≠ stOk := by
  refine ⟨reply_ready _ rfl rfl _ ?_ ?_ ?_, by decide +kernel, by decide +kernel, reply_ready _ rfl rfl _ ?_ ?_ ?_, by decide +kernel, ?_⟩ <;> decide +kernel

/-- The admin rings of function 0 as their registers start them. -/
def starting : State := { up with hst := { up.hst with fns := [(0, { cmdBase := 0x1000, cmdWb := 64, rplBase := 0x2000, evtBase := 0x3000 })] } }
def started : State := withRings [(0, { cmdRing with boundReply := 16 }), (16, rplRing), (32, evtRing)]
def drained : State := withRings [(0, { cmdRing with boundReply := 16, state := .draining, stop := true }), (16, rplRing), (32, { evtRing with state := .draining })]

def newRing : Cmd := cmd 0 36 [(16, 2, 18), (24, 8, 8192)]

theorem witness_rings : ok ruleRingCreate newRing up = true ∧ ok ruleRingDestroy (cmd 0 2 [(16, 2, 1)]) ringed = true ∧
    up.hst.badIova = [] ∧ ok ruleRingReset (cmd 0 2 [(16, 2, 17)]) ringed = true ∧ ringed.hst.badIova = [] ∧ ok ruleVectorConfig (cmd 0 6 [(16, 2, 31), (18, 2, 256), (20, 2, 1023)]) up = true := by decide +kernel

theorem witness_admin_rings : starting.mon.inReset = false ∧ starting.nose.service ≠ .off ∧ (fnOf starting 0).ready = false ∧ ringOf starting 0 0 = none ∧ starting.hst.badIova = [] ∧
    startLacks starting 0 = false ∧ (HstFn.start { fnOf starting 0 with cmdLog2 := 0, rplLog2 := 0, evtLog2 := 0 }).bad = false ∧
    (HstFn.start { fnOf starting 0 with cmdLog2 := 15, rplLog2 := 0, evtLog2 := 0 }).bad = true ∧ ((0x8000F000 : Word).getLsbD 31 = true) ∧
    (fnOf started 0).ready = true ∧ (ringOf started 0 0).isSome = true ∧ (ringOf started 0 32).isSome = true ∧
    (ringOf drained 0 0).map (·.stop) = some true ∧ adminDrained drained 0 = true ∧ (fnOf drained 0).heldStart = none := by decide +kernel

/-- Doorbells at their edges: the last index that fits and the one past it, the index 2^31 ahead, the current index, a wrong size. -/
theorem witness_doorbell : (let r : Ring := { cmdRing with prod := 4, cons := 2 }
      (r.cons + 64 - 4).toNat < 2 ^ 31 ∧ (r.cons + 64 - r.cons).toNat ≤ r.entries ∧ ¬ (r.cons + 65 - r.cons).toNat ≤ r.entries ∧
      2 ^ 31 ≤ ((4 + 0x80000000 : Word) - r.prod).toNat ∧ r.kind ≠ .reply ∧ (r.cons + 64 : Word) ≠ r.prod) ∧
    (rplRing.held = [] ∧ (4 : Word) ≠ rplRing.cons ∧ ((4 : Word) - rplRing.cons).toNat < 2 ^ 31 ∧ (rplRing.prod - 4).toNat ≤ rplRing.entries) ∧
    up.nose.behind = [] ∧ up.mon.softPending = none ∧ kindOf 1 ≠ none ∧ ringOf ringed 0 1 = some cmdRing ∧ kindOf 20000 = none ∧ ringOf ringed 0 2 = none := by decide +kernel

/-- A command ring with one entry in host memory, an event ring with a held event, and a vector with an event not yet signalled. -/
def fetching : State := { ringed with
  hst := { ringed.hst with
    mem := mwriteN ringed.hst.mem 0x1000 [1, 1]
    fns := [(0, { ready := true, enable := true, cfg := { msixEnable := true }, rings := [(1, { cmdRing with prod := 1 }), (17, rplRing), (33, evtRing)], vectors := [(0, { unsignalled := 1 })] })] } }

theorem witness_fetch : noseRuns fetching = true ∧ fetchTurn fetching = some (0, 1) ∧ ringOf fetching 0 1 = some { cmdRing with prod := 1 } ∧
    (let x := readCmd fetching 0 1 0 (hostRead ({ cmdRing with prod := 1 }.entryAddr 0) 64 fetching) true
     descriptorCheck x.2 = none ∧ x.1 ∈ opcodes) ∧ fetching.hst.badIova = [] ∧
    kindOf 33 = some .event ∧ evtRing.full = false ∧ evtRing.dropped = 0 ∧ 0 < (vectorOf fetching 0 0).unsignalled ∧
    (vectorOf fetching 0 0).masked = true ∧
    ({ masked := false, unsignalled := 1 } : Vector).masked = false ∧ (fnOf fetching 0).mute = false := by decide +kernel

/-! ### The Accord core -/

/-- The device with one core as given. -/
def withCore (c : Core) : State := { up with accord := { cores := [(17, c)], clusters := [(1, { scratch := [(0x43, 0x44), (0x101, 1)], dmaBusy := true })] } }

/-- g1 = -1, g2 = 3, g3 = 0x100, a0 = -2^71. -/
def regs : Core := { regs := [(1, 0xFFFFFFFF), (2, 3), (3, 0x100), (4, 0x102)], acc := [(0, 1 <<< 71)], pc := 0x40 }

def fa (t : BitVec 5) : FmtA := { d := 5, s := 1, t := t, ns := false, rsv := 0 }
def fb (s : BitVec 5) (imm : BitVec 16) : FmtB := { d := 5, s := s, imm := imm }
def fd (p q : BitVec 5) (sh : BitVec 6) : FmtD := { a := 0, p := p, q := q, ns := false, rsv := false, sh := sh, rsv2 := 0 }

/-- AccordSaturatingResults and AccordBitImmediateAndMoveResults: both operand forms, NS set, the largest shift, the whole range of RND's amounts, ARD's three
parts, CSRR in supervisor mode. -/
theorem witness_accord_results : (withCore regs).mon.inReset = false ∧ (coreOf (withCore regs) 17).clear = true ∧
    (fa 2).plain true true = true ∧ { fa 2 with ns := true }.plain true true = true ∧ (fa 0).plain false true = true ∧
    (fb 1 31).imm.toNat < 32 ∧ (fa 2).plain true false = true ∧ (fa 0).plain false false = true ∧ (fb 0 1).s = 0 ∧ (fb 1 31).imm ≠ 0 ∧
    (fd 6 0 63).plain true false true true = true ∧ (fd 6 0 0).plain true false true true = true ∧ (fd 6 0 2).plain true false false true = true ∧
    (coreOf (withCore regs) 17).user = false := by decide +kernel

/-- AccordAccumulatorResults: MAC and MSU, ACLR, AWR's parts, ASHR's largest shift, MAC2M over two pointers and over one. -/
theorem witness_accord_accumulators : (fd 1 2 0).plain true true true false = true ∧ (fd 0 0 0).plain false false false false = true ∧
    (fd 1 0 2).plain true false false true = true ∧ (fd 0 0 63).plain false false false true = true ∧
    regs.access (accClusterOf (withCore regs) 1) true false (regs.g 3).toNat 8 8 = .ok () := by
  refine ⟨by decide +kernel, by decide +kernel, by decide +kernel, by decide +kernel, by rfl⟩

theorem witness_accord_memory : Memory.wf (accClusterOf (withCore regs) 1).scratch = true ∧
    regs.access (accClusterOf (withCore regs) 1) true false 0x1FFFFC 4 4 = .ok () ∧ regs.access (accClusterOf (withCore regs) 1) true false 0x1FFFFE 2 2 = .ok () ∧
    regs.access (accClusterOf (withCore regs) 1) false true 0x100 4 4 = .ok () ∧ regs.access (accClusterOf (withCore regs) 1) true true 0x102 2 2 = .ok () ∧
    regs.access (accClusterOf (withCore regs) 1) true true 0x100 4 4 = .ok () ∧ { fa 2 with s := 3 }.plain true true = true := by
  refine ⟨by decide +kernel, by rfl, by rfl, by rfl, by rfl, by rfl, by decide +kernel⟩

/-- AccordTransfers: a register of each sign, a transfer before each of its slots, and RETI's. -/
theorem witness_accord_transfers : (coreOf (withCore regs) 17).branch = none ∧ (regs.g 0).toInt = 0 ∧ (regs.g 1).toInt < 0 ∧ 0 < (regs.g 2).toInt ∧
    { fa 0 with d := 0 }.plain false false = true ∧ (coreOf (withCore regs) 17).load = none ∧
    (let b2 := withCore { regs with branch := some (0x80, 2, true) }
     (coreOf b2 17).clear = true ∧ (coreOf b2 17).haltReq = false ∧ (coreOf b2 17).irq = 0 ∧ (coreOf b2 17).branch = some (0x80, 2, true)) ∧
    (let b1 := withCore { regs with branch := some (0x80, 1, true) }
     (coreOf b1 17).clear = true ∧ (coreOf b1 17).branch = some (0x80, 1, true)) := by decide +kernel

theorem witness_accord_control : (coreOf (withCore regs) 17).clear = true ∧ (coreOf (withCore regs) 17).quiet = true ∧
    ({ s := 0, off := 4095 } : FmtC).off.toNat < 4096 ∧ (coreOf (withCore regs) 17).irq &&& (coreOf (withCore regs) 17).imask = 0 ∧
    (coreOf (withCore { regs with irq := 1, imask := 1 }) 17).quiet = true ∧ (coreOf (withCore regs) 17).user = false ∧
    { fb 1 0x11 with d := 0 }.d = 0 := by decide +kernel

/-- A user core with a code window and one data window. -/
def userCore : Core := { regs with user := true, codeBase := 0x0, codeLimit := 0x1000, win1Base := 0x100, win1Limit := 0x200, ibudget := 100 }

theorem witness_accord_entries : (coreOf (withCore userCore) 17).clear = true ∧ (coreOf (withCore userCore) 17).user = true ∧
    (0 : Word).toNat / 2 ^ 26 = 0 ∧ 0x31 ≤ (0xC4000000 : Word).toNat / 2 ^ 26 ∧ (fb 1 0).s ≠ 0 ∧
    (let ea := (userCore.g 3 + (1 : BitVec 16).signExtend 32).toNat
     userCore.mayTouch false ea 4 = true ∧ userCore.mayTouch true ea 4 = true ∧ userCore.mayTouch false ea 2 = true ∧ ea % 4 ≠ 0 ∧ ea % 2 ≠ 0) ∧
    (let ea := (userCore.g 0 + (0 : BitVec 16).signExtend 32).toNat
     userCore.mayTouch true ea 4 = false ∧ userCore.mayTouch false ea 4 = false) ∧
    (let c := coreOf (withCore { regs with imask := 7, ie := true }) 17
     c.halted = false ∧ c.imask.getLsbD 2 = true ∧ c.irq = 0 ∧ c.ie = true ∧ c.interruptible = true) ∧
    (coreOf (withCore { regs with imask := 7 }) 17).ie = false := by decide +kernel

/-- Debug access before and after the lock, with and without a protected peer; a halted core at a NOP; a DMA transfer of 64 bytes; a bank that DMA may starve. -/
theorem witness_accord_debug : (let s := withCore { regs with halted := true }
     s.mon.debugLock = false ∧ s.twin.prot = false ∧ (coreOf s 17).interruptible = true ∧ (coreOf s 17).ie = false ∧ (coreOf s 17).halted = true ∧
     (coreOf s 17).waiting = false ∧ (coreOf s 17).user = false ∧
     leNat (mreadN (accClusterOf s 1).scratch (coreOf s 17).pc.toNat 4) = 0x44000000 ∧ (1 : Word).getLsbD 0 = true ∧ (3 : Word).getLsbD 1 = true ∧
     (0 : Word).getLsbD 0 = false) ∧
    ({ up with mon := { up.mon with debugLock := true } } : State).mon.debugLock = true ∧
    ({ up with twin := { up.twin with prot := true } } : State).twin.prot = true ∧
    ({ toScratch := true, hbm := 64, scratch := 0x1FFFC0, len := 64 } : DmaReq).scratch.toNat + 64 ≤ 0x200000 ∧
    Memory.wf (accClusterOf up 1).scratch = true ∧ Memory.wf up.hbm.mem = true ∧ 2 ≤ (2 : Fin 16).val ∧ (1 : Fin 16).val < 2 := by decide +kernel

/-- AccordWordsRoundTrip: a well-formed instruction. -/
theorem witness_accord_words : (AccOp.add (fa 2)).ok = true := by decide +kernel

/-! Words written out from Table 11-4 and Table 11-5. -/

theorem test_word_nop : decodeWord 0x44000000 = .addi { d := 0, s := 0, imm := 0 } := by decide +kernel
theorem test_word_rpt : decodeWord 0x94000006 = .rpt { s := 0, off := 6 } := by decide +kernel
theorem test_word_aclr : decodeWord 0xB0000000 = .aclr (fd 0 0 0) := by decide +kernel
theorem test_word_mac2m : decodeWord 0xA8214000 = .mac2m { a := 0, p := 4, q := 5, ns := false, rsv := false, sh := 0, rsv2 := 0 } := by decide +kernel
theorem test_word_rnd : decodeWord 0xB4300700 = .rnd (fd 6 0 28) := by decide +kernel

/-- R320: an addition beyond the range clamps, and with NS it wraps. -/
theorem test_add_clamps : result32 false (0x7FFFFFFF + 1) = 0x7FFFFFFF ∧ result32 true (0x7FFFFFFF + 1) = 0x80000000 := by decide +kernel

/-- R321: -3 shifted right by one with rounding is -1. -/
theorem test_rounding : roundedShift (-3) 1 = -1 ∧ roundedShift 3 1 = 2 := by decide +kernel

/-- R311: a MAC of the largest negative factors runs into the accumulator. -/
theorem test_mac : (match exec (.mac 17 (fd 1 2 0)) (withCore { regs with acc := [] }) with
    | .next t => ((coreOf t 17).a 0).toInt
    | _ => 0) = -3 := by decide +kernel

/-! ### Resets, bring-up, power and health -/

theorem witness_resets : up.mon.inReset = false ∧ up.mon.pwrGood = true ∧ ok ruleDevReset (cmd 0 4 [(16, 4, 0x9416)]) ringed = true ∧
    ReplyReady (cmd 0 4 [(16, 4, 0x9416)]) 17 rplRing ringed ∧ ringed.twin.state = .solo ∧ ringed.twin.switchReq = false := by
  refine ⟨by decide +kernel, by decide +kernel, by decide +kernel, reply_ready _ rfl rfl _ ?_ ?_ ?_, by decide +kernel, by decide +kernel⟩ <;> decide +kernel

/-- The release of each reset input, RESET_N with TEST_MODE, an FLR while the log is followed and while it is not, and the conditions of QUIESCE. -/
theorem witness_reset_inputs : (let m := State.reset.mon
      m.testMode = false ∧ m.inReset = true ∧ m.resetN = false ∧ m.perstN = true ∧ m.thermTrip = false) ∧
    (let m : Mon := { State.reset.mon with resetN := true, perstN := false }
     m.inReset = true ∧ m.resetN = true ∧ m.pwrGood = true ∧ m.thermTrip = false ∧ m.refclkSys = true) ∧
    ({ State.reset.mon with testMode := true } : Mon).testMode = true ∧ (1 : Fn) ≠ 0 ∧
    followsLog up = false ∧ followsLog { up with twin := { up.twin with state := .standby } } = true ∧ (up.obj.tenants.at? 0).isSome = true ∧
    up.mon.sinceNs + up.tim.c < 100000000 ∧ (let s : State := { up with tim := { up.tim with c := 100000000 } }; 100000000 ≤ s.mon.sinceNs + s.tim.c) ∧
    up.nose.behind = [] ∧ mayQuiesce { up with mon := { up.mon with quiesceEn := true } } = true ∧ mayQuiesce up = false := by decide +kernel

def off : State := { up with nose := { up.nose with service := .off } }
def loaded : State := { off with mon := { off.mon with bootStage := 3 } }
def stackTbl : List (Nat × Stack) := (List.range 4).map fun i => (i, { trained := true })

theorem witness_boot : off.mon.bootStage = 0 ∧ off.nose.service = .off ∧
    (let good : FlashImage := { signed := true, version := 1, securityCounter := 0 }
     let bad : FlashImage := { signed := false, version := 1, securityCounter := 0 }
     (good.signed = true ∧ off.mon.rollback.toNat ≤ good.securityCounter.toNat) ∧ ¬ (bad.signed = true ∧ off.mon.rollback.toNat ≤ bad.securityCounter.toNat)) ∧
    loaded.mon.bootStage = 3 ∧ loaded.nose.service = .off ∧
    (let s : State := { off with nose := { off.nose with service := .blotter }, hbm := { off.hbm with stackTbl := stackTbl } }
     s.nose.service = .blotter ∧ ∀ n, n < 4 → (stackOf s n).trained = true) ∧
    (∃ n, n < 4 ∧ (stackOf off n).trained = false) := by decide +kernel

/-- A signed command passes every check, or fails only its signature. -/
theorem signed_check {r : CmdRule} {c : Cmd} {s : State} (h1 : descriptorCheck c = none) (h2 : admissionCheck r c s = none) (h3 : plenCheck r c = none)
    (h4 : c.ext ≠ none) (h5 : bodyCheck r c s = none ∨ bodyCheck r c s = some ⟨stSignature, 0⟩) :
    fullCheck r c s = none ∨ fullCheck r c s = some ⟨stSignature, 0⟩ := by
  unfold fullCheck blockCheck
  rw [h1, h2, h3, if_neg (fun h => h4 h.2)]
  split
  · exact .inr rfl
  · rcases h5 with h | h
    · exact .inl (by simp [firstFail, h])
    · exact .inr (by simp [firstFail, h])

theorem witness_updates : ok ruleWatchdogSet (cmd 0 4 [(16, 4, 100)]) up = true ∧ ({ up.nose with wdogInterval := 1 } : Nose).wdogInterval ≠ 0 ∧
    AdmitsIfSigned ruleFwUpdate { big 0 64 [] with dw0 := 5 } up ∧ AdmitsIfSigned ruleDebugLock { big 0 64 [] with dw0 := 5 } up := by
  refine ⟨by decide +kernel, by decide +kernel, ⟨rfl, by decide +kernel, signed_check ?_ ?_ ?_ ?_ (.inl ?_), by decide +kernel, by decide +kernel, nofun⟩,
    ⟨rfl, by decide +kernel, signed_check ?_ ?_ ?_ ?_ ?_, by decide +kernel, by decide +kernel, nofun⟩⟩
  any_goals decide +kernel
  by_cases h : Config.authorisedId (List.replicate 64 0) = 0
  · left
    have : ruleDebugLock.lengths { big 0 64 [] with dw0 := 5 } up = [none] := by
      show [failIf (decide (Config.authorisedId (List.replicate 64 0) ≠ 0)) stSignature 0] = _
      rw [decide_eq_false (fun n => n h)]; rfl
    rw [bodyCheck, this]; decide +kernel
  · right
    have : ruleDebugLock.lengths { big 0 64 [] with dw0 := 5 } up = [some ⟨stSignature, 0⟩] := by
      show [failIf (decide (Config.authorisedId (List.replicate 64 0) ≠ 0)) stSignature 0] = _
      rw [decide_eq_true h]; rfl
    rw [bodyCheck, this]; rfl

/-! ### Registers and queries -/

/-- R482 prints the IDCODE as 0x?941_656F, its first digit the silicon revision. -/
theorem test_idcode : jtagIdcode State.reset = 0x0941656F := by decide

theorem witness_registers : up.mon.bootStage ≠ 0xF ∧ ({ up with mon := { up.mon with bootStage := 0xF } } : State).mon.inReset = false ∧ 0x2800000 / 0x400000 ≠ 1 ∧ 0x2800000 / 0x400000 ≠ 12 ∧ readOnlyPage 0x10000 = true ∧ accessOk 0x10000 8 = true ∧ readOnlyPage 0x28 = false ∧ accessOk 6 4 = false ∧ accessOk 0 2 = false ∧ accessOk 0x14 8 = false ∧ 0x28 % 8 = 0 ∧ 65536 ≤ 65540 ∧ 65540 < 0x400000 ∧ 65540 % 4 = 0 := by
  decide +kernel

/-- A key slot of function 0 that is loaded, with the reply ring ready, and the device of which a query writes its output buffer. -/
def keyed : State := { ringed with
                       obj := { ringed.obj with slots := { live := [(2, { tenant := 0, state := .loaded, outbound := true, next := 9 })] } } }

theorem witness_queries : up.nose.behind = [] ∧ keyed.nose.behind = [] ∧ up.twin.applying = false ∧ up.mon.quiesce = false ∧ Memory.wf up.hst.mem = true ∧
    keyed.twin.applying = false ∧ keyed.mon.quiesce = false ∧ Memory.wf keyed.hst.mem = true ∧ (cmd 0 0 []).quiet = false ∧
    ReplyReady (cmd (h tySlot 2) 0 []) 17 rplRing keyed ∧ ok ruleKeyQuery (cmd (h tySlot 2) 0 []) keyed = true ∧
    slotAt keyed (keySlot (cmd (h tySlot 2) 0 [])) = some { tenant := 0, state := .loaded, outbound := true, next := 9 } ∧
    ok ruleTimeQuery (cmd 0 0 []) keyed = true ∧ ok ruleSelftest (cmd 0 0 []) keyed = true := by
  refine ⟨?_, ?_, ?_, ?_, ?_, ?_, ?_, ?_, ?_, reply_ready _ rfl rfl _ ?_ ?_ ?_, ?_, ?_, ?_, ?_⟩ <;> decide +kernel

/-- A query of which the manual leaves the record's size open takes the largest buffer (log entry 10). -/
theorem query_ok {op : Nat} {ts : List Nat} {a : Bool} {c : Cmd} {s : State} (h : c.u32 24 = 0xFFFFFFFF)
    (h2 : ok { queryRule op ts a with fields := fun _ _ => [none] } c s = true) : ok (queryRule op ts a) c s = true := by
  have hf : (queryRule op ts a).fields c s = [none] := by
    show [failIf (decide (c.u32 24 < (Config.querySize op).toNat)) stLength 24] = [none]
    have := (Config.querySize op).isLt
    rw [h, decide_eq_false (by omega)]; rfl
  have hb : bodyCheck (queryRule op ts a) c s = bodyCheck { queryRule op ts a with fields := fun _ _ => [none] } c s := by
    unfold bodyCheck; rw [hf]; rfl
  rw [← h2]; unfold ok fullCheck; rw [hb]; rfl

def most : List (Nat × Nat × Nat) := [(16, 8, 4096), (24, 4, 0xFFFFFFFF)]

/-- The queries that write a buffer, each with QUIET. -/
theorem witness_query_buffers : (quiet (cmd 0 0 [])).quiet = true ∧
    ok ruleStatusRead (quiet (cmd 0 20 [(16, 2, 0x0601), (24, 8, 4096), (32, 4, 4096)])) keyed = true ∧
    ok ruleTwinQuery (quiet (cmd 0 12 [(16, 8, 4096), (24, 4, 160)])) up = true ∧ ok rulePoolQuery (quiet (cmd 0 12 [(16, 8, 4096), (24, 4, 96)])) up = true ∧
    ok ruleTenantQuery (quiet (cmd (h tyTenant 0) 12 most)) up = true ∧ ok rulePartitionQuery (quiet (cmd 0 12 most)) up = true := by
  refine ⟨?_, ?_, ?_, ?_, query_ok ?_ ?_, query_ok ?_ ?_⟩ <;> decide +kernel

/-! ### Objects -/

/-- An IPv4 transport record: local port lp of 10.0.0.1, remote port rp, port 0 (Table 02-15). -/
def tsp (b lp rp : Nat) : List (Nat × Nat × Nat) := [(b, 1, 10), (b + 3, 1, 1), (b + 16, 1, 10), (b + 19, 1, 9), (b + 32, 2, lp), (b + 34, 2, rp), (b + 36, 1, 4)]

/-- A policer of 100 Mb/s. -/
def pol (b : Nat) : List (Nat × Nat × Nat) := [(b + 4, 4, 100000), (b + 8, 4, 100000), (b + 12, 4, 100000), (b + 16, 4, 100000)]

/-- Stream records: L16 audio, one encoding of AVC video, a composite of a layout (Tables 02-21, 07-1, 09-1, 10-1). -/
def recAudio (b out slot ssrc : Nat) : List (Nat × Nat × Nat) :=
  [(b, 1, out), (b + 2, 1, 96), (b + 3, 1, 255), (b + 4, 4, hn tySlot slot), (b + 9, 1, 255), (b + 10, 1, 255), (b + 11, 1, 255), (b + 12, 4, ssrc),
   (b + 64, 1, 5), (b + 65, 1, 1), (b + 68, 4, 768000), (b + 72, 2, 20), (b + 74, 2, 60), (b + 76, 2, 230)]
def recVideo (b slot ssrc : Nat) : List (Nat × Nat × Nat) :=
  [(b + 1, 1, 1), (b + 2, 1, 97), (b + 3, 1, 255), (b + 4, 4, hn tySlot slot), (b + 9, 1, 255), (b + 10, 1, 255), (b + 11, 1, 255), (b + 12, 4, ssrc), (b + 48, 2, 640),
   (b + 50, 2, 360), (b + 64, 1, 1), (b + 66, 1, 4), (b + 67, 1, 1), (b + 68, 2, 640), (b + 70, 2, 368), (b + 72, 2, 30), (b + 74, 2, 20), (b + 76, 2, 50)]
def recComp (b slot ssrc lay : Nat) : List (Nat × Nat × Nat) :=
  [(b, 1, 1), (b + 1, 1, 3), (b + 2, 1, 98), (b + 3, 1, 255), (b + 4, 4, hn tySlot slot), (b + 9, 1, 255), (b + 10, 1, 255), (b + 11, 1, 255), (b + 12, 4, ssrc),
   (b + 64, 1, 3), (b + 66, 1, 1), (b + 68, 4, hn tyLayout lay), (b + 72, 4, 500), (b + 76, 4, 2000), (b + 80, 2, 500), (b + 82, 1, 10), (b + 83, 1, 40),
   (b + 84, 2, 60), (b + 86, 1, 20), (b + 87, 1, 4), (b + 88, 2, 1200)]

def declOf (fs : List (Nat × Nat × Nat)) : StreamRec := recordAt (big 0 96 fs) 64

/-- A leg block of conference 0 with its fields. -/
def attach (len lp : Nat) (fs : List (Nat × Nat × Nat)) : Cmd :=
  big (h tyConf 0) len (tsp 64 lp 6000 ++ pol 112 ++ [(136, 4, hn tySlot 0), (140, 4, hn tySlot 1), (144, 4, 0x99)] ++ fs)

/-- A forwarded slot of a leg block without streams. -/
def oneSlot : List (Nat × Nat × Nat) := [(134, 1, 1), (192, 4, 0x41), (196, 4, hn tySlot 6)]

def theKey : SessKey := { profile := 7, key := List.replicate 16 1, salt := List.replicate 12 2, auth := [] }
def slotAs (out rtcp : Bool) : KeySlot := { tenant := 0, state := .loaded, outbound := out, rtcp := rtcp, key := some theKey }

def conf0 : Conf := { tenant := 0, closing := false, mode := 0, talkerLimit := 8, legLimit := 100, image := 0, globalId := none }
def leg0 : Leg := { attachLeg (attach 128 5000 []) up with state := .active, ins := [0, 1], outs := [0, 1] }
def leg1 : Leg := attachLeg (attach 144 5001 oneSlot) up
def ins0 : InStream := { tenant := 0, owner := 0, onTrunk := false, decl := declOf (recAudio 64 0 2 0x11), route := none, encs := [], dec := none, audio := some {} }
def ins1 : InStream := { ins0 with decl := declOf (recVideo 64 4 0x12), encs := [{ ssrc := 0x12, note := 0 }], audio := none }
def outs0 : OutStream := { tenant := 0, leg := 0, decl := declOf (recAudio 64 1 3 0x21), route := none, comp := none, audio := some {} }
def comp0 : Comp :=
  { path := .waiting, priv := none, stitcher := none, bridge := none, selfRate := none, lastKey := none, requests := 0, lastFir := none, ceiling := 2,
    ceilUp := none, bc := none, tiles := [], paramsOwed := false }
def outs1 : OutStream := { outs0 with decl := declOf (recComp 64 5 0x31 0), comp := some comp0, audio := none }

/-- A device with conference 0 and its two legs; conference 1 is empty. -/
def talk : State :=
  { up with obj := { up.obj with
      confs := { live := [(0, conf0), (1, conf0)], fresh := 2 }
      legs := { live := [(0, leg0), (1, leg1)], fresh := 2 }
      ins := { live := [(0, ins0), (1, ins1)], fresh := 2 }
      outs := { live := [(0, outs0), (1, outs1)], fresh := 2 }
      slots := { live := [(0, slotAs false true), (1, slotAs true true), (2, slotAs false false), (3, slotAs true false), (4, slotAs false false),
                          (5, slotAs true false), (6, slotAs true false), (7, slotAs true false), (8, { tenant := 0 })] } } }

/-- A change of one leg's state. -/
def legAs (st : LegState) (ticks : Nat) : State := updLeg 0 (fun l => { l with state := st, drainTicks := ticks }) talk

def tenBlock (n mask addrs : Nat) (fs : List (Nat × Nat × Nat)) : Cmd := big (mkHandle n tyTenant n 1) (64 + 24 * addrs) ([(64, 1, n), (66, 2, mask)] ++ fs)

theorem witness_tenants : ok ruleTenantCreate { tenBlock 1 0x1FF 0 [(65, 1, 1), (68, 4, 16), (88, 4, 100)] with object := 0 } up = true ∧
    ok ruleTenantModify (tenBlock 0 4 0 [(80, 2, 2048)]) up = true ∧ up.obj.tenants.at? 0 = some ten ∧
    ok ruleTenantDestroy (cmd (mkHandle 1 tyTenant 1 1) 0 []) { up with obj := { up.obj with tenants := { live := [(0, ten), (1, { keySlots := 0 })] } } } = true ∧
    ok ruleTenantRoute (cmd (h tyTenant 0) 4 []) up = true := by decide +kernel

theorem witness_conferences : ok ruleConfCreate (cmd 0 12 [(17, 1, 8), (18, 2, 100)]) up = true ∧
    ok ruleConfModify (cmd (h tyConf 0) 16 [(17, 1, 9), (18, 2, 99), (24, 4, 0x80000004), (28, 4, 22)]) talk = true ∧
    bit (Cmd.u32 (cmd (h tyConf 0) 16 [(17, 1, 9), (18, 2, 99), (24, 4, 0x80000004), (28, 4, 22)]) 28) 0 = false ∧
    bit (Cmd.u32 (cmd (h tyConf 0) 16 [(17, 1, 9), (18, 2, 99), (24, 4, 0x80000004), (28, 4, 22)]) 28) 3 = false ∧
    ok ruleConfModify (cmd (h tyConf 0) 16 [(16, 1, 1), (28, 4, 1)]) talk = true ∧ talk.obj.confs.at? 0 = some conf0 ∧
    ok ruleConfDestroy (cmd (h tyConf 0) 0 []) talk = true ∧ ok ruleConfQuery (quiet (cmd (h tyConf 0) 12 most)) talk = true := by
  refine ⟨?_, ?_, ?_, ?_, ?_, ?_, ?_, query_ok ?_ ?_⟩ <;> decide +kernel

theorem witness_legs : ok ruleLegAttach (attach 144 5002 oneSlot) talk = true ∧ attachStreams (attach 144 5002 oneSlot) = 0 ∧
    ok ruleLegAttach (attach 224 5003 ([(132, 1, 1), (160, 4, 64)] ++ recAudio 192 0 2 0x13)) talk = true ∧
    talk.obj.legs.at? 0 = some leg0 ∧ talk.obj.legs.at? 1 = some leg1 ∧
    ok ruleLegEnable (cmd (h tyLeg 1) 0 []) talk = true ∧ ok ruleLegEnable (cmd (h tyLeg 0) 0 []) talk = true ∧ ok ruleLegHold (cmd (h tyLeg 0) 0 []) talk = true ∧
    ok ruleLegResume (cmd (h tyLeg 0) 0 []) (legAs .held 0) = true ∧ ok ruleLegModify (big (h tyLeg 0) 72 (tsp 64 5002 6002 ++ pol 112 ++ [(132, 4, 3)])) talk = true ∧
    ok ruleLegMove (cmd (h tyLeg 0) 4 [(16, 4, hn tyConf 0)]) talk = true ∧ ok ruleLegDetach (cmd (h tyLeg 0) 4 [(16, 4, 1)]) talk = true ∧
    ok ruleLegQuery (quiet (cmd (h tyLeg 0) 12 most)) talk = true ∧
    ((legAs .draining 2).obj.legs.at? 0).map (fun l => (l.state, l.drainTicks)) = some (.draining, 2) ∧
    ((legAs .draining 1).obj.legs.at? 0).map (fun l => (l.state, l.drainTicks)) = some (.draining, 1) ∧
    ok ruleCounterRead (quiet (cmd (h tyLeg 0) 16 [(16, 2, 0x0901), (18, 2, 11), (20, 2, 1), (24, 8, 4096)])) talk = true := by
  refine ⟨?_, ?_, ?_, ?_, ?_, ?_, ?_, ?_, ?_, ?_, ?_, ?_, query_ok ?_ ?_, ?_, ?_, ?_⟩ <;> decide +kernel

/-- A leg without streams that moves to another conference. -/
theorem witness_leg_moves : ok ruleLegMove (cmd (h tyLeg 1) 4 [(16, 4, hn tyConf 1)]) (updLeg 1 (fun l => { l with state := .active }) talk) = true ∧
    leg1.conf ≠ hIndex (Cmd.hdl (cmd (h tyLeg 1) 4 [(16, 4, hn tyConf 1)]) 16) ∧ leg1.ins = [] ∧ leg1.outs = [] := by decide +kernel

/-- The device at a logged time (R14). -/
def loggedAt (ns : Nat) (s : State) : State := { s with media := { s.media with logNow := ns } }

/-- A trunk to device 6, and a block for one more. -/
def trunkBlock (lp : Nat) : List (Nat × Nat × Nat) :=
  tsp 64 lp 6010 ++ [(112, 2, 6), (116, 4, hn tySlot 10), (120, 4, hn tySlot 11), (124, 4, hn tySlot 12), (128, 4, hn tySlot 13)]
def trunk0 : Trunk := { newTrunk (big 0 72 (trunkBlock 5010)) up with meter := leg0.meter }

/-- The device in a cascade: trunk 0 leads to device 6. -/
def joined : State :=
  { talk with obj := { talk.obj with
      trunks := { live := [(0, trunk0)], fresh := 1 }
      slots := { live := talk.obj.slots.live ++ [(10, { tenant := 0 }), (11, { tenant := 0 }), (12, { tenant := 0 }), (13, { tenant := 0 })] } } }

theorem witness_streams_add : ok ruleStreamAdd (big (h tyLeg 1) 96 (recAudio 64 0 2 0x14)) talk = true ∧
    ok ruleStreamAdd (big (h tyTrunk 0) 96 ((recVideo 64 0 0x77).filter fun f => decide (f.1 ≠ 68))) joined = true ∧
    hType (h tyTrunk 0) = tyTrunk := by decide +kernel

theorem witness_streams : ok ruleStreamRemove (cmd (h tyIn 0) 0 []) talk = true ∧ hType (h tyIn 0) = tyIn ∧ ok ruleStreamRemove (cmd (h tyOut 0) 0 []) talk = true ∧
    hType (h tyOut 0) ≠ tyIn ∧ ok ruleStreamModify (big (h tyIn 0) 96 (recAudio 64 0 2 0x11)) talk = true ∧
    talk.obj.ins.at? 0 = some ins0 ∧ ins0.dec = none ∧ ok ruleStreamModify (big (h tyOut 0) 96 (recAudio 64 1 3 0x22)) talk = true ∧
    talk.obj.outs.at? 0 = some outs0 ∧ outs0.comp = none ∧
    ok ruleStreamRoute (cmd (h tyIn 0) 8 []) talk = true ∧ ok ruleStreamRoute (cmd (h tyOut 0) 8 []) talk = true ∧
    ok ruleStreamKeypic (cmd (h tyOut 1) 0 []) talk = true ∧ talk.obj.outs.at? 1 = some outs1 ∧ outs1.comp = some comp0 ∧ comp0.stitcher = none ∧
    ok ruleSlotAssign (cmd (h tyLeg 1) 8 [(20, 4, hn tyIn 1)]) talk = true ∧ talk.obj.legs.at? 1 = some leg1 := by
  refine ⟨?_, ?_, ?_, ?_, ?_, ?_, ?_, ?_, ?_, ?_, ?_, ?_, ?_, ?_, ?_, ?_, ?_, ?_⟩ <;> decide +kernel

/-! ### Keys and trunks -/

def loadKey (i : Nat) : Cmd := cmd (h tySlot i) 48 [(16, 1, 7), (18, 2, 64), (20, 4, i + 1), (32, 4, i + 5)]

theorem witness_keys : slotAt talk 8 = some { tenant := 0 } ∧ ok ruleKeyLoad (loadKey 8) talk = true ∧ slotAt talk 2 = some (slotAs false false) ∧
    ok ruleKeyLoad (loadKey 2) talk = true ∧ busySlot talk 2 = false ∧
    ok ruleKeyDerive (cmd (h tySlot 8) 48 [(16, 1, 7), (32, 4, 77)]) talk = true ∧ ok ruleKeyErase (cmd (h tySlot 8) 0 []) talk = true ∧
    ok ruleKeyErase (cmd (h tySlot 2) 0 []) talk = true ∧ ({ slotAs false false with retiring := some theKey } : KeySlot).retiring ≠ none ∧
    ({ slotAs false false with state := .erasing } : KeySlot).state = .erasing ∧ talk.nose.waiting = [] ∧ talk.mon.softPending = none := by decide +kernel

theorem witness_trunks : ok ruleCascadeConfig (cmd 0 4 [(16, 2, 4095), (18, 2, 65535)]) talk = true ∧ ok ruleTrunkCreate (big 0 72 (trunkBlock 5011)) joined = true ∧
    ok ruleTrunkModify (big (h tyTrunk 0) 72 (trunkBlock 5012)) joined = true ∧ joined.obj.trunks.at? 0 = some trunk0 ∧
    ok ruleTrunkDestroy (cmd (h tyTrunk 0) 0 []) joined = true ∧ joined.mon.inReset = false ∧ runsTasks joined = true ∧ logNs joined < trunk0.lastSent + 1000000 ∧
    trunk0.lastAuth + 10000000 ≤ logNs (loggedAt 10000000 joined) ∧ (loggedAt 10000000 joined).media.inInput = false ∧ trunk0.down = false ∧
    ({ trunk0 with down := true } : Trunk).down = true := by decide +kernel

/-! ### Audio -/

/-- Leg 0 and stream 0 stand in the ranking; the stream has started and was last active in block 0. -/
def ranked0 : Ranked := { leg := some 0, gleg := 6 * 8192, stream := 0, level := 100, idle := 1000 }
def tone0 : Tone := { table := 0, cadence := 3, level := 100, duration := 600, start := 10, freqs := [], edge := 10, generators := [] }

/-- A conference homed at device dev. -/
def cascaded (dev own : Nat) : State :=
  { joined with
    media := { joined.media with deviceId := BitVec.ofNat 12 own, members := [(0, 6)], tick := 700 }
    obj := { joined.obj with
      confs := { live := [(0, { conf0 with globalId := some (BitVec.ofNat 24 (dev * 4096)), ranking := [ranked0], block := 700 })], fresh := 1 }
      legs := { live := [(0, { leg0 with tone := some tone0 })], fresh := 1 }
      ins := { live := [(0, { ins0 with audio := some { started := true, silent := false, depth := 20, lastPlayed := 0 } })], fresh := 2 } } }

/-- A state at another tick. -/
def atTick (n : Nat) (s : State) : State := { s with media := { s.media with tick := n } }

theorem witness_audio_tasks : ([509, 510, 609, 610].all fun n => taskRuns (atTick n (cascaded 5 5)) n) = true ∧ taskRuns (cascaded 5 5) 701 = false ∧ (cascaded 5 5).mon.inReset = false ∧ taskRuns (cascaded 5 5) 700 = true ∧ ((cascaded 5 5).obj.confs.at? 0).isSome = true ∧
    700 % 100 = 0 ∧ 701 % 100 ≠ 0 ∧ conf0.resorted ≠ some 700 ∧ ({ conf0 with resorted := some 700 } : Conf).resorted = some 700 ∧
    (let a : AudioIn := { started := true, silent := false, depth := 20, lastPlayed := 0 }
     a.started = true ∧ a.active = false ∧ a.movedAt ≠ some 700 ∧ a.loudAt ≠ some 700 ∧ { a with movedAt := some 700 }.movedAt = some 700 ∧ { a with depth := 21 }.depth ≠ a.wantDepth ins0.decl ∧ a.depth = a.wantDepth ins0.decl ∧ a.silent = false) ∧
    isRanked { cascaded 5 5 with obj := { (cascaded 5 5).obj with confs := { live := [(0, conf0)] } } } 0 0 = false ∧
    nextBlock (cascaded 5 5) 0 = 700 ∧ 0 + 60 < 700 ∧ 640 + 60 ≤ 700 ∧
    (let d := declOf (recAudio 64 0 2 0x11 ++ [(131, 1, 2)])
     d.loud = true) ∧
    playsTones (cascaded 5 5) (h tyLeg 0) = true ∧ toneOn (cascaded 5 5) (h tyLeg 0) = some tone0 ∧
    cadenceOf (toneImage (cascaded 5 5) (toneConf (cascaded 5 5) (h tyLeg 0))) 3 = some ([500, 500], true) ∧
    cadenceAt ([500, 500], true) (510 - 10) = some false ∧ cadenceAt ([500, 500], true) (509 - 10) = some true ∧ cadenceAt ([200], false) 200 = none ∧
    tone0.duration ≠ 0 ∧ tone0.start + tone0.duration ≤ 610 ∧ 609 < tone0.start + tone0.duration := by decide +kernel

/-- Streams whose talker measure is in its active state. -/
theorem witness_audio_active : ({ energies := [2 ^ 40], dec := 2, newest := 5, started := true } : AudioIn).active = true := by decide +kernel

/-- Stream 0 plays Direct to the listener of stream 0 of the outbound streams. -/
def direct : State :=
  { talk with obj := { talk.obj with
      ins := { live := [(0, { ins0 with decl := declOf (recAudio 64 0 2 0x11 ++ [(131, 1, 1)]) })] }
      outs := { live := [(0, { outs0 with decl := declOf (recAudio 64 1 3 0x21 ++ [(131, 1, 1)]),
                                          audio := some { terms := [{ stream := 0, seat := 0, enter := 0, leave := none }] } })] } } }

theorem witness_half_tick : drivesPorts direct = true ∧ noseRuns direct = true ∧ logBusy direct = false ∧ anyDirect direct = true := by decide +kernel

theorem witness_audio_ticks : noseRuns talk = true ∧ talk.media.tick < 1 ∧ 0 ≤ talk.media.tick ∧ logBusy talk = false ∧ drivesPorts talk = true ∧
    ({ talk with twin := { talk.twin with state := .withdrawn } } : State).twin.state = .withdrawn ∧ anyDirect talk = false ∧
    isHome (cascaded 5 5) { conf0 with globalId := some (5 * 4096) } = true ∧ isMember (cascaded 6 5) { conf0 with globalId := some (6 * 4096) } = true ∧
    isHome (cascaded 6 5) { conf0 with globalId := some (6 * 4096) } = false ∧ conf0.reported ≠ some 700 ∧ conf0.returned ≠ some 700 ∧ talk.media.inInput = false ∧
    ({ conf0 with reported := some 700, returned := some 700 } : Conf).reported = some 700 ∧ 0 < ({ conf0 with block := 1 } : Conf).block ∧ trunkTo (cascaded 6 5) 6 = some 0 ∧ trunkTo (cascaded 6 5) 7 = none ∧
    taskRuns (cascaded 6 5) 700 = true ∧ taskRuns (cascaded 5 5) (674 + 26) = true ∧ taskRuns (cascaded 5 5) (673 + 26) = false ∧ conf0.returned ≠ some 674 ∧ 700 % 10 = 0 ∧ 701 % 10 ≠ 0 := by decide +kernel

/-! ### Images, mixes, tones -/

/-- An image without nodes: the header of Table 10-6 alone. -/
def emptyImage : Cmd := big 0 64 [(64, 4, 0x44524341), (68, 2, 1), (72, 4, 64)]

/-- Image 0 is loaded; leg 0 has mix 0; a tone plays on leg 0 and on conference 0. -/
def sounding : State :=
  { talk with obj := { talk.obj with
      images := { live := [(0, imageAt emptyImage (fill 64 64 []))], fresh := 1 }
      mixes := { live := [(0, { tenant := 0, conf := 0, leg := 0, limit := 8, pan := false, binaural := false, noShare := false, noDirect := false })], fresh := 1 }
      confs := { live := [(0, { conf0 with tone := some tone0 })], fresh := 1 }
      legs := { live := [(0, { leg0 with tone := some tone0, mix := some 0 }), (1, leg1)], fresh := 2 } } }

theorem witness_images : ok ruleGraphLoad emptyImage sounding = true ∧ ok ruleGraphSwap (cmd (h tyImage 0) 4 [(16, 4, hn tyConf 0)]) sounding = true ∧
    swapDone sounding 0 (h tyImage 0) = false ∧ ok ruleGraphUnload (cmd (h tyImage 0) 0 []) sounding = true ∧
    (let s : State := { sounding with obj := { sounding.obj with confs := { live := [(0, { conf0 with image := h tyImage 0 })] } } }
     ok ruleGraphSwap (cmd (h tyImage 0) 4 [(16, 4, hn tyConf 0)]) s = true ∧ swapDone s 0 (h tyImage 0) = true) := by decide +kernel

/-- A tone fits its clusters, whichever they are, while few tones play (log entry 33). -/
theorem tone_ok {c : Cmd} {s : State} (h : (startTone c s).obj.legs.live.length + (startTone c s).obj.confs.live.length ≤ 64)
    (h2 : ok { ruleTonePlay with resources := fun c s => [Adm.check (settled [toneConf (startTone c s) c.object] (startTone c s))] } c s = true) :
    ok ruleTonePlay c s = true := by
  have ht : ∀ n, tonesOn (startTone c s) n ≤ 64 := fun n => by
    refine Nat.le_trans (Nat.add_le_add ?_ ?_) h <;> exact List.length_filter_le ..
  have hr : ruleTonePlay.resources c s = [Adm.check (settled [toneConf (startTone c s) c.object] (startTone c s))] := by
    show [Adm.check (tryTone c s)] = _
    have : (toneClusters (startTone c s) c.object).all (fun n => decide (tonesOn (startTone c s) n ≤ 64)) = true := by simp [ht]
    unfold tryTone; simp only [this]; rfl
  have hb : bodyCheck ruleTonePlay c s = bodyCheck { ruleTonePlay with resources := fun c s => [Adm.check (settled [toneConf (startTone c s) c.object] (startTone c s))] } c s := by
    unfold bodyCheck; rw [hr]; rfl
  rw [← h2]; unfold ok fullCheck; rw [hb]; rfl

theorem witness_sound : ok ruleMixCreate (cmd (h tyConf 0) 12 [(16, 4, hn tyLeg 0), (20, 1, 16)]) talk = true ∧
    ok ruleMixModify (cmd (h tyMix 0) 12 [(16, 4, hn tyLeg 0), (20, 1, 4)]) sounding = true ∧ ok ruleMixDestroy (cmd (h tyMix 0) 0 []) sounding = true ∧
    (sounding.obj.mixes.at? 0).map (·.leg) = some 0 ∧ (sounding.obj.legs.at? 0).map (·.mix) = some (some 0) ∧
    ok ruleTonePlay (cmd (h tyLeg 0) 8 [(20, 2, 900), (22, 2, 50)]) talk = true ∧ hType (h tyLeg 0) = tyLeg ∧
    ok ruleTonePlay (cmd (h tyConf 0) 8 [(16, 2, 0x15), (18, 2, 5), (20, 2, 100)]) talk = true ∧ hType (h tyConf 0) ≠ tyLeg ∧
    ok ruleToneStop (cmd (h tyLeg 0) 0 []) sounding = true ∧ ok ruleToneStop (cmd (h tyConf 0) 0 []) sounding = true ∧
    ok ruleIsolationSet (cmd (h tyIn 0) 4 [(16, 4, 1)]) sounding = true ∧ sounding.obj.ins.at? 0 = some ins0 ∧ ins0.audio = some {} := by
  refine ⟨?_, ?_, ?_, ?_, ?_, tone_ok ?_ ?_, ?_, tone_ok ?_ ?_, ?_, ?_, ?_, ?_, ?_, ?_⟩ <;> decide +kernel

/-! ### Layouts, tile sets and pictures -/

/-- A 128 by 128 layout of 30 pictures a second: source 1 at the left, an image of 16 by 16 above it. -/
def layoutBlock : List (Nat × Nat × Nat) :=
  [(64, 2, 128), (66, 2, 128), (68, 1, 30), (70, 1, 2), (84, 2, 100), (104, 2, 64), (106, 2, 64), (112, 4, hn tyIn 1), (128, 1, 2), (129, 1, 1), (136, 2, 16),
   (138, 2, 16), (148, 2, 16), (150, 2, 16)]
def flip0 : Flip := { fence := 5, miss := 100, content := [] }
def layout0 : Layout :=
  let l := readLayout (big (h tyConf 0) 96 layoutBlock) 0 0
  { l with layers := l.layers.map fun a => if a.kind = 2 then { a with pending := some flip0 } else a }

/-- One member, a talker rank, of a tile set at 30 pictures a second. -/
def tileBlock : List (Nat × Nat × Nat) :=
  [(64, 1, 3), (66, 1, 1), (68, 2, 64), (70, 2, 64), (72, 1, 30), (74, 2, 60), (76, 4, 500), (80, 1, 10), (81, 1, 40), (82, 1, 1), (83, 1, 4), (84, 2, 128),
   (86, 2, 128), (88, 2, 3), (96, 1, 1), (104, 1, 1), (105, 1, 1), (116, 4, hn tyIn 1)]
def grey : Picture := { w := 8, h := 8, y := List.replicate 64 512, cb := List.replicate 16 512, cr := List.replicate 16 512 }
def tileset0 : TileSet :=
  let t := readTileset (big (h tyConf 0) 56 tileBlock) 0 0
  { t with members := t.members.map fun m => { m with ctx := some 0, scaled := some (30, grey, 1) } }

/-- The encode context of tile stream (0, 0), and the private encode of composite 1. -/
def enc0 : EncCtx :=
  { kind := .tile 0 0, tenant := 0, home := 0, rate := 122880, granules := 1, w := 64, h := 64, f := 30, tenBit := false, layers := 1, codec := 3, capMult := 4,
    debt := 0, lastKey := none, lastPic := none }

/-- What the coding of a picture gave. -/
def coded0 : Coded := { bytes := [0], key := true, intra := true, past := false, flags := 0 }

def buf0 : FrameBuf :=
  { st := .unused, clean := false, concealed := false, reduced := false, order := 0, eligible := 0, shown := false, note := 0, token := 0, pic := grey }
/-- A whole layer of 640 by 360, and an IDR picture of it by H.264 High at level 3. -/
def lay0 (w : Nat) : PicLayer := { spatial := 0, w := w, h := 360, outW := w, outH := 360 }
def key0 : PicInfo :=
  { valid := true, profile := .h264High, level := 30, depth := 8, chroma := 1, refsRequired := 1, layers := [lay0 640], kind := .idr, order := 0, refs := [],
    marking := .sliding 1, outputs := [0], recovery := none, frameNum := 0, maxFrameNum := 16, gapsAllowed := false, lostSlots := none, switchUp := false }
def whole0 : WholePic := { enc := 0, note := 0, arrival := 1000000000, released := 0, pkts := [] }
def dec0 : DecCtx :=
  { index := 0, home := 0, rate := 7200000, charge := 240000, granules := 4, bufs := [buf0, buf0, buf0, buf0], state := .waitKey, note := 0, bucket := 10 ^ 15, last := 0 }

/-- A device with layout 0, tile set 0, the decoder of source 1 and composite 1 on a path. -/
def screen (c : Comp) (d : DecCtx) (e : Encoding) : State :=
  { talk with obj := { talk.obj with
      confs := { live := [(0, { conf0 with mode := 2 })], fresh := 1 }
      layouts := { live := [(0, layout0)], fresh := 1 }
      tilesets := { live := [(0, tileset0)], fresh := 1 }
      encs := { live := [(0, enc0), (1, { enc0 with kind := .priv 1, lastKey := some 30 })], fresh := 2 }
      ins := { live := [(0, ins0), (1, { ins1 with dec := some d, encs := [e] })], fresh := 2 }
      outs := { live := [(0, outs0), (1, { outs1 with comp := some c })], fresh := 2 } } }
def scr : State := screen comp0 dec0 { ssrc := 0x12, note := 0 }

def theFlip : Cmd := { cmd (h tyLayout 0) 16 [(16, 2, 1), (20, 4, 5), (24, 4, 4096)] with data := some (List.replicate 384 7) }
def linear : Cmd :=
  { cmd (h tyConf 0) 16 [(16, 1, 15), (24, 4, 4096)] with
    data := some ((List.range 64).flatMap fun _ => leBytes 2 512 ++ List.replicate 14 0 ++ leBytes 2 512 ++ List.replicate 6 0) }

theorem witness_layouts : ok ruleLayoutCreate (big (h tyConf 0) 96 layoutBlock) talk = true ∧ ok ruleLayoutModify (big (h tyLayout 0) 96 layoutBlock) scr = true ∧
    ok ruleTilesetCreate (big (h tyConf 0) 56 tileBlock) talk = true ∧
    ok ruleLayoutDestroy (cmd (h tyLayout 0) 0 []) { scr with obj := { scr.obj with outs := {} } } = true ∧
    ok ruleTilesetDestroy (cmd (h tyTileset 0) 0 []) { scr with obj := { scr.obj with outs := {} } } = true := by
  refine ⟨?_, ?_, ?_, ?_, ?_⟩ <;> decide +kernel

theorem witness_flips : scr.obj.layouts.at? 0 = some layout0 ∧ ok ruleLayerFlip theFlip scr = true ∧ (flipLayer scr (h tyLayout 0) 1) = layout0.layers[1]? ∧
    (layout0.layers[1]?).isSome = true ∧ ok ruleFenceSignal (cmd (h tyLayout 0) 4 [(16, 4, 5)]) scr = true ∧
    (layout0.layers[1]?).bind (·.pending) = some flip0 ∧ layout0.fenceLimit ≤ flip0.miss ∧ ({ flip0 with miss := 99 } : Flip).miss < layout0.fenceLimit ∧
    ok ruleScalerBankLoad linear scr = true ∧ scr.obj.confs.at? 0 = some { conf0 with mode := 2 } := by
  refine ⟨?_, ?_, ?_, ?_, ?_, ?_, ?_, ?_, ?_, ?_⟩ <;> decide +kernel

def held (seq arr : Nat) (ts : Word) : HeldPkt := { seq := seq, ts := ts, marker := false, arrival := arr, head := [], data := [0] }

/-- A decode context before a key picture: at a picture beyond its limits, without budget, at one that is no key picture, and with all that an IDR needs. -/
theorem witness_decode : (scr.obj.ins.at? 1).bind (·.dec) = some dec0 ∧
    (let x : InStream := { ins1 with dec := some dec0, encs := [{ ssrc := 0x12, note := 0 }] }
     let m := noteFor x dec0 whole0 key0
     scr.obj.ins.at? 1 = some x ∧ dec0.state ≠ .idle ∧ x.decl.form ≠ 1 ∧ m = dec0.note ∧ dec0.state = .waitKey ∧ key0.kind = .idr ∧ isKey key0 = true ∧ key0.valid = true ∧
     overLimit x.decl m key0 = false ∧ overLimit x.decl m { key0 with layers := [lay0 642] } = true ∧ overLimit x.decl m { key0 with level := 60 } = true ∧
     isKey { key0 with kind := .ordinary } = false ∧ overLimit x.decl m { key0 with kind := .ordinary } = false ∧
     picCharge x.decl m key0 ≤ (dec0.refill whole0.arrival).bucket ∧ ({ dec0 with bucket := 0, last := 1000000000 }.refill whole0.arrival).bucket < picCharge x.decl m key0 ∧
     outLayer x.decl m key0 = some (lay0 640)) ∧ (∃ b ∈ dec0.bufs, b.st = .unused) := by decide +kernel

/-- An encoding with an incomplete picture whose loss wait is over, one before it, a packet asked for, and a key request at its second. -/
theorem witness_asking : (let e : Encoding := { ssrc := 0x12, note := 0, next := 4, synced := true, held := [held 5 0 1, held 7 0 2] }
      let x : InStream := { ins1 with dec := some dec0, encs := [e] }
      e.popPicture = none ∧ e.owed = false ∧ (e.abandon (x.decl.blk 12 2) 50000000).isSome = true ∧
      ((e.abandon (x.decl.blk 12 2) 50000000).bind Encoding.popPicture) = none ∧ e.abandon (x.decl.blk 12 2) 49999999 = none ∧ isDecoded 0 x = true) ∧
    taskRuns (atTick 50 scr) 50 = true ∧ taskRuns (atTick 30 scr) 30 = true ∧ taskRuns scr 31 = false ∧ bit (ins1.decl.blk 3 1) 0 = true ∧
    (let due := fun (q : Nacked) => decide (0 < q.times) && decide (q.times < 3) && decide (q.tick + 20 ≤ 30)
     [({ seq := 4, tick := 10, times := 1 } : Nacked)].any due = true ∧ [({ seq := 4, tick := 11, times := 1 } : Nacked)].any due = false) ∧
    wantsKey scr 1 = some 0 ∧ ({ ssrc := 0x12, note := 0, askedAt := some 0 } : Encoding).askedAt = some 0 ∧ logNs scr < 0 + 1000000000 ∧
    0 + 1000000000 ≤ logNs (loggedAt 1000000000 scr) := by decide +kernel

/-- The ready task of an object, in slot 5 of its flow 9. -/
def jobTask (k : TargetKind) (w : Work) : Task :=
  { flags := 0, mask := 0, prio := 8, kind := k, cluster := 0, flow := 9, ordered := true, seq := 0, audio := false, empty := false, dependants := [], writes := [], stage := 1,
    num := 1, job := some { work := w, tick := 30 } }
def working (owner : Nat) (k : TargetKind) (w : Work) (s : State) : State :=
  { s with orgue := { tasks := [(5, jobTask k w)], owners := [(9, owner)], ready := [5], used := 1, plain := 1, born := 1 } }

theorem workable {s : State} {owner : Nat} {k : TargetKind} {w : Work} {pick : Job → Bool} (h1 : pick { work := w, tick := 30 } = true)
    (h2 : (completersOf k 0).any (completerFree (working owner k w s)) = true) (h3 : s.nose.waiting = []) :
    Workable (working owner k w s) owner pick 9 5 (jobTask k w) := by
  refine ⟨?_, ?_, h2, ?_, ?_, rfl, rfl, rfl, rfl, h3⟩ <;> simp [flowFor, readyWork, working, jobTask, tfind, h1]

/-- DECODE_PICTURE, LAYOUT_PICTURE, TILE_SCALING, ENCODE_PICTURE and STITCH_PICTURE: an object with a ready task of tick 30, and one without a flow. -/
theorem witness_engine_rows : Workable (working (objRef 4 1) .decode (.decode 1) scr) (objRef 4 1) (fun q => decide (q.tick = 30)) 9 5 (jobTask .decode (.decode 1)) ∧
    Workable (working (objRef 6 0) .compose (.layout 0 none { desc := [], pic := grey, bytes := 0, users := [] }) scr) (objRef 6 0) (fun q => decide (q.tick = 30)) 9 5
      (jobTask .compose (.layout 0 none { desc := [], pic := grey, bytes := 0, users := [] })) ∧
    Workable (working (objRef 8 0) .compose (.scale 0 0) scr) (objRef 8 0) (fun q => decide (q.work = .scale 0 0) && decide (q.tick = 30)) 9 5 (jobTask .compose (.scale 0 0)) ∧
    Workable (working (objRef tyEnc 0) .encode (.encode 0 coded0 0x0901 0) scr) (objRef tyEnc 0) (fun q => decide (q.tick = 30)) 9 5
      (jobTask .encode (.encode 0 coded0 0x0901 0)) ∧
    Workable (working (objRef 3 0) .stitch (.stitch 1) scr) (objRef 3 0) (fun q => decide (q.work = .stitch 1) && decide (q.tick = 30)) 9 5 (jobTask .stitch (.stitch 1)) ∧
    (scr.obj.outs.at? 1).map (·.leg) = some 0 ∧ flowFor scr (objRef 4 1) = none ∧ flowFor scr (objRef 6 0) = none ∧ flowFor scr (objRef 8 0) = none ∧
    flowFor scr (objRef tyEnc 0) = none ∧ scr.obj.outs.at? 2 = none := by
  refine ⟨workable ?_ ?_ ?_, workable ?_ ?_ ?_, workable ?_ ?_ ?_, workable ?_ ?_ ?_, workable ?_ ?_ ?_, ?_, ?_, ?_, ?_, ?_, ?_⟩ <;> decide +kernel

theorem witness_pictures : inUse scr 0 = false ∧ composes scr 0 = true ∧ layout0.conf = 0 ∧ tileset0.conf = 0 ∧ composes talk 0 = false ∧
    inUse (screen { comp0 with path := .compose, priv := some 1 } dec0 { ssrc := 0x12, note := 0 }) 0 = true ∧ scr.obj.layouts.at? 0 = some layout0 ∧
    scr.obj.tilesets.at? 0 = some tileset0 ∧ ((tileset0.members[0]?).bind (·.ctx)) = some 0 ∧ scr.obj.encs.at? 0 = some enc0 ∧ enc0.lastPic ≠ some 30 ∧
    ({ enc0 with lastPic := some 30 } : EncCtx).lastPic = some 30 ∧ enc0.kind = .tile 0 0 ∧ ((tileset0.members[0]?).bind (·.scaled)) = some (30, grey, 1) ∧
    drivesPorts scr = true ∧ logBusy scr = false ∧ (readTileset (big (h tyConf 0) 56 tileBlock) 0 0).members.all (fun m => m.ctx = none) = true ∧
    clockUsed scr 30 = true ∧ clockUsed scr 60 = false ∧ drivesPorts { scr with twin := { scr.twin with state := .withdrawn } } = false := by decide +kernel

theorem witness_composites : compOf scr 1 = some ({ outs1 with comp := some comp0 }, comp0, layout0) ∧ comp0.path ≠ .bridged ∧ comp0.path ≠ .stitched ∧
    (let c : Comp := { comp0 with path := .bridged, priv := some 1, stitcher := some 0 }
     let s := screen c dec0 { ssrc := 0x12, note := 0 }
     let o : OutStream := { outs1 with comp := some c }
     compOf s 1 = some (o, c, layout0) ∧ c.bridge = none ∧ s.obj.encs.at? 1 = some { enc0 with kind := .priv 1, lastKey := some 30 } ∧
     atBoundary s o layout0 { enc0 with kind := .priv 1, lastKey := some 30 } 60 = true) ∧
    (let c : Comp := { comp0 with path := .stitched, stitcher := some 0 }
     let s := screen c dec0 { ssrc := 0x12, note := 0 }
     compOf s 1 = some ({ outs1 with comp := some c }, c, layout0) ∧ layerOf (outs1.decl.blk 2 1) 1 ≤ c.ceiling ∧ composes s layout0.conf = true ∧
     stitchSlices s (outs1.decl.blk 0 1) 1 c ((decide (clockPeriod s { outs1 with comp := some c } layout0 ≠ 0) &&
       decide (1 % clockPeriod s { outs1 with comp := some c } layout0 = 0)) || c.paramsOwed) 0 c.tiles = some []) := by decide +kernel

/-! ### Sillage -/

theorem witness_sillage_settings : talk.obj.legs.at? 0 = some leg0 ∧ (shaperNow talk false 0).isSome = true ∧ hType (h tyLeg 0) = tyLeg ∧ ok rulePolicerSet (cmd (h tyLeg 0) 20 (pol 16)) talk = true ∧
    ok ruleShaperSet (cmd (h tyLeg 0) 8 [(16, 4, 64), (20, 4, 16777216)]) talk = true ∧
    ok ruleEstimatorSet (cmd (h tyLeg 0) 16 [(16, 4, 32), (20, 4, 200000000), (24, 4, 32), (28, 4, 7)]) talk = true ∧
    ok ruleSchedWeightSet (cmd (h tyLeg 0) 4 [(16, 2, 1000)]) talk = true ∧ ok ruleSchedWeightSet (cmd (h tyTrunk 0) 4 [(16, 2, 1)]) joined = true ∧
    joined.obj.trunks.at? 0 = some trunk0 ∧ hType (h tyTrunk 0) = tyTrunk ∧ talk.obj.tenants.at? 0 = some ten ∧ hType (h tyTenant 0) = tyTenant ∧
    ok rulePolicerSet (cmd (h tyTenant 0) 20 (pol 16)) talk = true ∧ ok ruleSchedWeightSet (cmd (h tyTenant 0) 4 [(16, 2, 20)]) talk = true ∧
    ok ruleDscpMapSet (big (h tyTenant 0) 64 [(64, 1, 2), (127, 1, 1)]) talk = true := by
  refine ⟨?_, ?_, ?_, ?_, ?_, ?_, ?_, ?_, ?_, ?_, ?_, ?_, ?_, ?_, ?_⟩ <;> decide +kernel

def gates : Cmd :=
  { cmd 0 32 [(16, 1, 7), (17, 1, 1), (24, 8, 1000), (32, 4, 1000000), (36, 2, 2), (40, 8, 4096)] with
    data := some (leBytes 4 500000 ++ leBytes 4 255 ++ leBytes 4 500000 ++ leBytes 4 127) }
def plan0 : GatePlan := { mode := true, fixed := false, base := 0, period := 1000000, entries := [(0xFE, 1000000)], start := 0, oldEnd := 0 }

/-- An audio packet of leg 0 with a TWCC-free header, born at 0. -/
def pkt0 : EgPkt :=
  { owner := 0, onTrunk := false, tenant := 0, port := 0, cls := .audio, ssrc := 0x21, slot := h tySlot 3, rtcp := false, plain := List.replicate 20 1, born := 0,
    cipher := none, raw := true, stream := none, notBefore := 0, number := 1 }
def withPkt (p : EgPkt) (x : Port) (c : Nat) : State :=
  { talk with media := { talk.media with egress := [p] }, ports := [(0, x)], tim := { talk.tim with c := c } }

theorem witness_gates : ok ruleGateSet { gates with params := fill 16 48 [(16, 1, 6), (17, 1, 1), (24, 8, 1000), (32, 4, 1000000), (36, 2, 2), (40, 8, 4096)] } talk = true ∧
    ok ruleGateSet (cmd 0 32 [(16, 1, 0)]) talk = true ∧ (portOf talk 0).gateNext = none ∧ ({ gateNext := some plan0 } : Port).gateNext = some plan0 ∧
    (let s := withPkt pkt0 { gates := 0xFE } 10000001
     (s.media.egress.find? fun p => !p.onTrunk && decide (p.owner = 0) && decide (p.cls = .audio) && !p.overGate) = some pkt0 ∧
     pkt0.born + 10000000 < nowNs s ∧ gateAdmits s pkt0 = false ∧ eligible s { pkt0 with overGate := true } = true ∧ drivesPorts s = true) ∧
    nowNs (withPkt pkt0 { gates := 0xFE } 10000000) ≤ pkt0.born + 10000000 := by
  refine ⟨?_, ?_, ?_, ?_, ?_, ?_⟩ <;> decide +kernel

/-- A pick of a packet that fits, of one that is too long, and none; the estimator of leg 0 on its turn. -/
theorem witness_scheduler : (let s := withPkt pkt0 {} 1
      let u := noteBacklog 0 (countHolds 0 s)
      ((choose u 0).map fun r => (r.1, decide (r.1.frameLen (takeEgress r.1 u) ≤ r.2.maxLen))) = some (pkt0, true)) ∧
    (let s := withPkt { pkt0 with plain := List.replicate 1500 1 } { maxLen := 1518 } 1
     let u := noteBacklog 0 (countHolds 0 s)
     ((choose u 0).map fun r => decide (r.2.maxLen < r.1.frameLen (takeEgress r.1 u))) = some true) ∧
    (choose (noteBacklog 0 (countHolds 0 talk)) 0).isNone = true ∧
    (let s : State := { withPkt pkt0 {} 1 with twin := { talk.twin with state := .standby } }
     followsLog s = true ∧ (s.media.egress.find? fun y => decide (y.port.val = 0) && y.wait.isNone) = some pkt0 ∧ pkt0.frameLen (takeEgress pkt0 s) ≤ (portOf s 0).maxLen) ∧
    decides (atTick 550 talk) (h tyLeg 0) 550 = some (false, 0, leg0.est, leg0.shaper.rate) ∧ decides (atTick 551 talk) (h tyLeg 0) 551 = none ∧
    decides (atTick 450 talk) (h tyLeg 0) 450 = some (false, 0, leg0.est, leg0.shaper.rate) ∧
    leg0.est.minimum ≤ leg0.est.maximum.getD (ownerLine talk false 0) ∧ leg0.est.flags.getLsbD 3 = false ∧ leg0.est.feedbackAt + 500 ≤ 550 ∧ leg0.est.halvedAt = none ∧
    450 < leg0.est.feedbackAt + 500 := by
  refine ⟨?_, ?_, ?_, ?_, ?_, ?_, ?_, ?_, ?_, ?_, ?_, ?_⟩ <;> decide +kernel

/-! ### Packets -/

/-- SRTP of SSRC 0x11 without payload, sealed under the key of slot 2 by profile 7 (R116): header and tag. -/
def srtp0 : List Byte :=
  [0x80, 96, 0, 1, 0, 0, 0, 0, 0, 0, 0, 0x11] ++ [35, 233, 1, 105, 232, 68, 85, 12, 241, 145, 237, 6, 40, 3, 221, 180]

/-- The datagram in an Ethernet frame, with its FCS last, from 10.0.0.9:6000 to 10.0.0.1 at a port. -/
def frame0 (port : Nat) : List Byte :=
  List.replicate 12 2 ++ [8, 0] ++ [0x45, 0] ++ beBytes 2 (28 + srtp0.length) ++ [0, 0, 0, 0, 64, 17, 0, 0, 10, 0, 0, 9, 10, 0, 0, 1] ++
  beBytes 2 6000 ++ beBytes 2 port ++ beBytes 2 (8 + srtp0.length) ++ [0, 0] ++ srtp0 ++ [0, 0, 0, 0]
def rx0 (port : Nat) : RxFrame := { port := 0, bytes := frame0 port, wire := 74, stamp := 65536, err := false, logged := false, charged := 256 }
def arrived (r : RxFrame) : State := { talk with ports := [(0, { rx := [r] })] }

/-- The device as the parser has taken the frame. -/
def begun (r : RxFrame) : State :=
  let s := arrived r
  setTwin (fun t => { t with parseOrder := t.parseOrder.drop 1 }) (modPort 0 (fun x => { x with rx := [] })
    { s with media := { s.media with logNow := r.ns, inInput := true } })

theorem witness_parser : (portOf (arrived (rx0 5000)) 0).rx = [rx0 5000] ∧ talk.media.inInput = false ∧ talk.media.trunkQ = [] ∧ talk.nose.waiting = [] ∧ talk.mon.softPending = none ∧ (rx0 5000).port = 0 ∧
    ({ talk.twin with logging := true } : Twin).logging = true ∧ (rx0 5000).logged = false ∧ talk.twin.logging = false ∧ followsLog talk = false ∧
    talk.twin.state ≠ .faultStop ∧ talk.twin.state ≠ .withdrawn ∧ ptpTaken talk.tim (rx0 5000).body = none ∧ isPtp (rx0 5000).body = false ∧
    (let s1 := begun (rx0 5000)
     ((datagramOf (rx0 5000).body).map fun d => (classifyTo s1 d, d.payload)) = some (some (false, 0), srtp0) ∧
     (police false 0 0 1 74 s1).1 = true ∧ ((police false 0 0 1 74 s1).2.obj.legs.at? 0).map (fun l => (l.state, l.ins)) = some (.active, [0, 1]) ∧
     streamOfSsrc (police false 0 0 1 74 s1).2 [0, 1] 0x11 = some 0) ∧
    128 ≤ beAt srtp0 0 1 ∧ beAt srtp0 0 1 ≤ 191 ∧ beAt srtp0 1 1 < 192 ∧
    (let s1 := begun (rx0 5999)
     ((datagramOf (rx0 5999).body).map fun d => (classifyTo s1 d, (unmatchedStun s1 d).isNone)) = some (none, true)) ∧
    datagramOf (List.replicate 60 0) = none ∧ ((tenantOf talk 0).map (·.excRing)).getD 0 = 0 := by
  refine ⟨?_, ?_, ?_, ?_, ?_, ?_, ?_, ?_, ?_, ?_, ?_, ?_, ?_, ?_, ?_, ?_, ?_, ?_, ?_⟩ <;> decide +kernel

def in0 : InPkt := { kind := .srtp, owner := 0, slot := 2, ssrc := 0x11, stream := some 0, payload := srtp0, arrival := 1, frameLen := 74 }

/-- The tasks of a packet have passed through the Orgue, and the packet is Attar's. -/
def inTasks (q : InPkt) (s : State) : List TaskReq := attarTasks s q.slot false q.owner true (openPkt q s).1.isNone
def outTasks (e : EgPkt) (s : State) : List TaskReq := attarTasks s (hIndex e.slot) e.onTrunk e.owner true (sealNow e s).1.isNone
def through (ts : List TaskReq) (s : State) : State := ts.foldl (fun s t => throughOrgue t s) s
def queued (q : InPkt) : State := { talk with media := { talk.media with inQ := [q] } }
def opening (q : InPkt) (s : State) : State := { s with media := { s.media with inQ := [], logNow := q.arrival, inInput := true } }

/-- A packet that authenticates, and one whose slot has no key; a buffer and completers for it, no buffer, and no completer. -/
theorem witness_attar_ingress : ((in0.stream.bind talk.obj.ins.at?).map fun x => decide (x.decl.kind = 0)) = some true ∧
    (let s := queued in0
     let got := requestBuffer 8 12 s
     (openPkt in0 s).1 = some (srtp0.take 12) ∧ got.1.isSome = true ∧ (inTasks in0 s).all (mayPass got.2) = true ∧
     (openPkt in0 (opening in0 (through (inTasks in0 s) got.2))).1 = some (srtp0.take 12)) ∧ in0.kind = .srtp ∧ ({ in0 with held := true } : InPkt).held = true ∧
    (let s : State := { queued in0 with mem := { up.mem with pools := up.mem.pools.map fun p => { p with fresh := p.count } } }
     (requestBuffer 8 12 s).1 = none) := by
  refine ⟨?_, ?_, ?_, ?_, ?_⟩ <;> decide +kernel

theorem witness_attar_refuses : (let q := { in0 with slot := 8 }
      let s := queued q
      (openPkt q s).1 = none ∧ (inTasks q s).all (mayPass s) = true ∧ (openPkt q (opening q (through (inTasks q s) s))).1 = none ∧
      (inTasks q s).all (mayPass { s with orgue := { used := 262144 } }) = false) := by decide +kernel

/-- A packet that leaves as it is, and one whose slot has no key. -/
theorem witness_attar_egress : (outTasks pkt0 talk).all (mayPass talk) = true ∧ (sealNow pkt0 (through (outTasks pkt0 talk) talk)).1 = some pkt0.plain ∧
    (transportOf talk pkt0.onTrunk pkt0.owner).isSome = true ∧ followsLog talk = false ∧
    (let e := { pkt0 with raw := false, slot := h tySlot 8 }
     (outTasks e talk).all (mayPass talk) = true ∧ (sealNow e (through (outTasks e talk) talk)).1 = none) := by decide +kernel

/-- An injection ring of which the entry at index 0 holds KIND, length and OBJECT. -/
def injecting (kind len obj : Nat) : State :=
  { talk with hst := { talk.hst with
      fns := [(0, { rings := [(64, { state := .running, kind := .media, injection := true, prod := 1, base := 0x1000 })] })]
      mem := mwriteN talk.hst.mem 0x1000 (leBytes 8 0x2000 ++ leBytes 4 (len + kind * 65536) ++ leBytes 4 obj) } }

theorem witness_injection : (let s := injecting 3 20 (hn tyLeg 0)
      noseRuns s = true ∧ drivesPorts s = true ∧ logBusy s = false ∧ injectTurn s = some (0, 64) ∧ (ringOf s 0 64).isSome = true ∧
      injectFault s 0 (hostRead 0x1000 32 s) = none ∧ injKind (hostRead 0x1000 32 s) = 3 ∧ liveIndex s tyLeg (injObj (hostRead 0x1000 32 s)) = some 0 ∧
      (s.obj.legs.at? 0).map (·.state) = some .active) ∧
    (let s := injecting 4 20 (hn tyLeg 0)
     (injectFault s 0 (hostRead 0x1000 32 s)).isSome = true) := by decide +kernel

/-- Published values of the functions that Attar and the ports use: GCM's test of a zero key, SHA-1 of "abc", the CRC of "123456789". -/
theorem test_gcm : gcmTag (List.replicate 16 0) (List.replicate 12 0) [] [] =
    [0x58, 0xe2, 0xfc, 0xce, 0xfa, 0x7e, 0x30, 0x61, 0x36, 0x7f, 0x1d, 0x57, 0xa4, 0xe7, 0x45, 0x5a] := by decide +kernel
theorem test_sha1 : sha1 [0x61, 0x62, 0x63] =
    [0xa9, 0x99, 0x3e, 0x36, 0x47, 0x06, 0x81, 0x6a, 0xba, 0x3e, 0x25, 0x71, 0x78, 0x50, 0xc2, 0x6c, 0x9c, 0xd0, 0xd8, 0x9d] := by decide +kernel
theorem test_crc32 : crc32 [0x31, 0x32, 0x33, 0x34, 0x35, 0x36, 0x37, 0x38, 0x39] = 0xCBF43926 := by decide +kernel

/-! ### Ethernet ports -/

/-- Physical port 0 serves two logical ports. -/
def wired : State := { up with phys := [(0, { mode := 2 })], ports := [(0, { link := true }), (1, { link := true })] }

theorem witness_ports : ok rulePortConfig (cmd 0 8 [(16, 1, 0), (17, 1, 1), (18, 1, 1), (20, 2, 1518), (22, 2, 257)]) wired = true ∧
    changesMode (cmd 0 8 [(16, 1, 0), (17, 1, 1), (18, 1, 1), (20, 2, 1518), (22, 2, 257)]) wired = true ∧
    ok rulePortConfig (cmd 0 8 [(16, 1, 1), (17, 1, 2), (20, 2, 9600), (22, 2, 9728)]) wired = true ∧
    changesMode (cmd 0 8 [(16, 1, 1), (17, 1, 2), (20, 2, 9600), (22, 2, 9728)]) wired = false ∧
    ok rulePortLoopback (cmd 0 4 [(16, 1, 1), (17, 1, 2)]) wired = true ∧ locked.mon.opLock = true ∧ wired.mon.opLock = false ∧
    portExists wired 0 = true ∧ portMode wired 0 ≠ 0 ∧ (physOf wired 0).mapErr = false ∧ (portOf { wired with ports := [] } 0).link = false := by decide +kernel

/-- A broadcast frame of 64 bytes whose FCS is right. -/
def plainFrame (ty : Nat) : List Byte := List.replicate 6 0xFF ++ List.replicate 6 2 ++ beBytes 2 ty ++ [0, 1, 0, 8] ++ List.replicate 42 0
def wire (b : List Byte) : WireFrame := { bytes := b ++ leBytes 4 (crc32 b), symbolError := false, corrected := 0, uncorrected := 0 }

theorem witness_receive : portExists wired 0 = true ∧ portMode wired 0 ≠ 0 ∧ (portOf wired 0).loopback = 0 ∧
    ({ wire [] with symbolError := true } : WireFrame).symbolError = true ∧ (List.replicate 63 (0 : Byte)).length < 64 ∧
    (portOf wired 0).maxLen = 9216 ∧ (portOf { wired with ports := [(0, { loopback := 1 })] } 0).loopback = 1 ∧ (portOf { wired with ports := [(0, { loopback := 2 })] } 0).loopback = 2 ∧
    (let f := wire (plainFrame 0x0800)
     ((writeFrame 0 64 (countFec 0 f wired)).1.map fun w => decide (64 ≤ w.kept)) = some true ∧
     (writeFrame 0 64 (countFec 0 f { wired with ports := [(0, { rxBudget := 0 })] })).1 = none) ∧ beAt (plainFrame 0x0800) 12 2 ≠ 0x8808 ∧
    addressOk (portOf wired 0) (plainFrame 0x0800) = true ∧ tagOk (plainFrame 0x0800) = true ∧ followsLog wired = false ∧
    addressOk (portOf wired 0) (List.replicate 64 1) = false ∧ tagOk (plainFrame 0x88A8) = false ∧
    beAt (plainFrame 0x8808) 12 2 = 0x8808 ∧ beAt (plainFrame 0x8808) 14 2 = 1 := by
  refine ⟨?_, ?_, ?_, ?_, ?_, ?_, ?_, ?_, ?_, ?_, ?_, ?_, ?_, ?_, ?_, ?_, ?_⟩ <;> decide +kernel

/-- Frames of the least length whose FCS is right, and one whose FCS is wrong. -/
theorem witness_fcs : (let f := (wire (plainFrame 0x0800)).bytes
      f.length = 64 ∧ crc32 (f.take (f.length - 4)) = leAt f (f.length - 4) 4 ∧ beAt f 12 2 ≠ 0x8808) ∧
    (let f := (wire (plainFrame 0x8808)).bytes
     crc32 (f.take (f.length - 4)) = leAt f (f.length - 4) 4 ∧ beAt f 14 2 = 1) ∧
    (let f := plainFrame 0x0800 ++ [0, 0, 0, 0]
     ¬ crc32 (f.take (f.length - 4)) = leAt f (f.length - 4) 4) := by decide +kernel

def tx0 (n : Nat) : TxFrame := { bytes := List.replicate n 1, prio := 0, gate := 0, mark := none, ptp := none, tenant := 0 }
def sending (n : Nat) (x : Port) : State := { wired with ports := [(0, { x with tx := [tx0 n] })] }

theorem witness_transmit : (portOf (sending 60 { link := true }) 0).tx = [tx0 60] ∧ drivesPorts (sending 60 {}) = true ∧ (portOf (sending 60 { link := true }) 0).link = true ∧
    (tx0 60).ready (sending 60 { link := true }) 0 = true ∧ (tx0 60).over { link := true } = false ∧ (tx0 1600).over { maxLen := 1518 } = true ∧
    (let x : Port := { link := true, pfcEnd := [(1, 10)], tx := [{ tx0 60 with prio := 1, gate := 1 }, tx0 60] }
     let s : State := { wired with ports := [(0, x)] }
     isPaused s 0 1 = true ∧ ({ tx0 60 with prio := 1, gate := 1 } : TxFrame).ready s 0 = false ∧ (tx0 60).ready s 0 = true ∧ (tx0 60).gate ≠ 1 ∧ (tx0 60).over x = false) ∧
    (∀ g ∈ [tx0 60], g.ready (sending 60 { link := true, pauseEnd := 10 }) 0 = false) ∧ ({ pln7200 := true } : Port).pln7200 = true ∧ (tx0 60).ptp = none ∧ (portOf (sending 60 {}) 0).loopback ≠ 1 ∧
    isPaused (sending 60 { link := true, pauseEnd := 10 }) 0 0 = true ∧ (portOf (sending 60 {}) 0).link = false ∧
    (portOf (sending 60 {}) 0).pln7200 = false ∧ (portOf (sending 60 {}) 0).txStart = 512 ∧ 512 < (tx0 509).bytes.length + 4 ∧
    (tx0 508).bytes.length + 4 ≤ 512 := by decide +kernel

/-! ### Memory -/

def part (s1 : Nat) : Cmd :=
  cmd 0 32 [(16, 4, 20480), (20, 4, s1), (24, 4, 8192), (28, 4, 8192), (32, 4, 4096), (36, 4, 2048), (40, 4, 512), (44, 4, 512)]

/-- A state of which pool 0 has one buffer, held by function 0's owner number 3. -/
def holding : State := { up with mem := { up.mem with pools := up.mem.pools.set 0 { count := 32768, lowest := 32767, fresh := 1, holders := [(0, .held 3)] } } }

theorem witness_buffers : ok rulePartitionSet (part 12288) up = true ∧ (part 12288).u32 20 = up.mem.partition.getD 1 0 ∧ ok rulePartitionSet (part 12032) up = true ∧
    (part 12032).u32 20 ≠ up.mem.partition.getD 1 0 ∧ (up.mem.pools.drop 3).all (·.unheld) = true ∧ (up.mem.pools[3 + 2]?).isSome = true ∧
    fitClass 1 < classTop up ∧ fitClass 65536 < classTop { up with hbm := { up.hbm with stackTbl := stackTbl } } ∧ (up.mem.pools[0]?).map (·.rebuild) = some none ∧
    (up.mem.pools[0]?).map (fun p => decide (p.fresh < p.count)) = some true := by decide +kernel

/-- No buffer of a fitting class left; a handle that its owner may free, and one that another names. -/
theorem witness_frees : (let s : State := { up with mem := { up.mem with pools := up.mem.pools.map fun p => { p with fresh := p.count } } }
      ∀ k, k < 6 → (s.mem.pools[k]?).map Pool.free = some 0) ∧
    freeCheck holding.mem.pools 3 (bufHandle 0 0 1) = none ∧ (∀ q ∈ holding.mem.pools, q.rebuild = none) ∧
    (holding.mem.pools[bits (bufHandle 0 0 1).toNat 29 3]?).map (fun p => tget p.holders (bits (bufHandle 0 0 1).toNat 7 22)) = some (some (.held 3)) ∧
    freeCheck holding.mem.pools 4 (bufHandle 0 0 1) = some .foreign ∧ freeCheck holding.mem.pools 3 (bufHandle 0 0 2) = some .stale ∧ (1 : BitVec 4) ≠ 0 := by
  decide +kernel

def entry0 (sop eop : Bool) : SqEntry :=
  { buf := 0, sop := sop, eop := eop, err := false, len := 1, off := 0, obj := 0, time := 0, ord := 0, flow := 0, tag := 0 }
def queue0 : SpillQ :=
  { kind := 5, cap := 4, pkt := true, pinned := false, frame := some 7, head := [entry0 true true, entry0 true false], wr := 2, open_ := 1, inPkt := false }

theorem witness_spill : tget ({ up with mem := { up.mem with queues := [(3, queue0)] } } : State).mem.queues 3 = some queue0 ∧ queue0.wr - queue0.rd < queue0.cap ∧
    queue0.disc = false ∧ queue0.cap ≤ ({ queue0 with wr := 4 } : SpillQ).wr - queue0.rd ∧ queue0.entries = [entry0 true true, entry0 true false] ∧
    (if queue0.pkt then 0 < queue0.wr - queue0.open_ - queue0.rd else 0 < queue0.wr - queue0.rd) ∧ queue0.pkt = true ∧ 0 < queue0.open_ ∧
    ({ queue0 with inPkt := true } : SpillQ).inPkt = true ∧ queue0.inPkt = false ∧ ({ queue0 with inPkt := true, disc := true } : SpillQ).disc = true ∧
    ({ queue0 with head := [], wr := 0, open_ := 0 } : SpillQ).entries = [] ∧ queue0.pinned = false ∧ queue0.frame = some 7 ∧ inBlotter up = false ∧
    (let s : State := { up with nose := { up.nose with service := .blotter } }
     inBlotter s = true ∧ (serveClass s.mem.pools 3 6 0).isSome = true) ∧ queue0.midBufs.length = queue0.midNeed := by decide +kernel

def req0 : TaskReq :=
  { flags := 1, mask := 1, prio := 0, kind := .decode, cluster := 0, flow := 9, ordered := true, audio := false, empty := false, dependants := [], writes := [] }
def task0 (stage : Nat) : Task :=
  { flags := 1, mask := 1, prio := 0, kind := .decode, cluster := 0, flow := 9, ordered := true, seq := 0, audio := false, empty := false, dependants := [], writes := [],
    stage := stage }
def tasked (o : Orgue) : State := { up with orgue := o }

theorem witness_tasks : admitStalls up req0 = false ∧ admitStalls (tasked { used := 262144 }) req0 = true ∧
    (let s := tasked { tasks := [(5, task0 1)], gens := [(5, 2)], ready := [5], used := 1 }
     tget s.orgue.tasks 5 = some (task0 1) ∧ tgetD s.orgue.gens 5 0 = 2 ∧ tgetD s.orgue.gens 5 0 ≠ 3 ∧ completerFree s 0 = true ∧
     headTask (readyFor s 0) = some (5, task0 1)) ∧
    (let s := tasked { tasks := [(5, task0 3)], window := [0], holds := [(0, [5])] }
     s.orgue.window = [(0 : Fin 224).val] ∧ tgetD s.orgue.holds 0 [] = [5] ∧ tget s.orgue.tasks 5 = some (task0 3)) ∧
    (let s := tasked { tasks := [(5, task0 2)], running := [(0, 5)] }
     s.orgue.window = [] ∧ s.orgue.holds = [] ∧ tget s.orgue.running 0 = some 5 ∧ tget s.orgue.tasks 5 = some (task0 2)) ∧
    nextRelease (tasked { tasks := [(5, task0 4)] }) 9 = some (5, task0 4) ∧ (task0 4).job = none ∧
    (let s := tasked { tasks := [(5, task0 4)] }; s.orgue.stalled = [] ∧ s.orgue.closing = [] ∧ s.nose.waiting = []) := by decide +kernel

/-! ### HBM -/

def hbmUp : State := { up with hbm := { up.hbm with stackTbl := stackTbl } }

theorem witness_hbm : (stackOf hbmUp 0).trained = true ∧ (pcOf hbmUp 0).failed = false ∧ Memory.wf hbmUp.hbm.mem = true ∧ isPoisoned hbmUp 64 32 = false ∧
    (stackOf up 0).trained = false ∧ (stackOf up 0).trainFail = false ∧
    ((stackOf { up with hbm := { up.hbm with stackTbl := [(0, { trained := true, retry := [.read 64] })] } } 0).retry[0]?) = some (.read 64) ∧
    (∀ x ∈ List.replicate 16 1, x ≤ 1) ∧ ¬ (∀ x ∈ 2 :: List.replicate 15 0, x ≤ 1) ∧ (∀ x ∈ List.replicate 16 2, x ≤ 2) ∧ ¬ (∀ x ∈ 3 :: List.replicate 15 0, x ≤ 2) := by
  decide +kernel

theorem witness_refresh : (pcOf hbmUp 0).sr ≠ 4 ∧ ({ hbmUp.mon with quiesce := true } : Mon).quiesce = true ∧
    (∀ p : Fin 5, p ≠ 0 → p.val = (({ sr := p.val - 1 } : Pc)).sr + 1) ∧ ({ sr := 3 } : Pc).sr ≠ 0 ∧ 3 ≤ ({ sr := 3 } : Pc).sr ∧
    (stackOf hbmUp 0).doubled = false ∧ ({ doubled := true } : Stack).doubled = true := by decide +kernel

/-- R373: with POSTPONE 4, the fifth interval in a row refreshes one row group at once. -/
theorem test_refresh_debt : (match exec (.refreshInterval 0) { hbmUp with hbm := { hbmUp.hbm with pcs := [(0, { debt := 4 })] } } with
    | .next t => ((pcOf t 0).debt, (pcOf t 0).refreshed)
    | _ => (0, 0)) = (4, 1) := by decide +kernel

/-! ### The Time Unit -/

def timed (t : Tim) : State := { up with tim := t }

theorem witness_time : ok ruleTimeStep (cmd 0 16 [(16, 4, 5)]) up = true ∧ up.tim.stepped = false ∧ up.tim.role = 0 ∧
    ok ruleTimeStep (cmd 0 16 [(16, 4, 5)]) (timed { role := 2 }) = true ∧ ok ruleTimeStep (cmd 0 16 [(16, 4, 5)]) (timed { stepped := true }) = true ∧
    stepDelta (cmd 0 16 [(16, 4, 5)]) ≠ 0 ∧ ok ruleTimeStep (cmd 0 16 []) (timed { stepped := true }) = true ∧ stepDelta (cmd 0 16 []) = 0 ∧
    ok ruleTimeRate (cmd 0 8 [(16, 4, 5)]) up = true ∧ (timed { slew := some (100, 0), s := 2 ^ 34 }).tim.slew = some (100, 0) ∧
    (slewAdded (timed { slew := some (100, 0), s := 2 ^ 34 }) 100 0).natAbs < (100 : Int).natAbs ∧
    (100 : Int).natAbs ≤ (slewAdded (timed { slew := some (100, 0), s := 2 ^ 34, c := 1000000 }) 100 0).natAbs ∧ up.tim.slew = none ∧
    ok rulePtpConfig (big 0 64 [(64, 1, 1), (65, 1, 127), (71, 1, 10), (80, 4, 1000000)]) up = true ∧
    ok rulePtpConfig (big 0 64 [(71, 1, 2), (80, 4, 100)]) up = true ∧ ok rulePpsConfig (cmd 0 12 [(16, 4, 3), (20, 4, 100), (24, 4, 999999999)]) up = true ∧
    ok rulePortTsComp (cmd 0 16 [(16, 1, 7), (20, 4, 500)]) up = true := by
  refine ⟨?_, ?_, ?_, ?_, ?_, ?_, ?_, ?_, ?_, ?_, ?_, ?_, ?_, ?_, ?_⟩ <;> decide +kernel

theorem witness_clock : (timed { role := 2, heldStep := some 5 }).tim.heldStep = some 5 ∧ noMedia (timed { role := 2 }) = true ∧
    (timed { role := 2 }).tim.stepped = false ∧
    (let s := timed { role := 2, o := 2000 * 2 ^ 32 }
     (s.tim.jumpLimit : Int) * 65536 < (((nowStamp s : Int) - nearestSecond (nowStamp s)).natAbs : Int)) ∧
    (let s := timed { role := 2, o := 1000 * 2 ^ 32 }
     ((((nowStamp s : Int) - nearestSecond (nowStamp s)).natAbs : Int)) ≤ (s.tim.jumpLimit : Int) * 65536) ∧ up.tim.role ≠ 2 ∧
    ppsOverdue (timed { role := 2, lastEdge := some 0, c := 1500000000 }) = true ∧ ppsOverdue up = false ∧
    (timed { role := 1, master := some (List.replicate 10 0) }).tim.master.isSome = true ∧
    announceOverdue (timed { role := 1, announceTimeout := 3, c := 60000000000 }) = true ∧ announceOverdue (timed { role := 1, announceTimeout := 3 }) = false ∧
    (timed { role := 2 }).tim.follow = false ∧ (timed { role := 2, ppsLost := false }).tim.ppsLost = false ∧ ({ ppsLost := true } : Tim).ppsLost = true ∧
    ({ follow := true } : Tim).follow = true ∧ (timed { role := 1 }).tim.role = 1 ∧ up.tim.master = none ∧ drivesPorts up = true ∧ portExists up 0 = true ∧
    ({ masterMask := 1 } : Tim).masterMask.getLsbD 0 = true ∧ ({ slaveMask := 0x80 } : Tim).slaveMask.getLsbD 7 = true ∧ portExists up 1 = false := by
  decide +kernel

/-! ### The Twin Complex -/

def twinned (t : Twin) : State := { up with twin := t }
def peer0 : PeerPair := { authentic := true, deviceId := 1, firmware := 0, state := 0, nonce := 0, busy := false }

theorem witness_twin_commands : ok ruleTwinConfig (big 0 64 [(64, 1, 1), (65, 1, 3), (96, 4, 5)]) up = true ∧ ok ruleTwinConfig (big 0 64 []) up = true ∧
    ok ruleTwinRoleSet (cmd 0 4 [(16, 4, 1)]) (twinned { state := .active, prot := true }) = true ∧ hasRole (twinned { state := .active, prot := true }) 1 = true ∧
    ok ruleTwinRoleSet (cmd 0 4 []) (twinned { state := .active, prot := true }) = true ∧ hasRole (twinned { state := .active, prot := true }) 0 = false ∧
    ok ruleTwinRoleSet (cmd 0 4 [(16, 4, 1)]) (twinned { state := .standby, prot := true }) = true ∧ hasRole (twinned { state := .standby, prot := true }) 1 = false ∧
    ok ruleTwinResync (cmd 0 0 []) (twinned { state := .active, prot := true }) = true ∧
    (let s := twinned { state := .active, paired := true, link := true, peerState := 4 }
     ok ruleTwinResync (cmd 0 0 []) s = true ∧ s.twin.prot = false ∧ mayResync s = true ∧ s.twin.peerFw = s.nose.fwVersion) ∧
    ({ peerFw := 9 } : Twin).peerFw ≠ up.nose.fwVersion := by decide +kernel

theorem witness_session : (let t : Twin := { state := .active, autoDue := true, autoResync := true, paired := true, link := true, peerState := 4 }
      t.autoDue = true ∧ t.autoResync = true ∧ t.state = .active ∧ mayResync (twinned t) = true ∧ t.autoAt = none) ∧
    laneGroup 0xFF = 0xFF ∧ laneGroup 0x03 ≠ 0 ∧ popcount 8 (laneGroup 0x03).toNat = 2 ∧ (twinned { state := .standby }).twin.state = .standby ∧
    ({ peer0 with authentic := false } : PeerPair).authentic = false ∧
    (let t : Twin := { mode := true, link := true, state := .active }
     t.mode = true ∧ t.link = true ∧ t.state ≠ .faultStop ∧ isActive (twinned t) = true ∧ 1 < (2 : BitVec 3).toNat ∧ peer0.state.toNat ≤ 1 ∧
     holdsMedia (twinned t) = false ∧ { peer0 with busy := true }.busy = true) ∧ isActive (twinned { state := .standby }) = false ∧
    ({ paired := true } : Twin).paired = true := by decide +kernel

/-- Block 1 of a link: BSEQ 1, heartbeat, no message; CRC and parity as Table 16-4 gives them. -/
def block1 : List Byte :=
  [0, 0, 1, 0, 0, 144, 0, 0, 0, 0, 0, 0, 48, 113, 200, 234] ++ List.replicate 400 0 ++
  [111, 59, 83, 146, 90, 157, 93, 65, 16, 48, 137, 53, 37, 215, 250, 102, 161, 113, 150, 26, 126, 245, 192, 204, 143, 247, 158, 1, 126, 231, 98, 137]

theorem witness_block : (let b := (correctBlock (slice block1 0 448)).1
      blockGood b = true ∧ (headOf b).bseq = ((0 : BitVec 16) + 1).toNat ∧ (headOf b).idle = true ∧ (headOf b).hb = true ∧ (headOf b).fault = false ∧
      (headOf b).bseq ≠ ((5 : BitVec 16) + 1).toNat) := by decide +kernel

theorem witness_bad_block : blockGood (correctBlock (slice [] 0 448)).1 = false := by decide +kernel

def logged (ts : Twin) (r : RxFrame) : State := { talk with twin := ts, ports := [(0, { rx := [r] })] }
def entry (e : LogEntry) : RxEntry := { ord := 1, entry := e, blocks := 1 }

theorem witness_log : (let s := logged { state := .active, logging := true, link := true } (rx0 5000)
      s.twin.logging = true ∧ ((portOf s 0).rx.find? fun r => !r.logged) = some (rx0 5000) ∧ s.twin.pend = [] ∧ isStub s (rx0 5000) = false ∧
      s.twin.link = true ∧ msgBlocks (entryMsgs (s.twin.ordinal + 1) (.frame (rx0 5000)) s).1 ≤ logCredit s.twin) ∧
    isStub { talk with obj := { talk.obj with tenants := { live := [(0, { ten with prot := false })] } } } (rx0 5000) = true ∧
    ¬ msgBlocks (entryMsgs 1 (.frame (rx0 5000)) up).1 ≤ logCredit { logSent := 160 } ∧
    ({ link := true, state := .active } : Twin).state ≠ .faultStop ∧
    (let s : State := { talk with twin := { state := .standby, rxLog := [entry (.stub 2)] } }
     s.twin.rxLog = [entry (.stub 2)] ∧ followsLog s = true ∧ entryWaits s (.stub 2) = false ∧ entryWaits s (.tick 0 0 7) = false) ∧
    (let c := cmd (h tyConf 0) 16 [(17, 1, 9), (28, 4, 2)]
     let s : State := { talk with twin := { state := .standby, rxLog := [entry (.command 0x0302 c 0)] } }
     entryWaits s (.command 0x0302 c 0) = false ∧ (ruleOf 0x0302).isSome = true ∧
     bodyCheck ruleConfModify c (freeBlocks 1 (setTwin (fun t => { t with rxLog := [], applied := 1 }) s)) = none ∧ hType c.object ≠ tySlot) ∧
    entryObject talk (.estimate (h tyLeg 0) 5) = some (h tyConf 0) ∧ ({ todoObjs := [h tyConf 0] } : Twin).todoObjs.contains (h tyConf 0) = true ∧ talk.media.inQ = [] ∧
    total (([(h tyConf 0, entry (.estimate (h tyLeg 0) 5))].filter fun e => decide (e.1 = h tyConf 0)).map fun e => e.2.entry.size) ≤ 2 ^ 28 := by
  decide +kernel

/-- A key command waits while its slot retires a key. -/
theorem witness_log_waits : entryWaits { talk with obj := { talk.obj with slots := { live := [(2, { slotAs false false with retiring := some theKey })] } } }
    (.command 0x0601 (loadKey 2) 0) = true := by decide +kernel

def digest0 : DigestRec := { tick := 100, object := 1, count := 2, crc := 3 }

theorem witness_digests : (let t : Twin := { state := .active, prot := true, forming := [digest0], peerTicks := [100], peerDigests := [digest0] }
      t.prot = true ∧ t.ownTicks = [] ∧ t.peerTicks.contains 100 = true ∧ t.peerTicks.contains 101 = false ∧ t.ownTicks.contains 100 = false ∧
      digestFault ((t.ownDigests ++ t.forming.filter fun d => decide (d.tick = 100)).filter fun d => decide (d.tick = 100))
        (t.peerDigests.filter fun d => decide (d.tick = 100)) = none) ∧
    digestFault [digest0] [{ digest0 with crc := 4 }] ≠ none ∧ 100 < ({ talk.media with tick := 101 } : Media).tick ∧
    ({ ownTicks := [100] } : Twin).ownTicks ≠ [] ∧ followsLog (twinned { state := .standby }) = true ∧ followsLog (twinned { state := .active }) = false := by
  decide +kernel

theorem witness_failover : (let t : Twin := { state := .standby, paired := true, liveIn := false, shadow := [{ stream := 1, number := 5, port := 0, frame := tx0 60 }] }
      t.paired = true ∧ t.liveIn = false ∧ t.state = .standby ∧ t.rxLog = [] ∧ tgetD t.confirmed 1 0 < 5) ∧
    ({ state := .syncing } : Twin).state = .syncing ∧ ({ state := .active, prot := true, hbMissed := 3, liveIn := true } : Twin).hbMissed = 3 ∧
    up.twin.hbMissed < 3 ∧ up.twin.paired = false ∧ ({ pend := [.stub 1], logging := true } : Twin).pend ≠ [] ∧
    (let s := twinned { state := .active, prot := true, switchReq := true }
     s.twin.switchReq = true ∧ logBusy s = false ∧ s.twin.pend = [] ∧ s.nose.waiting = [] ∧ s.mon.softPending = none) ∧
    logBusy (twinned { parseOrder := [0] }) = true ∧
    (let t : Twin := { resync := true, todoObjs := [h tyConf 0], readyObjs := [h tyConf 0], logging := true, state := .active }
     nextObject { talk with twin := t } = some (h tyConf 0) ∧ t.resync = true ∧ t.todoObjs.contains (h tyConf 0) = true ∧ t.readyObjs.contains (h tyConf 0) = true ∧ t.buffered = [] ∧ t.logging = true ∧
     allSynced { talk with twin := t } = false) ∧ nextObject { talk with twin := { todoObjs := [h tyConf 1, h tyConf 0] } } ≠ some (h tyConf 0) ∧
    groupServes (twinned { group := 0xFF }) = true ∧ groupServes (twinned { group := 3 }) = false ∧ allSynced (twinned { resync := true }) = true := by decide +kernel

/-! ### Faults -/

theorem witness_faults : up.twin.state = .solo ∧ (engines 1 (vidCluster up 0)).length = 2 ∧ ((engines 2 (vidCluster up 7)).getD 1 {}).quar = false ∧
    (vidCluster up 0).spareKind = 0 ∧ (vidCluster up 0).spare.quar = false ∧
    (let s : State := { up with video := { clusters := [(0, { spareKind := 1, dec := [{ quar := true }, {}] })] } }
     (vidCluster s 0).spareKind ≠ 0 ∧ ((engines 1 (vidCluster s 0)).getD 0 {}).quar = true ∧ ((engines 1 (vidCluster s 0)).getD 1 {}).quar = false) ∧
    (vidCluster up 0).cmp.length = 2 ∧ ((vidCluster up 0).cmp.getD 1 {}).quar = false ∧ stitcherQuar up 7 = false ∧ (accClusterOf up 7).assistQuar = false ∧
    scratchOf 0x8000000 = some 0 ∧ scratchOf 0x4000000 = none ∧ bufferAt 0x4000000 = none ∧ bufferAt 0 = some (0, 0) ∧
    (portOf (arrived (rx0 5000)) 0).rx = rx0 5000 :: [] ∧ (portOf (arrived (rx0 5000)) 0).rx = [] ++ [rx0 5000] ∧ slotAt talk 2 = some (slotAs false false) ∧ followsLog (twinned { state := .syncing }) = true ∧
    (twinned { state := .active, prot := true }).twin.prot = true := by decide +kernel

/-- R227: the manual's example blends 437 over 64 with alpha 192, and writes the result in 8 bits. -/
theorem test_blend : blend 192 437 64 = 345 ∧ (345 + 2) / 4 = 86 := by decide +kernel

end Sys2Proof.Tests
end

section
/-! The watchdog, the firmware update and the locks (R465, R473, R475, R476), and the registers that writing 1 clears (R4). -/

namespace Sys2Proof.Machine

/-! ### What a fold and a counter keep -/

/-- A fold keeps every part of the state that its step keeps. -/
theorem foldl_keeps {β γ : Type} (part : State → γ) {f : State → β → State} (h : ∀ s x, part (f s x) = part s) (l : List β) (s : State) :
    part (l.foldl f s) = part s := by
  induction l generalizing s with
  | nil => rfl
  | cons x l ih => rw [List.foldl_cons, ih, h]

/-- Counting one adds one, modulo 2^32 (R112). -/
theorem count1_value (i : Nat) (s : State) : counterOf (count1 i s) i = counterOf s i + 1 := by
  rw [count1, count_value]
  apply BitVec.eq_of_toNat_eq
  simp

/-- The counters are apart from the Nose's own records. -/
@[simp] theorem counterOf_nose (n : Nose) (s : State) (i : Nat) : counterOf { s with nose := n } i = counterOf s i := rfl

@[simp] theorem counterOf_setTwin (f : Twin → Twin) (s : State) (i : Nat) : counterOf (setTwin f s) i = counterOf s i := rfl

@[simp] theorem counterOf_postDevice (c x y : Nat) (s : State) (i : Nat) : counterOf (postDevice c x y s) i = counterOf s i := by
  simp [counterOf]

/-! ### What a reply leaves of the watchdog -/

theorem writeReply_watchdog (h : HeldReply) (s : State) :
    (writeReply h s).nose.wdogInterval = s.nose.wdogInterval ∧ (writeReply h s).nose.wdogExpiries = s.nose.wdogExpiries := by
  unfold writeReply
  dsimp only
  repeat' split
  all_goals simp

theorem flushReplies_watchdog (s : State) :
    (flushReplies s).nose.wdogInterval = s.nose.wdogInterval ∧ (flushReplies s).nose.wdogExpiries = s.nose.wdogExpiries :=
  ⟨foldl_keeps (·.nose.wdogInterval) (fun t h => (writeReply_watchdog h t).1) _ s,
   foldl_keeps (·.nose.wdogExpiries) (fun t h => (writeReply_watchdog h t).2) _ s⟩

theorem answer_watchdog (op : Nat) (c : Cmd) (r : Reply) (s : State) :
    (answer op c r s).nose.wdogInterval = s.nose.wdogInterval ∧ (answer op c r s).nose.wdogExpiries = s.nose.wdogExpiries := by
  unfold answer
  dsimp only
  split <;> simp [flushReplies_watchdog, retire]

/-- A command leaves the watchdog as its effect leaves it. -/
theorem perform_watchdog (r : CmdRule) (c : Cmd) (s : State) :
    (perform r c s).nose.wdogInterval = (r.effect c s).2.nose.wdogInterval ∧
    (perform r c s).nose.wdogExpiries = (r.effect c s).2.nose.wdogExpiries := by
  unfold perform leaveQuiesce
  dsimp only
  repeat' split
  all_goals simp [answer_watchdog]

/-! ### Commands that use no cluster, and signed commands -/

/-- A command that needs no cluster leaves QUIESCE as it is, so the AON records and the HBM are its effect's (R464). -/
theorem perform_mon_hbm {r : CmdRule} (h : needsClusters r.op = false) (c : Cmd) (s : State) :
    (perform r c s).mon = (r.effect c s).2.mon ∧ (perform r c s).hbm = (r.effect c s).2.hbm := by
  simp [perform_mon, perform_hbm, h]

/-- A signed command takes effect at once, or is answered that its signature fails (R82 order 8). -/
theorem issue_ifSigned {r : CmdRule} {c : Cmd} {s : State} (h : AdmitsIfSigned r c s) :
    (fullCheck r c s = none ∧ issue r c s = .next { perform r c s with pending := s.pending }) ∨
    (fullCheck r c s = some ⟨stSignature, 0⟩ ∧
      issue r c s = .next { answer r.op c (.ofFail ⟨stSignature, 0⟩) (countFailure r c ⟨stSignature, 0⟩ s) with pending := s.pending }) := by
  obtain ⟨hawake, hruns, hpass | hsig, hwaits, hbehind, hbusy⟩ := h
  · exact .inl ⟨hpass, issue_performs ⟨hawake, hruns, hpass, hwaits, hbehind, hbusy⟩⟩
  · exact .inr ⟨hsig, issue_fails hawake hruns hsig⟩

/-- FW_UPDATE's effect on the AON records: the slot that is not running takes the image and boots next (R473; log entry 118). -/
theorem fwUpdate_effect_mon (c : Cmd) (s : State) :
    let m := (ruleFwUpdate.effect c s).2.mon
    m.debugLock = s.mon.debugLock ∧ m.staged = true ∧ m.activeB = !s.mon.slotB ∧
    (s.mon.slotB = false → m.flashB.valid = true ∧ m.flashA = s.mon.flashA) ∧
    (s.mon.slotB = true → m.flashA.valid = true ∧ m.flashB = s.mon.flashB) := by
  cases h : s.mon.slotB <;> simp [ruleFwUpdate, h]

/-! ### Each command -/

/-- WATCHDOG_SET arms the watchdog and nothing else of the device (R465). -/
theorem watchdogSet_yields {c : Cmd} {s : State} (h : Admits ruleWatchdogSet c s) :
    Yields (.watchdogSet c) s fun t => HostOnly s t ∧ t.nose.wdogInterval = c.u32 16 ∧ t.nose.wdogExpiries = 0 := by
  refine ⟨_, issue_performs h, rfl, ?_, ?_⟩
  · have hquiet : needsClusters ruleWatchdogSet.op = false := rfl
    simp only [HostOnly, perform_fields, perform_mon_hbm hquiet]
    exact ⟨rfl, rfl, rfl, rfl, rfl, rfl, rfl, rfl, rfl, rfl, rfl⟩
  · exact perform_watchdog ruleWatchdogSet c s

/-- An expiry of an armed watchdog is counted (R465). -/
theorem watchdogExpires_counts {s : State} (h : s.nose.wdogInterval ≠ 0) :
    let t := watchdogExpires s
    t.obj = s.obj ∧ t.nose.wdogExpiries = s.nose.wdogExpiries + 1 ∧ t.nose.wdogInterval = s.nose.wdogInterval ∧
    counterOf t (monCtr 0x40C) = counterOf s (monCtr 0x40C) + 1 := by
  simp only [watchdogExpires, if_neg h]
  repeat' split
  all_goals simp [count1_value]

/-- FW_UPDATE: a verified image goes into the slot that is not running; one whose signature fails changes nothing (R473). -/
theorem fwUpdate_yields {c : Cmd} {s : State} (h : AdmitsIfSigned ruleFwUpdate c s) :
    Yields (.fwUpdate c) s fun t => t.obj = s.obj ∧ t.mon.debugLock = s.mon.debugLock ∧
      (fullCheck ruleFwUpdate c s ≠ none → t.mon = s.mon) ∧
      (fullCheck ruleFwUpdate c s = none → t.mon.staged = true ∧ t.mon.activeB = !s.mon.slotB ∧
        (s.mon.slotB = false → t.mon.flashB.valid = true ∧ t.mon.flashA = s.mon.flashA) ∧
        (s.mon.slotB = true → t.mon.flashA.valid = true ∧ t.mon.flashB = s.mon.flashB)) := by
  obtain ⟨hpass, hnext⟩ | ⟨hsig, hnext⟩ := issue_ifSigned h
  · have hmon : (perform ruleFwUpdate c s).mon = (ruleFwUpdate.effect c s).2.mon := (perform_mon_hbm rfl c s).1
    obtain ⟨hlock, hslots⟩ := fwUpdate_effect_mon c s
    refine ⟨_, hnext, rfl, ?_, ?_, absurd hpass, fun _ => ?_⟩
    · simp only [perform_fields]
      rfl
    · exact hmon ▸ hlock
    · exact hmon ▸ hslots
  · exact ⟨_, hnext, rfl, by simp, by simp, fun _ => by simp, fun hpass => by simp [hpass] at hsig⟩

/-- DEBUG_LOCK blows the fuse exactly when its block is verified (R476). -/
theorem debugLock_yields {c : Cmd} {s : State} (h : AdmitsIfSigned ruleDebugLock c s) :
    Yields (.debugLock c) s fun t => t.obj = s.obj ∧ t.accord = s.accord ∧
      t.mon = { s.mon with debugLock := s.mon.debugLock || (fullCheck ruleDebugLock c s).isNone } := by
  obtain ⟨hpass, hnext⟩ | ⟨hsig, hnext⟩ := issue_ifSigned h
  · have hmon : (perform ruleDebugLock c s).mon = (ruleDebugLock.effect c s).2.mon := (perform_mon_hbm rfl c s).1
    refine ⟨_, hnext, rfl, ?_, ?_, ?_⟩
    · simp only [perform_fields]
      rfl
    · simp only [perform_fields]
      rfl
    · rw [hpass, Option.isNone_none, Bool.or_true]
      exact hmon
  · exact ⟨_, hnext, rfl, by simp, by simp, by simp [hsig]⟩

/-- Settles O19: each command's own lemma; the rows without a check answer their effect when the device is out of reset, and JTAG in every state. -/
theorem watchdogUpdatesAndLocks : Obligations.WatchdogUpdatesAndLocks := by
  intro s c w
  refine ⟨watchdogSet_yields, fun hawake harmed => ?expiry, fwUpdate_yields, debugLock_yields, ⟨_, rfl, rfl, rfl⟩,
    fun hawake => ?opLock, fun hawake => ?cause, fun hawake => ?alarm⟩
  case expiry => exact ⟨_, done_awake _ hawake, rfl, watchdogExpires_counts harmed⟩
  case opLock => exact ⟨_, done_awake _ hawake, rfl, rfl⟩
  case cause => exact ⟨_, done_awake _ hawake, rfl, rfl⟩
  case alarm => exact ⟨_, done_awake _ hawake, rfl, rfl⟩

end Sys2Proof.Machine
end

section
/-! What a register write can change, and what it never does: the queue and whether the device is in reset (R4, R64, R65). -/

namespace Sys2Proof.Machine

/-! ### The Llynas Link and the escalation of a fault keep the queue and the AON records -/

@[simp] theorem sendBlock_pending_mon (control hb : Bool) (first : Nat) (bs : List Byte) (s : State) :
    (sendBlock control hb first bs s).pending = s.pending ∧ (sendBlock control hb first bs s).mon = s.mon := by
  simp [sendBlock]

@[simp] theorem sendBytes_pending_mon (control : Bool) (first fuel : Nat) (bs : List Byte) (s : State) :
    (sendBytes control first fuel bs s).pending = s.pending ∧ (sendBytes control first fuel bs s).mon = s.mon := by
  induction fuel generalizing first bs s with
  | zero => simp [sendBytes]
  | succ fuel ih => unfold sendBytes; split <;> simp [ih]

@[simp] theorem sendControl_pending_mon (m : Msg) (s : State) :
    (sendControl m s).pending = s.pending ∧ (sendControl m s).mon = s.mon := by
  unfold sendControl
  split <;> simp

@[simp] theorem sendWatermark_pending_mon (p : Nat) (s : State) :
    (sendWatermark p s).pending = s.pending ∧ (sendWatermark p s).mon = s.mon := by
  simp [sendWatermark]

@[simp] theorem finalWatermarks_pending_mon (s : State) :
    (finalWatermarks s).pending = s.pending ∧ (finalWatermarks s).mon = s.mon :=
  ⟨foldl_keeps State.pending (fun t p => by split <;> simp) _ s, foldl_keeps State.mon (fun t p => by split <;> simp) _ s⟩

@[simp] theorem changeRole_pending_mon (st : TwinState) (cause : Nat) (s : State) :
    (changeRole st cause s).pending = s.pending ∧ (changeRole st cause s).mon = s.mon := by
  simp [changeRole]

@[simp] theorem answerResync_pending_mon (r : Reply) (s : State) :
    (answerResync r s).pending = s.pending ∧ (answerResync r s).mon = s.mon := by
  unfold answerResync
  split <;> simp

@[simp] theorem endProtection_pending_mon (s : State) :
    (endProtection s).pending = s.pending ∧ (endProtection s).mon = s.mon := by
  unfold endProtection
  dsimp only
  split <;> simp

@[simp] theorem withdraw_pending_mon (cause : Nat) (s : State) :
    (withdraw cause s).pending = s.pending ∧ (withdraw cause s).mon = s.mon := by
  simp [withdraw]

@[simp] theorem faultStop_pending_mon (s : State) :
    (faultStop s).pending = s.pending ∧ (faultStop s).mon = s.mon := by
  simp [faultStop]

/-- An escalated fault leaves them alone when what the device does alone does (R446). -/
theorem escalate_pending_mon (stop : Bool) {alone : State → State} (s : State)
    (h : (alone s).pending = s.pending ∧ (alone s).mon = s.mon) :
    (escalate stop alone s).pending = s.pending ∧ (escalate stop alone s).mon = s.mon := by
  unfold escalate
  dsimp only
  repeat' split
  all_goals simp [h]

/-! ### So does an Accord core, whatever it issues -/

@[simp] theorem quarantine_pending_mon (n : Nat) (s : State) :
    (quarantine n s).pending = s.pending ∧ (quarantine n s).mon = s.mon := by
  unfold quarantine
  dsimp only
  split <;> simp

@[simp] theorem fallBack_pending_mon (conf first reason : Nat) (s : State) :
    (fallBack conf first reason s).pending = s.pending ∧ (fallBack conf first reason s).mon = s.mon := by
  unfold fallBack
  dsimp only
  repeat' split
  all_goals simp

@[simp] theorem coreFault_pending_mon (n : Nat) (s : State) :
    (coreFault n s).pending = s.pending ∧ (coreFault n s).mon = s.mon := by
  unfold coreFault
  dsimp only
  split
  · simp
  · refine (escalate_pending_mon false _ ⟨?pending, ?mon⟩).imp (·.trans (by simp)) (·.trans (by simp))
    case pending => exact foldl_keeps State.pending (fun t x => by split <;> simp) _ _
    case mon => exact foldl_keeps State.mon (fun t x => by split <;> simp) _ _

@[simp] theorem coreTakesFault_pending_mon (n cause : Nat) (c : Core) (s : State) :
    (coreTakesFault n cause c s).pending = s.pending ∧ (coreTakesFault n cause c s).mon = s.mon := by
  unfold coreTakesFault
  dsimp only
  split <;> simp

@[simp] theorem stepCore_pending_mon (o : AccOp) (n : Nat) (s : State) :
    (stepCore o n s).pending = s.pending ∧ (stepCore o n s).mon = s.mon := by
  unfold stepCore
  dsimp only
  repeat' split
  all_goals simp [drawFree]

@[simp] theorem stepFetched_pending_mon (n : Nat) (s : State) :
    (stepFetched n s).pending = s.pending ∧ (stepFetched n s).mon = s.mon := by
  unfold stepFetched
  dsimp only
  split <;> simp

@[simp] theorem stepHalted_pending_mon (n : Nat) (s : State) :
    (stepHalted n s).pending = s.pending ∧ (stepHalted n s).mon = s.mon := by
  unfold stepHalted
  dsimp only
  repeat' split
  all_goals simp

/-! ### The writes of each window -/

@[simp] theorem flushEvents_pending_mon (f n fuel : Nat) (s : State) :
    (flushEvents f n fuel s).pending = s.pending ∧ (flushEvents f n fuel s).mon = s.mon := by
  induction fuel generalizing s with
  | zero => simp [flushEvents]
  | succ fuel ih =>
    unfold flushEvents
    repeat' split
    all_goals simp [ih]

@[simp] theorem startAdmin_pending_mon (f : Nat) (a : AdmStart) (s : State) :
    (startAdmin f a s).pending = s.pending ∧ (startAdmin f a s).mon = s.mon := by
  unfold startAdmin
  dsimp only
  split <;> simp

@[simp] theorem admEnable_pending_mon (f : Nat) (v : Word) (s : State) :
    (admEnable f v s).pending = s.pending ∧ (admEnable f v s).mon = s.mon := by
  unfold admEnable
  dsimp only
  repeat' split
  all_goals simp [writeAdmCtl]

@[simp] theorem admDisable_pending_mon (f : Nat) (v : Word) (s : State) :
    (admDisable f v s).pending = s.pending ∧ (admDisable f v s).mon = s.mon := by
  unfold admDisable
  dsimp only
  repeat' split
  all_goals simp [writeAdmCtl]

@[simp] theorem writeHst_pending_mon (f off : Nat) (v : Word) (s : State) :
    (writeHst f off v s).pending = s.pending ∧ (writeHst f off v s).mon = s.mon := by
  unfold writeHst
  repeat' split
  all_goals simp

@[simp] theorem dropLink_pending_mon (p : Nat) (s : State) :
    (dropLink p s).pending = s.pending ∧ (dropLink p s).mon = s.mon := by
  unfold dropLink
  dsimp only
  split <;> simp

@[simp] theorem writeLaneMap_pending_mon (n : Nat) (v : Word) (s : State) :
    (writeLaneMap n v s).pending = s.pending ∧ (writeLaneMap n v s).mon = s.mon := by
  unfold writeLaneMap
  split <;> simp [dropPhys]

@[simp] theorem writeBudget_pending_mon (p : Nat) (v : Word) (s : State) :
    (writeBudget p v s).pending = s.pending ∧ (writeBudget p v s).mon = s.mon := by
  unfold writeBudget
  dsimp only
  split <;> simp [drawFree]

@[simp] theorem writeMac_pending_mon (p off : Nat) (v : Word) (s : State) :
    (writeMac p off v s).pending = s.pending ∧ (writeMac p off v s).mon = s.mon := by
  unfold writeMac
  repeat' split
  all_goals simp

@[simp] theorem dbgDenied_pending_mon (s : State) : (dbgDenied s).pending = s.pending ∧ (dbgDenied s).mon = s.mon := by
  unfold dbgDenied
  split <;> simp

@[simp] theorem writeDbg_pending_mon (n off : Nat) (v : Word) (s : State) :
    (writeDbg n off v s).pending = s.pending ∧ (writeDbg n off v s).mon = s.mon := by
  unfold writeDbg
  dsimp only
  repeat' split
  all_goals simp [haltCore]

@[simp] theorem reseed_pending_mon (s : State) : (reseed s).pending = s.pending ∧ (reseed s).mon = s.mon :=
  ⟨foldl_keeps State.pending (fun t p => by simp) _ s, foldl_keeps State.mon (fun t p => by simp) _ s⟩

@[simp] theorem writeHbmReg_pending_mon (off : Nat) (v : Word) (s : State) :
    (writeHbmReg off v s).pending = s.pending ∧ (writeHbmReg off v s).mon = s.mon := by
  unfold writeHbmReg
  split <;> simp

/-- A write of the MON window may change the AON records, but no register of it resets the device. -/
@[simp] theorem writeMon_pending_inReset (off : Nat) (v : Word) (s : State) :
    (writeMon off v s).pending = s.pending ∧ (writeMon off v s).mon.inReset = s.mon.inReset := by
  unfold writeMon writePwrCtl leaveQuiesce
  dsimp only
  repeat' split
  all_goals simp

@[simp] theorem writePf_pending_inReset (a : Nat) (v : Word) (s : State) :
    (writePf a v s).pending = s.pending ∧ (writePf a v s).mon.inReset = s.mon.inReset := by
  unfold writePf
  dsimp only
  repeat' split
  all_goals simp [retrainLink]

@[simp] theorem writeMsix_pending_mon (f off : Nat) (v : Word) (s : State) :
    (writeMsix f off v s).pending = s.pending ∧ (writeMsix f off v s).mon = s.mon := by
  unfold writeMsix
  split <;> simp

/-- A 32-bit write leaves the queue alone and the device in or out of reset. -/
@[simp] theorem writeOne_pending_inReset (f a : Nat) (v : Word) (s : State) :
    (writeOne f a v s).pending = s.pending ∧ (writeOne f a v s).mon.inReset = s.mon.inReset := by
  unfold writeOne
  repeat' split
  all_goals simp

/-! ### One function page or port replaced -/

@[simp] theorem fnOf_modFn_self (f : Nat) (g : HstFn → HstFn) (s : State) : fnOf (modFn f g s) f = g (fnOf s f) := by
  simp [fnOf, modFn, setFn]

theorem fnOf_modFn_ne {f k : Nat} (h : k ≠ f) (g : HstFn → HstFn) (s : State) : fnOf (modFn f g s) k = fnOf s k :=
  tgetD_tput_ne _ _ _ h

theorem modFn_hostOnly (f : Nat) (g : HstFn → HstFn) (s : State) : HostOnly s (modFn f g s) := by
  simp [HostOnly]

@[simp] theorem portOf_modPort_self (p : Nat) (f : Port → Port) (s : State) : portOf (modPort p f s) p = f (portOf s p) := by
  simp [portOf]

theorem portOf_modPort_ne {p k : Nat} (h : k ≠ p) (f : Port → Port) (s : State) : portOf (modPort p f s) k = portOf s k :=
  tgetD_tput_ne _ _ _ h

/-! ### Halves of a wide register -/

/-- The low word of a register replaced, as a number and as bits. -/
theorem ofNat_replaceLow (n : Nat) (x : BitVec (n + 32)) (w : Word) :
    BitVec.ofNat (n + 32) (x.toNat / 2 ^ 32 * 2 ^ 32 + w.toNat) = x.extractLsb' 32 n ++ w := by
  apply BitVec.eq_of_toNat_eq
  have hx : x.toNat / 2 ^ 32 < 2 ^ n := by
    rw [Nat.div_lt_iff_lt_mul (by decide), ← Nat.pow_add]
    exact x.isLt
  rw [BitVec.toNat_append, BitVec.extractLsb'_toNat, Nat.shiftRight_eq_div_pow, Nat.mod_eq_of_lt hx,
    ← Nat.shiftLeft_add_eq_or_of_lt w.isLt, Nat.shiftLeft_eq, BitVec.toNat_ofNat, Nat.mod_eq_of_lt]
  have hw := w.isLt
  rw [Nat.pow_add]
  omega

theorem putHalf_low (x : Word64) (w : Word) : putHalf x false w = x.extractLsb' 32 32 ++ w := ofNat_replaceLow 32 x w

theorem putHalf_high (x : Word64) (w : Word) : putHalf x true w = w ++ x.extractLsb' 0 32 := by
  apply BitVec.eq_of_toNat_eq
  have hlow : (x.extractLsb' 0 32).toNat = x.toNat % 2 ^ 32 := by simp
  rw [BitVec.toNat_append, ← Nat.shiftLeft_add_eq_or_of_lt (BitVec.isLt _), Nat.shiftLeft_eq, hlow]
  have := w.isLt
  simp only [putHalf, if_true, BitVec.toNat_ofNat]
  omega

theorem halfWord_shifted (v : Word64) : halfWord (v >>> 32) false = halfWord v true := by
  ext i hi
  simp [halfWord]

theorem clampN_eq_max_min {lo hi : Nat} (h : lo ≤ hi) (x : Nat) : clampN lo hi x = max lo (min hi x) := by
  unfold clampN
  repeat' split
  all_goals omega

/-! ### A register access (R65) -/

theorem writeReg_rejected {a size : Nat} (h : accessOk a size = false) (f : Nat) (v : Word64) (s : State) :
    writeReg f a size v s = badAccess f s := by
  simp [writeReg, h]

theorem writeReg_readOnly {a size : Nat} (hok : accessOk a size = true) (h : readOnlyPage a = true) (v : Word64) (s : State) :
    writeReg 0 a size v s = badAccess 0 s := by
  simp [writeReg, hok, h]

theorem writeReg_accepted {f a size : Nat} (hok : accessOk a size = true) (hpage : f = 0 → readOnlyPage a = false) (v : Word64) (s : State) :
    writeReg f a size v s = if size = 4 then writeOne f a (halfWord v false) s
      else writeOne f (a + 4) (halfWord v true) (writeOne f a (halfWord v false) s) := by
  have hwritable : ¬ (f = 0 ∧ readOnlyPage a = true) := fun ⟨hf, hro⟩ => by simp [hpage hf] at hro
  simp [writeReg, hok, hwritable]

theorem writeReg_word {f a : Nat} (ha : a % 4 = 0) (hpage : f = 0 → readOnlyPage a = false) (v : Word64) (s : State) :
    writeReg f a 4 v s = writeOne f a (halfWord v false) s := by
  rw [writeReg_accepted (by simp [accessOk, ha]) hpage, if_pos rfl]

theorem writeReg_pair {f a : Nat} (ha : a % 8 = 0) (hpage : f = 0 → readOnlyPage a = false) (v : Word64) (s : State) :
    writeReg f a 8 v s = writeOne f (a + 4) (halfWord v true) (writeOne f a (halfWord v false) s) := by
  rw [writeReg_accepted (by simp [accessOk, ha]) hpage, if_neg (by decide)]

/-- The two halves of an aligned 64-bit register lie in one page. -/
theorem readOnlyPage_high {a : Nat} (ha : a % 8 = 0) : readOnlyPage (a + 4) = readOnlyPage a := by
  have hwindow : (a + 4) / 0x400000 = a / 0x400000 := by omega
  have hpair : (a + 4) / 8 = a / 8 := by omega
  have hpage : 0x10000 ≤ a + 4 ↔ 0x10000 ≤ a := by omega
  simp only [readOnlyPage, hwindow, hpair, hpage]

theorem readOnlyPage_otherPages {a : Nat} (hlo : 65536 ≤ a) (hhi : a < 0x400000) : readOnlyPage a = true := by
  have hwindow : a / 0x400000 = 0 := by omega
  simp [readOnlyPage, hwindow, hlo]

theorem writeReg_pending_inReset (f a size : Nat) (v : Word64) (s : State) :
    (writeReg f a size v s).pending = s.pending ∧ (writeReg f a size v s).mon.inReset = s.mon.inReset := by
  unfold writeReg
  repeat' split
  all_goals simp

/-- Out of reset a register write answers the state that it writes. -/
theorem exec_registerWrite {s : State} (h : Awake s) (fn : Fn) (a size : Nat) (v : Word64) :
    exec (.registerWrite fn a size v) s = .next (writeReg fn a size v s) := by
  have hnext : exec (.registerWrite fn a size v) s = .next { writeReg fn a size v s with pending := s.pending } := done_awake _ h
  rw [hnext, ← (writeReg_pending_inReset fn a size v s).1]

theorem registerWrite_yields {s t : State} (h : Awake s) {fn : Fn} {a size : Nat} {v : Word64} {P : State → Prop}
    (ht : writeReg fn a size v s = t) (hP : P t) : Yields (.registerWrite fn a size v) s P := by
  subst ht
  exact ⟨_, exec_registerWrite h fn a size v, (writeReg_pending_inReset fn a size v s).1, hP⟩

/-- A rejected write does nothing but count, once. -/
theorem rejectedWrite_yields {s : State} (h : Awake s) {fn : Fn} {a size : Nat} {v : Word64}
    (ht : writeReg fn a size v s = badAccess fn s) :
    Yields (.registerWrite fn a size v) s fun t => HostOnly s t ∧ t.counters = s.counters ∧
      fnOf t fn = { fnOf s fn with badAccess := (fnOf s fn).badAccess + 1 } :=
  registerWrite_yields h ht ⟨modFn_hostOnly _ _ s, rfl, fnOf_modFn_self _ _ s⟩

/-! ### The registers that a write reaches -/

/-- A function's first page is its own HST page, for the PF as for a VF (Table 03-3). -/
theorem writeOne_hstPage (f : Nat) {a : Nat} (ha : a < 65536) (v : Word) (s : State) : writeOne f a v s = writeHst f a v s := by
  have hbar : ¬ bar4 ≤ a := by simp only [bar4]; omega
  have hwindow : a / 0x400000 = 0 := by omega
  have hoff : a % 0x400000 = a := by omega
  by_cases hf : f = 0
  · simp [writeOne, writePf, hbar, hf, hwindow, hoff, ha]
  · simp [writeOne, hbar, hf, ha]

/-- A word written to the HST page sets what the page's row says. -/
theorem writeReg_hstPage (f : Nat) {a : Nat} (ha : a < 65536) (h4 : a % 4 = 0) (v : Word64) (s : State) :
    writeReg f a 4 v s = writeHst f a (v.extractLsb' 0 32) s := by
  have hpage : readOnlyPage a = false := by
    have hwindow : a / 0x400000 = 0 := by omega
    simp [readOnlyPage, hwindow, ha]
  rw [writeReg_word h4 fun _ => hpage, writeOne_hstPage f ha]
  rfl

/-- A word written to the HST page, where the page's row changes the function's record by `g`, changes nothing else. -/
theorem hstWrite_yields {s : State} (h : Awake s) (fn : Fn) {a : Nat} {v : Word64} (g : HstFn → HstFn) (ha : a < 65536) (h4 : a % 4 = 0)
    (hrow : writeHst fn a (v.extractLsb' 0 32) s = modFn fn g s) :
    Yields (.registerWrite fn a 4 v) s fun t => HostOnly s t ∧ fnOf t fn = g (fnOf s fn) :=
  registerWrite_yields h ((writeReg_hstPage fn ha h4 v s).trans hrow) ⟨modFn_hostOnly _ _ s, fnOf_modFn_self _ _ s⟩

/-- The address register of port p (Table 04-7). -/
theorem writeReg_portAddr (p : PortNo) (v : Word64) (s : State) :
    writeReg 0 (0x800010 + p * 65536) 4 v s = writeMac p 0x10 (v.extractLsb' 0 32) s := by
  have hp := p.isLt
  have hwindow : (0x800010 + p.val * 65536) / 0x400000 = 2 := by omega
  have hoff : (0x800010 + p.val * 65536) % 0x400000 = 0x10 + p.val * 65536 := by omega
  have hport : (0x10 + p.val * 65536) / 65536 = p.val := by omega
  have hreg : (0x10 + p.val * 65536) % 65536 = 0x10 := by omega
  have hin : 0x10 + p.val * 65536 < 0x80000 := by omega
  have hbar : ¬ bar4 ≤ 0x800010 + p.val * 65536 := by simp only [bar4]; omega
  rw [writeReg_word (by omega) fun _ => by simp [readOnlyPage, hwindow]]
  simp [writeOne, writePf, halfWord, hbar, hwindow, hoff, hport, hreg, hin]

/-- MON_TEMP_WARN takes bits 6:0 within 60 to 95, unless the operator lock is set (R475, Table 17-8). -/
theorem writeReg_tempWarn (v : Word64) (s : State) :
    writeReg 0 0x300001C 4 v s = if s.mon.opLock then s
      else setMon (fun m => { m with tempWarn := max 60 (min 95 ((v.extractLsb' 0 32).toNat % 128)) }) s := by
  rw [← clampN_eq_max_min (by decide)]
  rfl

/-- A 64-bit write is the write of its low half, then of its high half (R65). -/
theorem writeReg_halves {f a : Nat} (ha : a % 8 = 0) (hpage : f = 0 → readOnlyPage a = false) (v : Word64) (s : State) :
    writeReg f a 8 v s = writeReg f (a + 4) 4 (v >>> 32) (writeReg f a 4 v s) := by
  rw [writeReg_pair ha hpage, writeReg_word (a := a) (by omega) hpage,
    writeReg_word (by omega) fun hf => (readOnlyPage_high ha).trans (hpage hf), halfWord_shifted]

/-- Settles O21: each clause by the register that its address reaches; a rejected access by `badAccess` alone. -/
theorem registerWritesReachTheirRegister : Obligations.RegisterWritesReachTheirRegister := by
  intro fn a size v s p hawake w x
  refine ⟨fun hbad => rejectedWrite_yields hawake (writeReg_rejected hbad fn v s),
    fun hro hok => rejectedWrite_yields hawake (writeReg_readOnly hok hro v s),
    fun ha hpage => registerWrite_yields hawake rfl ?halves, ?baseLow, ?baseHigh, ?ringSel,
    fun hlo hhi ha => ?otherPages, registerWrite_yields hawake (writeReg_portAddr p v s) ?portAddr,
    registerWrite_yields hawake (writeReg_tempWarn v s) ?tempWarn⟩
  case halves =>
    have hpage' : fn.val = 0 → readOnlyPage a = false := fun h => hpage (Fin.ext h)
    have hawake' : Awake (writeReg fn a 4 v s) := (writeReg_pending_inReset fn a 4 v s).2.trans hawake
    rw [exec_registerWrite hawake, exec_registerWrite hawake', writeReg_halves ha hpage']
  case baseLow =>
    rw [← putHalf_low]
    exact hstWrite_yields hawake fn (fun p => { p with rplBase := putHalf p.rplBase false w }) (by decide) (by decide) rfl
  case baseHigh =>
    rw [← putHalf_high]
    exact hstWrite_yields hawake fn (fun p => { p with rplBase := putHalf p.rplBase true w }) (by decide) (by decide) rfl
  case ringSel =>
    have hsel : v.extractLsb' 0 14 = w.extractLsb' 0 14 := by simp [w]
    rw [hsel]
    exact hstWrite_yields hawake fn (fun p => { p with ringSel := w.extractLsb' 0 14 }) (by decide) (by decide) rfl
  case otherPages =>
    have hok : accessOk a 4 = true := by simp [accessOk, ha]
    exact registerWrite_yields hawake (writeReg_readOnly hok (readOnlyPage_otherPages hlo hhi) v s)
      ⟨modFn_hostOnly _ _ s, fun g hg => fnOf_modFn_ne (fun h => hg (Fin.ext h)) _ s⟩
  case portAddr =>
    rw [← ofNat_replaceLow 16]
    exact ⟨rfl, rfl, fun k hk => portOf_modPort_ne hk _ s, portOf_modPort_self _ _ s⟩
  case tempWarn =>
    split <;> exact ⟨rfl, rfl, rfl⟩

end Sys2Proof.Machine
end

section
/-! Key slots: what a load, a reload, an erasure and the end of a drain make of one slot, and that they leave every other one (R123, R124, R128, R138-R141). -/

namespace Sys2Proof.Machine

/-! ### One slot -/

/-- Beside slot n no slot has changed, and no leg, conference, tenant or port. -/
def OnlySlot (n : Nat) (s t : State) : Prop :=
  t.obj.legs = s.obj.legs ∧ t.obj.confs = s.obj.confs ∧ t.obj.tenants = s.obj.tenants ∧ t.ports = s.ports ∧ ∀ j, j ≠ n → slotAt t j = slotAt s j

/-- The objects and ports of t are those of s with slot n changed by f. -/
def ChangesSlot (n : Nat) (f : KeySlot → KeySlot) (s t : State) : Prop := t.obj = (updSlot n f s).obj ∧ t.ports = s.ports

/-- A change of slot n is seen there and nowhere else. -/
theorem ChangesSlot.onlySlot {n : Nat} {f : KeySlot → KeySlot} {s t : State} {k : KeySlot} (h : ChangesSlot n f s t) (hk : slotAt s n = some k) :
    OnlySlot n s t ∧ slotAt t n = some (f k) := by
  obtain ⟨hobj, hports⟩ := h
  have hself : slotAt t n = (slotAt s n).map f := by simp [slotAt, hobj, ObjTbl.at?, ObjTbl.upd, tget_tupd_self]
  have hother (j : Nat) (hj : j ≠ n) : slotAt t j = slotAt s j := by simp [slotAt, hobj, ObjTbl.at?, ObjTbl.upd, tget_tupd_ne _ _ hj]
  exact ⟨⟨by simp [hobj], by simp [hobj], by simp [hobj], hports, hother⟩, by rw [hself, hk, Option.map_some]⟩

theorem ChangesSlot.of_eq {n : Nat} {f : KeySlot → KeySlot} {s e t : State} (he : e = updSlot n f s) (hobj : t.obj = e.obj)
    (hports : t.ports = e.ports) : ChangesSlot n f s t := by
  subst he
  exact ⟨hobj, hports⟩

/-! ### How a command completes -/

/-- An admitted command completes with its effect's objects and ports. -/
theorem command_yields {i : Instr} {r : CmdRule} {c : Cmd} {s : State} {P : State → Prop} (hexec : exec i s = issue r c s) (h : Admits r c s)
    (hP : ∀ t : State, t.obj = (r.effect c s).2.obj → t.ports = (r.effect c s).2.ports → P t) : Yields i s P :=
  ⟨_, hexec.trans (issue_performs h), rfl, hP _ (by simp only [perform_fields]) (by simp only [perform_fields])⟩

/-! ### Work of a slot in the egress queues (R138) -/

/-- Packets of other slots, raw ones and encrypted ones are not encrypted for a slot. -/
theorem sealQueue_of_none_open {i : Nat} {l : List EgPkt} (h : (l.any fun p => decide (hIndex p.slot = i) && !p.raw && !p.cipher.isSome) = false)
    (s : State) : sealQueue i l s = (l, s) := by
  induction l with
  | nil => rfl
  | cons p l ih =>
    simp only [List.any_cons, Bool.or_eq_false_iff] at h
    obtain ⟨hp, hl⟩ := h
    have hclosed : ¬ (hIndex p.slot = i ∧ p.cipher = none ∧ ¬ p.raw) := by
      rintro ⟨hslot, hcipher, hraw⟩
      simp [hslot, hcipher, hraw] at hp
    rw [sealQueue, if_neg hclosed, ih hl]

/-- A slot without work has nothing to encrypt. -/
theorem sealWaiting_of_idle {s : State} {i : Nat} (h : busySlot s i = false) : sealWaiting i s = s := by
  simp only [busySlot, List.any_append, Bool.or_eq_false_iff] at h
  obtain ⟨hegress, hout⟩ := h
  simp only [sealWaiting, sealQueue_of_none_open hout, sealQueue_of_none_open hegress]

/-! ### Loads (R123, R124, R128, R132, R138, R139) -/

/-- What a load makes of a slot without a key: its index starts (R128). -/
def KeySlot.load (key : SessKey) (outbound rtcp fallback : Bool) (window : Nat) (k : KeySlot) : KeySlot := { k with
  state := .loaded, key := some key, outbound := outbound, rtcp := rtcp, fallbackFlag := fallback, window := window,
  half := false, precedence := false, retiring := none, fallback := none, spent := none, highest := 0, windows := [],
  next := startIndex key rtcp k.ssrc }

/-- What a reload makes of an idle slot at a logged time: index and windows stay, and FALLBACK keeps the old key for 2 s (R138, R139). -/
def KeySlot.reload (now : Nat) (key : SessKey) (outbound rtcp fallback : Bool) (window : Nat) (k : KeySlot) : KeySlot := { k with
  key := some key, outbound := outbound, rtcp := rtcp, fallbackFlag := fallback, window := window,
  half := false, precedence := false, retiring := none,
  fallback := if fallback then k.key.map fun y => (y, now + 2000000000) else none }

section
variable {s : State} {i : Nat} {k : KeySlot} (key : SessKey) (outbound rtcp fallback : Bool) (window : Nat)

theorem loadKey_of_not_loaded (hk : slotAt s i = some k) (hstate : k.state ≠ .loaded) :
    (loadKey i key outbound rtcp fallback window s).2 = updSlot i (KeySlot.load key outbound rtcp fallback window) s := by
  simp only [loadKey, hk, if_neg hstate]
  rfl

theorem loadKey_of_loaded_idle (hk : slotAt s i = some k) (hstate : k.state = .loaded) (hidle : busySlot s i = false) :
    (loadKey i key outbound rtcp fallback window s).2 = updSlot i (KeySlot.reload (logNs s) key outbound rtcp fallback window) s := by
  simp only [loadKey, hk, if_pos hstate, sealWaiting_of_idle hidle, hidle]
  rfl

end

/-- A command whose effect is a load: a slot without a key is loaded, and an idle one with a key is reloaded. -/
theorem loadCommand_yields {i : Instr} {r : CmdRule} {c : Cmd} {s : State} {k : KeySlot} {key : SessKey} {outbound rtcp fallback : Bool} {window n : Nat}
    (hexec : exec i s = issue r c s) (heff : r.effect c s = loadKey n key outbound rtcp fallback window s) (hk : slotAt s n = some k) (h : Admits r c s) :
    Yields i s fun t =>
      (k.state ≠ .loaded → OnlySlot n s t ∧ slotAt t n = some (k.load key outbound rtcp fallback window)) ∧
      (k.state = .loaded → busySlot s n = false → OnlySlot n s t ∧ slotAt t n = some (k.reload (logNs s) key outbound rtcp fallback window)) := by
  refine command_yields hexec h fun t hobj hports => ⟨fun hstate => ?load, fun hstate hidle => ?reload⟩
  case load =>
    have heq := heff ▸ loadKey_of_not_loaded key outbound rtcp fallback window hk hstate
    exact (ChangesSlot.of_eq heq hobj hports).onlySlot hk
  case reload =>
    have heq := heff ▸ loadKey_of_loaded_idle key outbound rtcp fallback window hk hstate hidle
    exact (ChangesSlot.of_eq heq hobj hports).onlySlot hk

/-! ### KEY_ERASE (R140) -/

/-- What the start of an erasure makes of a slot: its key retires, and the reply is owed to the command. -/
def KeySlot.beginErase (c : Cmd) (k : KeySlot) : KeySlot :=
  { k with state := .erasing, retiring := k.key, key := none, eraseOwed := some ⟨0x0602, c⟩ }

section
variable {c : Cmd} {s : State} {k : KeySlot}

theorem keyErase_of_empty (hk : slotAt s (keySlot c) = some k) (hstate : k.state = .empty) : (ruleKeyErase.effect c s).2 = s := by
  simp [ruleKeyErase, hk, hstate]

theorem keyErase_of_idle (hk : slotAt s (keySlot c) = some k) (hstate : k.state ≠ .empty) (hidle : busySlot s (keySlot c) = false) :
    (ruleKeyErase.effect c s).2 = updSlot (keySlot c) (KeySlot.beginErase c) s := by
  simp only [ruleKeyErase, hk, if_neg hstate, sealWaiting_of_idle hidle]
  rfl

end

/-! ### The ends of drains (R138, R140) -/

/-- With no waiting command and no reset asked for, nothing goes on. -/
theorem retryWaiting_of_idle {s : State} (hwaiting : s.nose.waiting = []) (hsoft : s.mon.softPending = none) : retryWaiting s = s := by
  simp [retryWaiting, hwaiting, softDue, hsoft]

@[simp] theorem writeReply_waiting (h : HeldReply) (s : State) : (writeReply h s).nose.waiting = s.nose.waiting := by
  unfold writeReply
  dsimp only
  repeat' split
  all_goals simp

/-- A reply leaves no command waiting that did not wait before. -/
theorem answer_waiting_nil {s : State} (h : s.nose.waiting = []) (op : Nat) (c : Cmd) (r : Reply) : (answer op c r s).nose.waiting = [] := by
  have hflush (t : State) : (flushReplies t).nose.waiting = t.nose.waiting := foldl_keeps (·.nose.waiting) (fun t h => writeReply_waiting h t) _ t
  unfold answer
  dsimp only
  split <;> simp [hflush, retire, h]

theorem endKeyDrain_of_retiring {s : State} {n : Nat} {k : KeySlot} (hk : slotAt s n = some k) (hstate : k.state ≠ .erasing) (hret : k.retiring ≠ none)
    (hwaiting : s.nose.waiting = []) (hsoft : s.mon.softPending = none) :
    endKeyDrain n s = updSlot n (fun k => { k with retiring := none }) s := by
  have hdrains : k.state ≠ .erasing ∧ k.retiring.isSome = true := ⟨hstate, Option.isSome_iff_ne_none.mpr hret⟩
  simp only [endKeyDrain, hk, if_pos hdrains]
  exact retryWaiting_of_idle hwaiting hsoft

theorem endKeyDrain_of_none {s : State} {n : Nat} {k : KeySlot} (hk : slotAt s n = some k) (h : k.state = .erasing ∨ k.retiring = none) :
    endKeyDrain n s = s := by
  have hdrained : ¬ (k.state ≠ .erasing ∧ k.retiring.isSome = true) := by
    rintro ⟨hstate, hret⟩
    obtain he | he := h
    · exact hstate he
    · simp [he] at hret
  simp only [endKeyDrain, hk, if_neg hdrained]

/-- The end of an erasure empties its slot; the reply that it may owe changes no object. -/
theorem endErase_of_erasing {s : State} {n : Nat} {k : KeySlot} (hk : slotAt s n = some k) (hstate : k.state = .erasing)
    (hwaiting : s.nose.waiting = []) (hsoft : s.mon.softPending = none) : ChangesSlot n emptySlot s (endErase n s) := by
  simp only [endErase, hk, if_pos hstate]
  cases k.eraseOwed with
  | none =>
    rw [retryWaiting_of_idle (s := updSlot n emptySlot s) hwaiting hsoft]
    exact ⟨rfl, rfl⟩
  | some f =>
    have hw : (answerErase f (updSlot n emptySlot s)).nose.waiting = [] := answer_waiting_nil (s := updSlot n emptySlot s) hwaiting _ _ _
    have hs : (answerErase f (updSlot n emptySlot s)).mon.softPending = none := by simpa [answerErase] using hsoft
    simp only [retryWaiting_of_idle hw hs]
    constructor <;> simp [answerErase]

theorem endErase_of_not_erasing {s : State} {n : Nat} {k : KeySlot} (hk : slotAt s n = some k) (hstate : k.state ≠ .erasing) : endErase n s = s := by
  simp only [endErase, hk, if_neg hstate]

/-- Settles O28: the loads by `loadKey` on a slot with and without a key, the other rows by the one change that each makes of its slot. -/
theorem keySlotsFollowTheirCommands : Obligations.KeySlotsFollowTheirCommands := by
  intro c s k slot i rest loaded idle
  refine ⟨fun hk => ⟨loadCommand_yields rfl rfl hk, loadCommand_yields rfl rfl hk, fun h hstate => ?noop, fun h hstate hidle => ?erase⟩,
    fun hawake hk => ⟨fun hstate hret ⟨hwaiting, hsoft⟩ => ?drainEnd, fun hdrained => ?drained, fun hstate ⟨hwaiting, hsoft⟩ => ?erased,
      fun hstate => ?notErasing, ?expiry⟩⟩
  case noop => exact command_yields rfl h fun t hobj _ => hobj.trans (by rw [keyErase_of_empty hk hstate])
  case erase =>
    refine command_yields rfl h fun t hobj hports => ?_
    obtain ⟨hrest, hslot⟩ := (ChangesSlot.of_eq (keyErase_of_idle hk hstate hidle) hobj hports).onlySlot hk
    exact ⟨hrest, _, hslot, rfl, rfl, rfl, rfl⟩
  case drainEnd =>
    refine ⟨_, done_awake _ hawake, rfl, ?_⟩
    rw [endKeyDrain_of_retiring hk hstate hret hwaiting hsoft]
    exact ChangesSlot.onlySlot ⟨rfl, rfl⟩ hk
  case drained => exact (done_awake _ hawake).trans (by rw [endKeyDrain_of_none hk hdrained])
  case erased =>
    obtain ⟨hrest, hslot⟩ := (endErase_of_erasing hk hstate hwaiting hsoft).onlySlot hk
    exact ⟨_, done_awake _ hawake, rfl, hrest, _, hslot, rfl, rfl, rfl, rfl, rfl, rfl⟩
  case notErasing => exact (done_awake _ hawake).trans (by rw [endErase_of_not_erasing hk hstate])
  case expiry => exact ⟨_, done_awake _ hawake, rfl, ChangesSlot.onlySlot ⟨rfl, rfl⟩ hk⟩

end Sys2Proof.Machine
end

section
/-! The settings of Sillage: each command sets its own fields of one leg, trunk or tenant, and leaves every other object as it was (R147, R151-R153, R169-R171). -/

namespace Sys2Proof.Machine

/-! ### How an admitted command completes -/

/-- An admitted command yields what its performance gives. -/
theorem admitted_yields {i : Instr} {r : CmdRule} {c : Cmd} {s : State} {P : State → Prop} (hexec : exec i s = issue r c s) (h : Admits r c s)
    (hP : P { perform r c s with pending := s.pending }) : Yields i s P :=
  ⟨_, hexec.trans (issue_performs h), rfl, hP⟩

/-- An admitted command leaves the objects, the ports and the time as its effect leaves them. -/
theorem admitted_effect_yields {i : Instr} {r : CmdRule} {c : Cmd} {s e : State} {P : State → Prop} (hexec : exec i s = issue r c s) (h : Admits r c s)
    (heff : (r.effect c s).2 = e) (hP : ∀ t : State, t.obj = e.obj → t.ports = e.ports → t.tim = e.tim → P t) : Yields i s P := by
  subst heff
  exact admitted_yields hexec h (hP _ (by simp only [perform_fields]) (by simp only [perform_fields]) (by simp only [perform_fields]))

/-! ### One object replaced -/

section
variable {α : Type}

@[simp] theorem at?_upd_self (t : ObjTbl α) (i : Nat) (f : α → α) : (t.upd i f).at? i = (t.at? i).map f := tget_tupd_self t.live i f

theorem at?_upd_ne (t : ObjTbl α) {i j : Nat} (f : α → α) (h : j ≠ i) : (t.upd i f).at? j = t.at? j := tget_tupd_ne t.live f h

theorem tupd_tupd (t : Tbl α) (n : Nat) (f g : α → α) : tupd (tupd t n f) n g = tupd t n (g ∘ f) := by
  induction t with
  | nil => rfl
  | cons kv r ih =>
    obtain ⟨k, v⟩ := kv
    by_cases h : n = k <;> simp [tupd, h, ih]

end

/-- Two changes of one leg are one. -/
theorem updLeg_updLeg (i : Nat) (f g : Leg → Leg) (s : State) : updLeg i g (updLeg i f s) = updLeg i (g ∘ f) s := by
  simp [updLeg, setLegs, ObjTbl.upd, tupd_tupd]

/-- What no setting of Sillage changes. -/
def KeepsRest (s t : State) : Prop :=
  t.obj.confs = s.obj.confs ∧ t.obj.ins = s.obj.ins ∧ t.obj.outs = s.obj.outs ∧ t.ports = s.ports ∧ t.tim = s.tim

/-- Leg i is l in t, and every other object is as in s. -/
def SetsLeg (i : Nat) (l : Leg) (s t : State) : Prop :=
  KeepsRest s t ∧ t.obj.tenants = s.obj.tenants ∧ t.obj.trunks = s.obj.trunks ∧ t.obj.legs.at? i = some l ∧
    ∀ j, j ≠ i → t.obj.legs.at? j = s.obj.legs.at? j

/-- Tenant i is n in t, and every other object is as in s. -/
def SetsTenant (i : Nat) (n : Tenant) (s t : State) : Prop :=
  KeepsRest s t ∧ t.obj.legs = s.obj.legs ∧ t.obj.trunks = s.obj.trunks ∧ t.obj.tenants.at? i = some n ∧
    ∀ j, j ≠ i → t.obj.tenants.at? j = s.obj.tenants.at? j

section
variable {o : Instr} {r : CmdRule} {c : Cmd} {s : State} {i : Nat}

/-- An admitted command whose effect changes one leg sets that leg alone. -/
theorem legCommand_yields {l : Leg} {f : Leg → Leg} (hexec : exec o s = issue r c s) (h : Admits r c s) (hl : s.obj.legs.at? i = some l)
    (heff : (r.effect c s).2 = updLeg i f s) : Yields o s (SetsLeg i (f l) s) :=
  admitted_effect_yields hexec h heff fun t hobj hports htim => by
    rw [SetsLeg, KeepsRest, hobj, hports, htim]
    exact ⟨⟨rfl, rfl, rfl, rfl, rfl⟩, rfl, rfl, by simp [hl], fun j hj => at?_upd_ne _ _ hj⟩

/-- An admitted command whose effect changes one tenant sets that tenant alone. -/
theorem tenantCommand_yields {n : Tenant} {f : Tenant → Tenant} (hexec : exec o s = issue r c s) (h : Admits r c s) (hn : s.obj.tenants.at? i = some n)
    (heff : (r.effect c s).2 = updTenant i f s) : Yields o s (SetsTenant i (f n) s) :=
  admitted_effect_yields hexec h heff fun t hobj hports htim => by
    rw [SetsTenant, KeepsRest, hobj, hports, htim]
    exact ⟨⟨rfl, rfl, rfl, rfl, rfl⟩, rfl, rfl, by simp [hn], fun j hj => at?_upd_ne _ _ hj⟩

/-- An admitted command whose effect changes one trunk changes no leg and no tenant. -/
theorem trunkCommand_yields {x : Trunk} {f : Trunk → Trunk} (hexec : exec o s = issue r c s) (h : Admits r c s) (hx : s.obj.trunks.at? i = some x)
    (heff : (r.effect c s).2 = updTrunk i f s) :
    Yields o s fun t => KeepsRest s t ∧ t.obj.legs = s.obj.legs ∧ t.obj.tenants = s.obj.tenants ∧ t.obj.trunks.at? i = some (f x) :=
  admitted_effect_yields hexec h heff fun t hobj hports htim => by
    rw [KeepsRest, hobj, hports, htim]
    exact ⟨⟨rfl, rfl, rfl, rfl, rfl⟩, rfl, rfl, by simp [hx]⟩

end

/-! ### Policers (R147, R152) -/

/-- The parameters that POLICER_SET writes into a meter (Table 06-1). -/
def PolicedBy (c : Cmd) (m : Meter) : Prop :=
  (m.tr = true ↔ c.u8 16 = 1) ∧ (m.aware = true ↔ c.u8 17 = 1) ∧ m.cir = c.u32 20 ∧ m.cbs = c.u32 24 ∧ m.pir = c.u32 28 ∧ m.pbs = c.u32 32

theorem newMeter_policedBy (c : Cmd) (now : Nat) : PolicedBy c (newMeter c 16 now) :=
  ⟨decide_eq_true_iff, decide_eq_true_iff, rfl, rfl, rfl, rfl⟩

theorem changeMeter_policedBy (c : Cmd) (m : Meter) : PolicedBy c (changeMeter c 16 m) :=
  ⟨decide_eq_true_iff, decide_eq_true_iff, rfl, rfl, rfl, rfl⟩

theorem ite_lt_eq_min (a b : Nat) : (if a < b then a else b) = min a b := by
  split <;> omega

/-- A changed meter keeps its time and clips its buckets. -/
theorem changeMeter_buckets (c : Cmd) (b : Nat) (m : Meter) :
    (changeMeter c b m).last = m.last ∧ (changeMeter c b m).tc = min m.tc (c.u32 (b + 8) * 8000000) ∧
    (changeMeter c b m).tx = min m.tx (c.u32 (b + 16) * 8000000) :=
  ⟨rfl, ite_lt_eq_min _ _, ite_lt_eq_min _ _⟩

/-- The meter that POLICER_SET gives a tenant: its own one changed, or a first one with full buckets. -/
def tenantMeter (c : Cmd) (now : Nat) : Option Meter → Meter
  | some m => changeMeter c 16 m
  | none => newMeter c 16 now

theorem tenantMeter_policedBy (c : Cmd) (now : Nat) (m : Option Meter) : PolicedBy c (tenantMeter c now m) := by
  cases m with
  | some m => exact changeMeter_policedBy c m
  | none => exact newMeter_policedBy c now

theorem setPolicer_leg {c : Cmd} (h : hType c.object = tyLeg) (s : State) :
    setPolicer c s = updLeg (hIndex c.object) (fun l => { l with meter := changeMeter c 16 l.meter }) s := if_pos h

theorem setPolicer_tenant {c : Cmd} (h : hType c.object = tyTenant) (s : State) :
    setPolicer c s = updTenant (hIndex c.object) (fun n => { n with meter := some (tenantMeter c (logNs s) n.meter) }) s := by
  have hleg : hType c.object ≠ tyLeg := by rw [h]; decide
  rw [setPolicer, if_neg hleg]
  rfl

/-! ### Shapers (R170, R171) -/

/-- What SHAPER_SET makes of a shaper that stands as it does now. -/
def Shaper.set (c : Cmd) (h : Shaper) : Shaper :=
  { h with rate := some (c.u32 16), burst := c.u32 20, credit := min h.credit ((c.u32 20 * 8000000 : Nat) : Int) }

/-- SHAPER_SET first takes the credit that the shaper has earned, so the leg's new shaper is made of the shaper as it stands now. -/
theorem shaperSet_effect {c : Cmd} {s : State} {h : Shaper} (hnow : shaperNow s false (hIndex c.object) = some h) :
    (ruleShaperSet.effect c s).2 = updLeg (hIndex c.object) (fun l => { l with shaper := h.set c }) s := by
  have hrefill : refillShaper false (hIndex c.object) s = updLeg (hIndex c.object) (fun l => { l with shaper := h }) s := by
    simp [refillShaper, hnow, modShaper]
  have hcap (a b : Int) : (if b < a then b else a) = min a b := by split <;> omega
  simp only [ruleShaperSet, legIdx, hrefill, updLeg_updLeg, hcap, Shaper.set]
  rfl

/-! ### Weights (R169) -/

section
variable {c : Cmd} (s : State)

theorem schedWeightSet_effect_leg (h : hType c.object = tyLeg) :
    (ruleSchedWeightSet.effect c s).2 = updLeg (hIndex c.object) (fun l => { l with weight := c.u16 16 }) s := if_pos h

theorem schedWeightSet_effect_trunk (h : hType c.object = tyTrunk) :
    (ruleSchedWeightSet.effect c s).2 = updTrunk (hIndex c.object) (fun x => { x with weight := c.u16 16 }) s := by
  have hleg : hType c.object ≠ tyLeg := by rw [h]; decide
  exact (if_neg hleg).trans (if_pos h)

theorem schedWeightSet_effect_tenant (h : hType c.object = tyTenant) :
    (ruleSchedWeightSet.effect c s).2 = updTenant (hIndex c.object) (fun n => { n with weight := c.u16 16 }) s := by
  have hleg : hType c.object ≠ tyLeg := by rw [h]; decide
  have htrunk : hType c.object ≠ tyTrunk := by rw [h]; decide
  exact (if_neg hleg).trans (if_neg htrunk)

end

/-! ### DSCP maps (R151) -/

/-- A table of the nonzero values of `f` on the n keys from k reads `f` there, and 0 elsewhere. -/
theorem tgetD_nonzeros (f : Nat → Nat) (k n d : Nat) :
    tgetD (((List.range' k n).map fun i => (i, f i)).filter fun kv => decide (kv.2 ≠ 0)) d 0 = if k ≤ d ∧ d < k + n then f d else 0 := by
  induction n generalizing k with
  | zero =>
    rw [if_neg (by omega)]
    rfl
  | succ n ih =>
    rw [List.range'_succ, List.map_cons, List.filter_cons]
    by_cases hzero : f k = 0
    · rw [if_neg (by simp [hzero]), ih]
      by_cases hd : d = k
      · simp [hd, hzero]
      · congr 1
        exact propext (by omega)
    · rw [if_pos (by simp [hzero])]
      rcases Nat.lt_trichotomy d k with hlt | rfl | hgt
      · rw [if_neg (by omega)]
        simp [tgetD, tget, hlt, Nat.ne_of_lt hlt]
      · simp [tgetD, tget]
      · have hskip : ∀ (v : Nat) (r : Tbl Nat), tgetD ((k, v) :: r) d 0 = tgetD r d 0 := fun v r => by
          simp [tgetD, tget, Nat.ne_of_gt hgt, Nat.not_lt_of_gt hgt]
        rw [hskip, ih]
        congr 1
        exact propext (by omega)

theorem mapAt_reads (c : Cmd) {d : Nat} (h : d < 64) : tgetD (mapAt c) d 0 = c.u8 (64 + d) := by
  rw [mapAt, List.range_eq_range', tgetD_nonzeros, if_pos (by omega)]

/-- Settles O36: each command's effect is one change of its object, and the change is read off. -/
theorem sillageSettingsAreSet : Obligations.SillageSettingsAreSet := by
  intro c s l x n i same isLeg isTenant isMeter
  refine ⟨fun hl htype => ⟨fun h => ?legPolicer, fun sh hnow h => ?shaper, fun h => legCommand_yields rfl h hl rfl, fun h => ?legWeight⟩,
    fun hx htype h => ?trunkWeight, fun hn htype => ⟨fun h => ?tenantPolicer, fun h => ?tenantWeight, fun h => ?dscpMap⟩⟩
  case legPolicer =>
    obtain ⟨t, hnext, hpending, hsets⟩ := legCommand_yields (o := .policerSet c) rfl h hl (setPolicer_leg htype s)
    obtain ⟨hlast, htc, htx⟩ := changeMeter_buckets c 16 l.meter
    exact ⟨t, hnext, hpending, _, hsets, changeMeter_policedBy c l.meter, hlast, htc, htx⟩
  case shaper => exact legCommand_yields rfl h hl (shaperSet_effect hnow)
  case legWeight => exact legCommand_yields rfl h hl (schedWeightSet_effect_leg s htype)
  case trunkWeight => exact trunkCommand_yields rfl h hx (schedWeightSet_effect_trunk s htype)
  case tenantPolicer =>
    obtain ⟨t, hnext, hpending, hsets⟩ := tenantCommand_yields (o := .policerSet c) rfl h hn (setPolicer_tenant htype s)
    exact ⟨t, hnext, hpending, _, hsets, tenantMeter_policedBy c (logNs s) n.meter⟩
  case tenantWeight => exact tenantCommand_yields rfl h hn (schedWeightSet_effect_tenant s htype)
  case dscpMap =>
    obtain ⟨t, hnext, hpending, hsets⟩ := tenantCommand_yields (o := .dscpMapSet c) rfl h hn rfl
    exact ⟨t, hnext, hpending, _, hsets, fun d hd => mapAt_reads c hd⟩

end Sys2Proof.Machine
end

section
/-! Gate schedules: what GATE_SET, the switch, an instant and the audio override make of one port, and that they leave every other one (R172-R176). -/

namespace Sys2Proof.Machine

/-! ### Checks that passed (R82) -/

theorem firstFail_eq_none {l : List Check} : firstFail l = none ↔ ∀ x ∈ l, x = none := by
  induction l with
  | nil => simp [firstFail]
  | cons x l ih => cases x <;> simp [firstFail, ih]

/-- A command that passes every check passes those of its fields. -/
theorem Admits.fields_pass {r : CmdRule} {c : Cmd} {s : State} (h : Admits r c s) {x : Check} (hx : x ∈ r.fields c s) : x = none := by
  obtain ⟨-, -, hpass, -⟩ := h
  have hbody : bodyCheck r c s = none := firstFail_eq_none.mp hpass _ (by simp)
  exact firstFail_eq_none.mp hbody x (by simp [hx])

theorem rangeAt_eq_none {c : Cmd} {off n lo hi : Nat} (h : rangeAt c off n lo hi = none) : lo ≤ c.u off n ∧ c.u off n ≤ hi := by
  simpa [rangeAt, failIf] using h

/-! ### When a schedule starts (R174) -/

/-- The first instant from `t` on at which a cycle begins. -/
def cycleStart (base period t : Nat) : Nat := if t ≤ base then base else base + ceilDiv (t - base) period * period

theorem base_le_cycleStart (base period t : Nat) : base ≤ cycleStart base period t := by
  unfold cycleStart
  split <;> omega

theorem cycleStart_aligned (base period t : Nat) : (cycleStart base period t - base) % period = 0 := by
  unfold cycleStart
  split <;> simp

/-- Division rounding up covers its dividend. -/
theorem le_ceilDiv_mul {b : Nat} (hb : 0 < b) (a : Nat) : a ≤ ceilDiv a b * b := by
  have hsplit := Nat.div_add_mod (a + b - 1) b
  have hrem := Nat.mod_lt (a + b - 1) hb
  rw [Nat.mul_comm] at hsplit
  rw [ceilDiv]
  omega

theorem le_cycleStart {period : Nat} (hperiod : 0 < period) (base t : Nat) : t ≤ cycleStart base period t := by
  unfold cycleStart
  split
  · assumption
  · have hcover := le_ceilDiv_mul hperiod (t - base)
    omega

/-- The earliest start of a new schedule: the end of the running cycle, or 100 µs on where that is later. -/
def earliestStart (x : Port) (now : Nat) : Nat := max (x.gatePlan.elim now (·.cycleEnd now)) (now + 100000)

/-- The schedule of GATE_SET has the modes of its command; without entries, which opens all gates, it starts at its earliest, and with entries it
starts with a cycle of its own. -/
theorem gatePlanOf_eq (c : Cmd) (s : State) :
    let g := gatePlanOf c s
    let first := earliestStart (portOf s (c.u8 16)) (nowNs s)
    (g.mode = true ↔ c.u8 17 = 1) ∧ (g.fixed = true ↔ c.u8 18 = 1) ∧
    (c.u16 36 = 0 → g.entries = [] ∧ g.start = first) ∧
    (c.u16 36 ≠ 0 → g.base = c.u64 24 ∧ g.period = c.u32 32 ∧ g.entries = gateEntries (c.data.getD []) ∧
      g.start = cycleStart (c.u64 24) (c.u32 32) first) := by
  have hmax (a b : Nat) : (if a < b then b else a) = max a b := by split <;> omega
  by_cases hopen : c.u16 36 = 0
  · cases hplan : (portOf s (c.u8 16)).gatePlan <;> simp [gatePlanOf, hplan, hopen, earliestStart, hmax]
  · cases hplan : (portOf s (c.u8 16)).gatePlan <;> simp [gatePlanOf, hplan, hopen, earliestStart, cycleStart, hmax]

/-- A new schedule starts at least 100 µs on. -/
theorem gatePlanOf_start_ge {c : Cmd} (s : State) (hperiod : c.u16 36 ≠ 0 → 0 < c.u32 32) : nowNs s + 100000 ≤ (gatePlanOf c s).start := by
  obtain ⟨-, -, hopen, hcyclic⟩ := gatePlanOf_eq c s
  have hfirst : nowNs s + 100000 ≤ earliestStart (portOf s (c.u8 16)) (nowNs s) := Nat.le_max_right _ _
  by_cases h : c.u16 36 = 0
  · rw [(hopen h).2]
    exact hfirst
  · obtain ⟨-, -, -, hstart⟩ := hcyclic h
    rw [hstart]
    exact Nat.le_trans hfirst (le_cycleStart (hperiod h) _ _)

/-- An admitted GATE_SET with entries has a period (R173). -/
theorem gateSet_period_pos {c : Cmd} {s : State} (h : Admits ruleGateSet c s) (hn : c.u16 36 ≠ 0) : 0 < c.u32 32 := by
  have hrange : rangeAt c 32 4 1000 1000000000 = none := h.fields_pass (by simp [ruleGateSet, hn])
  exact Nat.lt_of_lt_of_le (by decide) (rangeAt_eq_none hrange).1

/-! ### One port replaced -/

/-- Port p of t is that of s changed by f; every other port, the objects and the time are as in s. -/
def OnlyPort (p : Nat) (f : Port → Port) (s t : State) : Prop :=
  (t.obj = s.obj ∧ t.tim = s.tim ∧ ∀ j, j ≠ p → portOf t j = portOf s j) ∧ portOf t p = f (portOf s p)

theorem modPort_onlyPort (p : Nat) (f : Port → Port) (s : State) : OnlyPort p f s (modPort p f s) :=
  ⟨⟨rfl, rfl, fun _ hj => portOf_modPort_ne hj f s⟩, portOf_modPort_self p f s⟩

/-- A row that changes one port, out of reset. -/
theorem portRow_yields {o : Instr} {s : State} {p : Nat} {f : Port → Port} (h : Awake s) (hexec : exec o s = done s (modPort p f s)) :
    Yields o s (OnlyPort p f s) :=
  ⟨_, hexec.trans (done_awake _ h), rfl, modPort_onlyPort p f s⟩

@[simp] theorem portOf_perform (r : CmdRule) (c : Cmd) (s : State) (p : Nat) : portOf (perform r c s) p = portOf (r.effect c s).2 p := by
  simp only [portOf, perform_fields, perform_mon]
  split <;> rfl

/-- An admitted GATE_SET makes its schedule the one that waits at its port. -/
theorem gateSet_yields {c : Cmd} {s : State} (h : Admits ruleGateSet c s) :
    Yields (.gateSet c) s (OnlyPort (c.u8 16) (fun x => { x with gateNext := some (gatePlanOf c s) }) s) := by
  obtain ⟨⟨hobj, htim, hother⟩, hport⟩ := modPort_onlyPort (c.u8 16) (fun x => { x with gateNext := some (gatePlanOf c s) }) s
  refine admitted_yields rfl h ⟨⟨?obj, ?tim, fun j hj => ?other⟩, ?port⟩
  case obj =>
    simp only [perform_fields]
    exact hobj
  case tim =>
    simp only [perform_fields]
    exact htim
  case other => exact (portOf_perform ruleGateSet c s j).trans (hother j hj)
  case port => exact (portOf_perform ruleGateSet c s _).trans hport

/-! ### The switch (R174) -/

theorem switchGates_of_none {s : State} {p : Nat} (h : (portOf s p).gateNext = none) : switchGates p s = s := by
  simp only [switchGates, h]

theorem switchGates_of_some {s : State} {p : Nat} {g : GatePlan} (h : (portOf s p).gateNext = some g) :
    switchGates p s = modPort p (fun x => { x with gatePlan := some g, gateNext := none, gates := g.openAt g.start }) s := by
  simp only [switchGates, h]

/-! ### The audio override (R176) -/

@[simp] theorem portOf_postPrecedence (x y z : Nat) (b : Bool) (s : State) (p : Nat) : portOf (postPrecedence x y z b s) p = portOf s p := by
  simp [portOf]

/-- The first audio packet of a leg that its gate still binds. -/
def gatedAudio (leg : Nat) (s : State) : Option EgPkt :=
  s.media.egress.find? fun p => !p.onTrunk && decide (p.owner = leg) && decide (p.cls = .audio) && !p.overGate

section
variable {s : State} {leg : Nat} {q : EgPkt}

theorem overrideGate_of_early (hq : gatedAudio leg s = some q) (h : nowNs s ≤ q.born + 10000000) : overrideGate leg s = s := by
  rw [gatedAudio] at hq
  simp only [overrideGate, hq, h, true_or, if_true]

/-- A packet that waited too long for its gate alone is freed of it; only the time of its port's event may change besides. -/
theorem overrideGate_of_late (hq : gatedAudio leg s = some q) (hlate : q.born + 10000000 < nowNs s) (hgate : gateAdmits s q = false)
    (helig : eligible s { q with overGate := true } = true) (hdrives : drivesPorts s = true) :
    let t := overrideGate leg s
    (t.obj = s.obj ∧ t.tim = s.tim ∧ ∀ j, j ≠ q.port.val → portOf t j = portOf s j) ∧
    t.media = { s.media with egress := s.media.egress.map fun x => if x.same q then { x with overGate := true } else x } := by
  have hbound : ¬ (nowNs s ≤ q.born + 10000000 ∨ gateAdmits s q ∨ ¬ eligible s { q with overGate := true } ∨ ¬ drivesPorts s) := by
    simp [hlate, hgate, helig, hdrives]
  rw [gatedAudio] at hq
  simp only [overrideGate, hq, if_neg hbound]
  split
  · refine ⟨⟨by simp, by simp, fun j hj => ?_⟩, by simp⟩
    rw [portOf_postPrecedence, portOf_modPort_ne hj]
    rfl
  · exact ⟨⟨rfl, rfl, fun _ _ => rfl⟩, rfl⟩

end

/-- Settles O37: GATE_SET by the schedule that it makes, each row by the one port that it changes. -/
theorem gatesFollowTheirSchedule : Obligations.GatesFollowTheirSchedule := by
  intro c s p g leg q others n
  refine ⟨fun h => ?gateSet, fun hawake => ⟨fun hnone => ?noSwitch, fun hsome => ?switch, ?instant,
    fun hq => ⟨fun hlate hgate helig hdrives => ?freed, fun hearly => ?early⟩⟩⟩
  case gateSet =>
    obtain ⟨t, hnext, hpending, hothers, hport⟩ := gateSet_yields h
    obtain ⟨hmode, hfixed, hopen, hcyclic⟩ := gatePlanOf_eq c s
    refine ⟨t, hnext, hpending, hothers, _, hport, gatePlanOf_start_ge s (gateSet_period_pos h), hmode, hfixed, fun h0 => (hopen h0).1, fun h0 => ?_⟩
    obtain ⟨hbase, hperiod, hentries, hstart⟩ := hcyclic h0
    rw [hbase, hperiod, hstart]
    exact ⟨rfl, rfl, hentries, base_le_cycleStart _ _ _, cycleStart_aligned _ _ _⟩
  case noSwitch => exact (done_awake _ hawake).trans (by rw [switchGates_of_none hnone])
  case switch => exact portRow_yields (o := .gateScheduleSwitch p) hawake (congrArg (done s) (switchGates_of_some hsome))
  case instant => exact portRow_yields (f := fun x => { x with gates := x.gatesAt (nowNs s) }) hawake rfl
  case freed => exact ⟨_, done_awake _ hawake, rfl, overrideGate_of_late hq hlate hgate helig hdrives⟩
  case early => exact (done_awake _ hawake).trans (by rw [overrideGate_of_early hq hearly])

end Sys2Proof.Machine
end

section
/-! Why DECODE_PICTURE does not always complete its picture (R384, R385). Table 14-1 gives SEQ 32 bits, and `seqBefore` compares modulo 2^32, but the model
keeps SEQ as a number without that bound and `Workable` does not add it. Two SEQs that are 2^32 apart each come before the other, so that a task which
`Workable` calls the oldest of its flow is held back all the same. -/

namespace Sys2Proof.Machine

/-! ### A flow that has nothing to release -/

/-- An ordered task is held back while its flow has a task before it (R384). -/
theorem releasable_eq_false_of_before {s : State} {f : Nat} {t : Task} {kt : Nat × Task} (hordered : t.ordered = true) (hkt : kt ∈ s.orgue.tasks)
    (hflow : kt.2.flow = f) (hbefore : seqBefore kt.2.seq t.seq = true) : releasable s f t = false := by
  have hany : (s.orgue.tasks.any fun kt => decide (kt.2.flow = f) && seqBefore kt.2.seq t.seq) = true :=
    List.any_eq_true.mpr ⟨kt, hkt, by simp [hflow, hbefore]⟩
  simp [releasable, hordered, hany]

theorem nextRelease_eq_none {s : State} {f : Nat} (h : ∀ kt ∈ s.orgue.tasks, releasable s f kt.2 = false) : nextRelease s f = none := by
  have hnone : tfilter s.orgue.tasks (fun _ t => releasable s f t) = [] := List.filter_eq_nil_iff.mpr fun kt hkt => by simp [h kt hkt]
  rw [nextRelease, hnone]
  rfl

theorem releaseFlow_of_none {s : State} {f : Nat} (h : nextRelease s f = none) (fuel : Nat) : releaseFlow f fuel s = s := by
  cases fuel <;> simp [releaseFlow, h]

/-! ### A source whose decode task is held back -/

/-- SEQ order holds both ways between numbers that are 2^32 apart. -/
theorem seqBefore_both_ways : seqBefore 0 (2 ^ 32) = true ∧ seqBefore (2 ^ 32) 0 = true := by decide

/-- The ready decode task of source 0, on flow 0. -/
def readyDecode : Task :=
  { flags := 1, mask := 1, prio := 28, kind := .decode, cluster := 0, flow := 0, ordered := true, seq := 0, audio := false, empty := false, dependants := [],
    writes := [], stage := 1, num := 1, job := some { work := .decode 0 } }

/-- A task of the same flow that still waits, its SEQ beyond 32 bits. -/
def waitingBeyond : Task := { readyDecode with flags := 0, seq := 2 ^ 32, stage := 0, num := 2, waits := [3] }

def heldDecoder : DecCtx :=
  { index := 0, home := 0, rate := 0, charge := 2000, granules := 0, bufs := [{ freshBuf with st := .short, task := some 1 }], state := .clean, note := 0,
    bucket := 0, last := 0 }

def heldSource : InStream :=
  { tenant := 0, owner := 0, onTrunk := false, route := none, audio := none, encs := [{ ssrc := 0x12, note := 0 }], dec := some heldDecoder,
    decl := { outbound := false, kind := 1, pt := 96, rtxPt := 0, slot := 0, form := 0, layers := [], ssrcs := [0x12], rtx := [], fec := 0, rtxSlot := 0,
              fecSlot := 0, sizes := [], block := [] } }

/-- Source 0 on a device out of reset, with its two decode tasks in slots 0 and 1. -/
def heldFlow : State :=
  { mon := { inReset := false }
    obj := { ins := { live := [(0, heldSource)], fresh := 1 } }
    orgue := { tasks := [(0, readyDecode), (1, waitingBeyond)], owners := [(0, objRef 4 0)], ready := [0], fresh := 2, used := 2, plain := 2, born := 3 } }

/-- An engine has run the ready task, and the collector has taken its completion (R390). -/
def heldCollected : State :=
  setTask 0 { readyDecode with stage := 4 } { heldFlow with orgue := { heldFlow.orgue with ready := [] } }

theorem heldFlow_workable : Workable heldFlow (objRef 4 0) (fun q => decide (q.tick = 0)) 0 0 readyDecode := by
  refine ⟨rfl, rfl, by decide +kernel, by simp [heldFlow], fun kt hkt hother _ => ?_, rfl, rfl, rfl, rfl, rfl⟩
  obtain rfl | rfl : kt = (0, readyDecode) ∨ kt = (1, waitingBeyond) := by simpa [heldFlow] using hkt
  · exact absurd rfl hother
  · exact ⟨seqBefore_both_ways.1, by decide⟩

theorem heldCollected_tasks : heldCollected.orgue.tasks = [(0, { readyDecode with stage := 4 }), (1, waitingBeyond)] := rfl

/-- The collected task waits for the other one, and the other one has not run. -/
theorem heldCollected_releases_nothing : nextRelease heldCollected 0 = none := by
  refine nextRelease_eq_none fun kt hkt => ?_
  obtain rfl | rfl : kt = (0, { readyDecode with stage := 4 }) ∨ kt = (1, waitingBeyond) := by simpa [heldCollected_tasks] using hkt
  · exact releasable_eq_false_of_before (kt := (1, waitingBeyond)) rfl (by simp [heldCollected_tasks]) rfl seqBefore_both_ways.2
  · rfl

theorem decodePicture_heldFlow : exec (.decodePicture 0 0) heldFlow = .next heldCollected := by
  have hrun : runWork (objRef 4 0) (fun q => decide (q.tick = 0)) heldFlow = afterRelease (releaseFlow 0 3 heldCollected) := rfl
  have hexec : exec (.decodePicture 0 0) heldFlow = done heldFlow (runWork (objRef 4 0) (fun q => decide (q.tick = 0)) heldFlow) := rfl
  rw [hexec, hrun, releaseFlow_of_none heldCollected_releases_nothing]
  rfl

/-- Refutes O34: DECODE_PICTURE runs the task of `heldFlow`, and the task stays in slot 0, since one whose SEQ is 2^32 higher counts as before it. -/
theorem not_sourcesAreDecodedAndAskedAgain : ¬ Obligations.SourcesAreDecodedAndAskedAgain := by
  intro h
  obtain ⟨-, hdecode, -⟩ := h heldFlow 0 0 0 heldSource heldDecoder { ssrc := 0x12, note := 0 } { ssrc := 0x12, note := 0 } rfl rfl
  obtain ⟨u, hnext, -, -, ⟨hgone, -⟩, -⟩ := hdecode 0 0 readyDecode { work := .decode 0 } heldFlow_workable rfl rfl
  obtain rfl : u = heldCollected := Host.Outcome.next.inj (hnext.symm.trans decodePicture_heldFlow)
  simp [heldCollected_tasks, tget] at hgone

end Sys2Proof.Machine
end

section
/-! Why LAYOUT_DESTROY does not always leave every other layout as it was (R24, R215). A table's keys strictly rise, but `Tbl` is a plain list and the statement does
not ask for it. A read stops at the first key above the one it looks for, so that a layout listed after a higher key is not seen until that key is deleted; with
rising keys `tget_tdel_ne` rules this out. -/

namespace Sys2Proof.Machine

/-! ### A table whose keys do not rise -/

/-- An entry that stands behind a higher key is not read. -/
theorem tget_behind_higher {α : Type} {k n : Nat} (h : n < k) (a b : α) : tget [(k, a), (n, b)] n = none := by
  simp [tget, h, Nat.ne_of_lt h]

/-- Deleting the higher key brings the entry behind it to light. -/
theorem tget_tdel_higher {α : Type} {k n : Nat} (h : n < k) (a b : α) : tget (tdel [(k, a), (n, b)] k) n = some b := by
  simp [tget, tdel, Nat.ne_of_gt h]

/-! ### A layout behind another one -/

/-- A fill layer over the whole canvas, with a flip that waits for fence 1. -/
def fencedLayer : Layer :=
  { kind := 3, z := 0, isStatic := false, fit := 0, alpha := 255, x := 0, y := 0, w := 128, h := 128, bank := 0, fmt := 0, source := 0, rank := 0,
    fill := (512, 512, 512), imgW := 0, imgH := 0, content := none, pending := some { fence := 1, miss := 0, content := [] } }

def fencedLayout : Layout :=
  { tenant := 0, conf := 0, w := 128, h := 128, rate := 30, tenBit := false, excl := false, background := (0, 512, 512), emptyFill := (0, 512, 512),
    fenceLimit := 100, exclLeg := 0, layers := [fencedLayer], signalled := [], timedOut := [], home := 0, reserved := 0, content := 0, output := none,
    changed := true }

def composingConf : Conf :=
  { tenant := 0, closing := false, mode := 2, talkerLimit := 8, legLimit := 100, image := 0, globalId := none }

/-- A device in full service whose layout table lists layout 1 before layout 0. -/
def hiddenLayout : State :=
  { mon := { inReset := false }
    nose := { service := .full }
    obj := { confs := { live := [(0, composingConf)], fresh := 1 }
             layouts := { live := [(1, fencedLayout), (0, fencedLayout)], fresh := 2 } } }

/-- LAYOUT_DESTROY of layout 1. -/
def destroyLayout1 : Cmd :=
  { fn := 0, ring := 1, index := 0, dw0 := 0, tag := 0, plen := 0, object := mkHandle 0 tyLayout 1 1, params := List.replicate 48 0, ext := none,
    data := none }

theorem destroyLayout1_admitted : Admits ruleLayoutDestroy destroyLayout1 hiddenLayout := by
  have hpass : fullCheck ruleLayoutDestroy destroyLayout1 hiddenLayout = none := by decide +kernel
  exact ⟨rfl, rfl, hpass, rfl, rfl, fun _ => rfl⟩

theorem destroyLayout1_live :
    (ruleLayoutDestroy.effect destroyLayout1 hiddenLayout).2.obj.layouts.live = tdel hiddenLayout.obj.layouts.live 1 := by
  decide +kernel

/-- Refutes O33: LAYOUT_DESTROY of layout 1 in `hiddenLayout` brings layout 0 to light, which was not in use before. -/
theorem not_layoutCommandsActOnTheirObject : ¬ Obligations.LayoutCommandsActOnTheirObject := by
  intro h
  obtain ⟨-, -, -, hdestroy, -⟩ :=
    h destroyLayout1 hiddenLayout fencedLayout fencedLayer { fence := 1, miss := 0, content := [] } 0 0 composingConf
  obtain ⟨t, hnext, -, -, -, hothers⟩ := hdestroy destroyLayout1_admitted
  have ht : t = { perform ruleLayoutDestroy destroyLayout1 hiddenLayout with pending := hiddenLayout.pending } :=
    Host.Outcome.next.inj (hnext.symm.trans (issue_performs destroyLayout1_admitted))
  have hlive : t.obj.layouts.live = tdel hiddenLayout.obj.layouts.live 1 := by
    rw [ht]
    simp only [perform_fields, destroyLayout1_live]
  have hbefore : hiddenLayout.obj.layouts.at? 0 = none := tget_behind_higher Nat.one_pos _ _
  have hafter : t.obj.layouts.at? 0 = some fencedLayout := by
    rw [ObjTbl.at?, hlive]
    exact tget_tdel_higher Nat.one_pos _ _
  have hsame : t.obj.layouts.at? 0 = hiddenLayout.obj.layouts.at? 0 := hothers 0 (by decide +kernel)
  simp [hafter, hbefore] at hsame

end Sys2Proof.Machine
end

section
/-! Why TILE_SCALING does not always complete its scaling (R384, R385): as with DECODE_PICTURE, a task of the same flow whose SEQ is 2^32 higher comes before the
ready one as well as after it, and holds its release back. -/

namespace Sys2Proof.Machine

/-! ### A workable task that its flow does not release -/

/-- An engine has run the ready task in a slot, and the collector has taken its completion (R382, R390). -/
def collected (slot : Nat) (t : Task) (s : State) : State :=
  setTask slot { t with stage := 4 } { s with orgue := { s.orgue with ready := s.orgue.ready.filter (· != slot) } }

theorem collected_task (slot : Nat) (t : Task) (s : State) : tget (collected slot t s).orgue.tasks slot = some { t with stage := 4 } :=
  tget_tput_self _ _ _

/-- When nothing of the flow may be released, the row ends with the collected task in its slot. -/
theorem runWork_of_unreleased {s : State} {owner f slot : Nat} {pick : Job → Bool} {t : Task} (h : Workable s owner pick f slot t)
    (hnone : nextRelease (collected slot t s) f = none) : runWork owner pick s = collected slot t s := by
  obtain ⟨hflow, hready, hengine, -, -, -, -, -, -, hwaiting⟩ := h
  have hrun : runWork owner pick s = afterRelease (releaseFlow f ((collected slot t s).orgue.tasks.length + 1) (collected slot t s)) := by
    simp only [runWork, hflow, hready, if_pos hengine]
    rfl
  have hidle : (collected slot t s).nose.waiting.isEmpty = true := by rw [List.isEmpty_iff]; exact hwaiting
  rw [hrun, releaseFlow_of_none hnone, afterRelease, if_pos hidle]

/-! ### A tile set whose scaling task is held back -/

/-- The ready scaling of member 0 of tile set 0, on flow 0. -/
def readyScaling : Task := { readyDecode with kind := .compose, job := some { work := .scale 0 0 } }

/-- The scaling of its next tick, which still waits, its SEQ beyond 32 bits. -/
def scalingBeyond : Task := { waitingBeyond with kind := .compose, job := some { work := .scale 0 0, tick := 1 } }

def heldMember : Member := { isRank := true, rank := 0, source := 0, ctx := some 0, holder := none, scaled := none, slice := none }

def heldTileset : TileSet :=
  { tenant := 0, conf := 0, codec := 3, tenBit := false, layers := 1, fit := 0, w := 64, h := 64, rate := 30, bank := 0, girPeriod := 60, tileRate := 500,
    minQp := 10, maxQp := 40, capMult := 4, bridgeW := 128, bridgeH := 128, fill := (0, 512, 512), members := [heldMember], bridges := [], home := 0,
    reserved := 122880 }

/-- The encode context of the tile stream. -/
def heldTileEnc : EncCtx :=
  { kind := .tile 0 0, tenant := 0, home := 0, rate := 182880, granules := 4, w := 64, h := 64, f := 30, tenBit := false, layers := 1, codec := 3,
    capMult := 4, debt := 0, lastKey := none, lastPic := none }

/-- A composite that is stitched from the tile stream. -/
def heldComp : Comp :=
  { path := .stitched, priv := none, stitcher := some 0, bridge := none, selfRate := none, lastKey := none, requests := 0, lastFir := none, ceiling := 2,
    ceilUp := none, bc := none, tiles := [some (0, 0)], paramsOwed := false }

def heldOut : OutStream := { tenant := 0, leg := 0, decl := heldSource.decl, route := none, comp := some heldComp, audio := none }

/-- Tile set 0 in a composing conference, on a device out of reset, with two scaling tasks in slots 0 and 1. -/
def heldTiles : State :=
  { mon := { inReset := false }
    obj := { confs := { live := [(0, composingConf)], fresh := 1 }
             tilesets := { live := [(0, heldTileset)], fresh := 1 }
             encs := { live := [(0, heldTileEnc)], fresh := 1 } }
    orgue := { heldFlow.orgue with tasks := [(0, readyScaling), (1, scalingBeyond)], owners := [(0, objRef 8 0)] } }

theorem heldTiles_workable :
    Workable heldTiles (objRef 8 0) (fun q => decide (q.work = .scale 0 0) && decide (q.tick = 0)) 0 0 readyScaling := by
  refine ⟨rfl, rfl, by decide +kernel, by simp [heldTiles], fun kt hkt hother _ => ?_, rfl, rfl, rfl, rfl, rfl⟩
  obtain rfl | rfl : kt = (0, readyScaling) ∨ kt = (1, scalingBeyond) := by simpa [heldTiles] using hkt
  · exact absurd rfl hother
  · exact ⟨seqBefore_both_ways.1, by decide⟩

theorem heldTiles_collected_tasks :
    (collected 0 readyScaling heldTiles).orgue.tasks = [(0, { readyScaling with stage := 4 }), (1, scalingBeyond)] := rfl

/-- The collected task waits for the other one, and the other one has not run. -/
theorem heldTiles_releases_nothing : nextRelease (collected 0 readyScaling heldTiles) 0 = none := by
  refine nextRelease_eq_none fun kt hkt => ?_
  obtain rfl | rfl : kt = (0, { readyScaling with stage := 4 }) ∨ kt = (1, scalingBeyond) := by simpa [heldTiles_collected_tasks] using hkt
  · exact releasable_eq_false_of_before (kt := (1, scalingBeyond)) rfl (by simp [heldTiles_collected_tasks]) rfl seqBefore_both_ways.2
  · rfl

theorem tileScaling_heldTiles : exec (.tileScaling 0 0 0) heldTiles = .next (collected 0 readyScaling heldTiles) := by
  have hexec : exec (.tileScaling 0 0 0) heldTiles =
      done heldTiles (runWork (objRef 8 0) (fun q => decide (q.work = .scale 0 0) && decide (q.tick = 0)) heldTiles) := rfl
  rw [hexec, runWork_of_unreleased heldTiles_workable heldTiles_releases_nothing]
  rfl

/-- Refutes O35: TILE_SCALING runs the task of `heldTiles`, and the task stays in slot 0, since one whose SEQ is 2^32 higher counts as before it. -/
theorem not_picturesAreMadeAtTheirTick : ¬ Obligations.PicturesAreMadeAtTheirTick := by
  intro h
  obtain ⟨-, -, -, -, hscaling, -⟩ := h heldTiles 0 0 0 30 fencedLayout heldTileset heldMember heldTileEnc heldOut heldComp rfl
  obtain ⟨u, hnext, -, -, ⟨hgone, -⟩, -⟩ := hscaling 0 0 readyScaling { work := .scale 0 0 } heldTiles_workable rfl
  obtain rfl : u = collected 0 readyScaling heldTiles := Host.Outcome.next.inj (hnext.symm.trans tileScaling_heldTiles)
  rw [collected_task] at hgone
  cases hgone

end Sys2Proof.Machine
end

section
/-! The audio rows of a tick: each changes its own conference, stream or tone, and leaves every other object as it was (R277, R278, R285, R286, R301). A row that finds
nothing to do leaves the state as it is. -/

namespace Sys2Proof.Machine

/-! ### How a row completes -/

/-- A row out of reset yields what its state gives. -/
theorem row_yields {o : Instr} {s t : State} {P : State → Prop} (h : Awake s) (hexec : exec o s = done s t) (hP : P { t with pending := s.pending }) :
    Yields o s P :=
  ⟨_, hexec.trans (done_awake _ h), rfl, hP⟩

/-- A row whose condition holds does its work. -/
theorem exec_of_runs {o : Instr} {s t : State} {b : Bool} (hexec : exec o s = done s (if b then t else s)) (hb : b = true) : exec o s = done s t := by
  rw [hexec, if_pos hb]

/-- A row whose condition fails, or whose work changes nothing, answers the state itself. -/
theorem exec_of_idle {o : Instr} {s t : State} {b : Bool} (hexec : exec o s = done s (if b then t else s)) (ht : b = true → t = s) :
    exec o s = .next s := by
  have hsame : (if b then t else s) = s := by
    split
    · exact ht ‹_›
    · rfl
  rw [hexec, hsame, done, ite_self, doneAon_next]

theorem exec_of_stopped {o : Instr} {s t : State} {b : Bool} (hexec : exec o s = done s (if b then t else s)) (hb : b = false) :
    exec o s = .next s :=
  exec_of_idle hexec fun hruns => by simp [hb] at hruns

/-- What no audio row of a tick changes. -/
def AudioRowKeeps (s t : State) : Prop :=
  t.hst = s.hst ∧ t.ports = s.ports ∧ HbmKept s t ∧ t.tim = s.tim ∧ t.media = s.media ∧ t.obj.outs = s.obj.outs ∧ t.obj.tenants = s.obj.tenants

theorem hbmKept_of_eq {s t : State} (hmon : t.mon = s.mon) (hhbm : t.hbm = s.hbm) : HbmKept s t := by
  rw [HbmKept, hmon, if_pos rfl, hhbm]

theorem audioRowKeeps_updConf (i : Nat) (f : Conf → Conf) (s : State) : AudioRowKeeps s (updConf i f s) :=
  ⟨rfl, rfl, hbmKept_of_eq rfl rfl, rfl, rfl, rfl, rfl⟩

theorem audioRowKeeps_updLeg (i : Nat) (f : Leg → Leg) (s : State) : AudioRowKeeps s (updLeg i f s) :=
  ⟨rfl, rfl, hbmKept_of_eq rfl rfl, rfl, rfl, rfl, rfl⟩

theorem audioRowKeeps_updIn (i : Nat) (f : InStream → InStream) (s : State) : AudioRowKeeps s (updIn i f s) :=
  ⟨rfl, rfl, hbmKept_of_eq rfl rfl, rfl, rfl, rfl, rfl⟩

/-- Conference i is k in t, and every other object is as in s. -/
def AudioRowSetsConf (i : Nat) (k : Conf) (s t : State) : Prop :=
  (AudioRowKeeps s t ∧ t.obj.legs = s.obj.legs ∧ t.obj.ins = s.obj.ins ∧ ∀ j, j ≠ i → t.obj.confs.at? j = s.obj.confs.at? j) ∧
    t.obj.confs.at? i = some k

theorem AudioRowSetsConf.self {i : Nat} {k : Conf} {s : State} (hk : s.obj.confs.at? i = some k) : AudioRowSetsConf i k s s :=
  ⟨⟨⟨rfl, rfl, hbmKept_of_eq rfl rfl, rfl, rfl, rfl, rfl⟩, rfl, rfl, fun _ _ => rfl⟩, hk⟩

/-- Source i has the audio state a in t, and every other object is as in s. -/
def AudioRowSetsSound (i : Nat) (x : InStream) (a : AudioIn) (s t : State) : Prop :=
  (AudioRowKeeps s t ∧ t.obj.legs = s.obj.legs ∧ t.obj.confs = s.obj.confs ∧ ∀ j, j ≠ i → t.obj.ins.at? j = s.obj.ins.at? j) ∧
    t.obj.ins.at? i = some { x with audio := some a }

section
variable {o : Instr} {s : State} {i : Nat}

/-- A row that changes one conference sets that conference alone. -/
theorem confRow_yields {k : Conf} {f : Conf → Conf} (h : Awake s) (hk : s.obj.confs.at? i = some k) (hexec : exec o s = done s (updConf i f s)) :
    Yields o s (AudioRowSetsConf i (f k) s) :=
  row_yields h hexec ⟨⟨audioRowKeeps_updConf i f s, rfl, rfl, fun _ hj => at?_upd_ne _ f hj⟩,
    (at?_upd_self s.obj.confs i f).trans (by rw [hk, Option.map_some])⟩

/-- A row that changes the audio state of one source sets that source alone. -/
theorem soundRow_yields {x : InStream} {a : AudioIn} {f : AudioIn → AudioIn} (h : Awake s) (hi : i < 131072) (hx : s.obj.ins.at? i = some x)
    (ha : x.audio = some a) (hexec : exec o s = done s (updAudio i f s)) : Yields o s (AudioRowSetsSound i x (f a) s) := by
  rw [updAudio, if_pos hi] at hexec
  exact row_yields h hexec ⟨⟨audioRowKeeps_updIn i _ s, rfl, rfl, fun _ hj => at?_upd_ne _ _ hj⟩,
    (at?_upd_self s.obj.ins i _).trans (by rw [hx, Option.map_some, ha, Option.map_some])⟩

end

/-! ### The ranking (R286) -/

/-- Two neighbours of a list, with what stands before and behind them. -/
theorem take_append_two_append_drop {α : Type} {l : List α} {r : Nat} {a b : α} (ha : l[r]? = some a) (hb : l[r + 1]? = some b) :
    l.take r ++ a :: b :: l.drop (r + 2) = l := by
  obtain ⟨hra, rfl⟩ := List.getElem?_eq_some_iff.mp ha
  obtain ⟨hrb, rfl⟩ := List.getElem?_eq_some_iff.mp hb
  rw [← List.drop_eq_getElem_cons hrb, ← List.drop_eq_getElem_cons hra, List.take_append_drop]

/-- The pass over the ranking only moves its entries. -/
theorem bubble_perm (r : Nat) (rk : List Ranked) : (bubble r rk).Perm rk := by
  induction r generalizing rk with
  | zero => exact .refl rk
  | succ r ih =>
    rw [bubble]
    split
    case h_1 a b ha hb =>
      refine (ih _).trans ?_
      split
      · have hswap : (rk.take r ++ [b, a] ++ rk.drop (r + 2)).Perm (rk.take r ++ a :: b :: rk.drop (r + 2)) := by
          rw [List.append_assoc]
          exact .append_left _ (.swap a b _)
        rwa [take_append_two_append_drop ha hb] at hswap
      · exact .refl rk
    case h_2 => exact ih rk

theorem resortConf_of_due {s : State} {n : Nat} (h : n % 100 = 0) (conf : Nat) : resortConf conf n s = updConf conf (·.resort n) s := if_pos h

theorem resortConf_of_not_due {s : State} {n : Nat} (h : n % 100 ≠ 0) (conf : Nat) : resortConf conf n s = s := if_neg h

theorem Conf.resort_first {k : Conf} {n : Nat} (hdue : n % 100 = 0) (hfirst : k.resorted ≠ some n) :
    k.resort n = { k with ranking := bubble (k.ranking.length - 1) k.ranking, resorted := some n } := if_pos ⟨hdue, hfirst⟩

theorem Conf.resort_again {k : Conf} {n : Nat} (h : k.resorted = some n) : k.resort n = k := if_neg fun ⟨_, hfirst⟩ => hfirst h

theorem timeoutTalkers_eq (conf : Nat) (s : State) :
    timeoutTalkers conf s = updConf conf (fun k => { k with ranking := k.ranking.filter fun r => decide (r.idle < 1000) }) s := rfl

/-! ### One sound source (R277, R278, R285) -/

/-- What a move of the playout depth makes of a stream: one block toward the depth that it wants. -/
def AudioIn.moveToward (want block n : Nat) (a : AudioIn) : AudioIn := { a.move block (decide (a.depth < want)) with movedAt := some n }

theorem AudioIn.moveToward_eq (want block n : Nat) (a : AudioIn) :
    (a.moveToward want block n).movedAt = some n ∧
    (a.moveToward want block n).depth = (if a.depth < want then a.depth + 1 else a.depth - 1) ∧
    (a.moveToward want block n).p0 = a.p0 + (if a.depth < want then 48 else -48) := by
  simp [moveToward, move]

/-- What a loudness update makes of a stream: its gain comes nearer to the one wanted, by at most 0.3 dB. -/
def AudioIn.gainToward (want : Int) (n : Nat) (a : AudioIn) : AudioIn :=
  { a with gain := a.gain + clampI (-tenths 3) (tenths 3) (want - a.gain), loudAt := some n }

/-- The gain that brings a stream's short-term loudness to its target, within 12 dB (R285). -/
def AudioIn.wantGain (a : AudioIn) (d : StreamRec) : Int := clampI (-tenths 120) (tenths 120) (d.target - (lg a.shortTerm - 2796191482))

theorem clampI_bounds {lo hi : Int} (h : lo ≤ hi) (x : Int) : lo ≤ clampI lo hi x ∧ clampI lo hi x ≤ hi := by
  unfold clampI
  repeat' split
  all_goals omega

theorem AudioIn.gainToward_step (want : Int) (n : Nat) (a : AudioIn) :
    (a.gainToward want n).gain ≤ a.gain + tenths 3 ∧ a.gain - tenths 3 ≤ (a.gainToward want n).gain := by
  have hstep : -tenths 3 ≤ tenths 3 := by decide
  obtain ⟨hlo, hhi⟩ := clampI_bounds hstep (want - a.gain)
  simp only [gainToward]
  omega

section
variable {s : State} {i n : Nat} {x : InStream} {a : AudioIn} (hx : s.obj.ins.at? i = some x) (ha : x.audio = some a)
include hx ha

theorem moveDepth_of_idle_stream (hdue : n % 100 = 0) (hfirst : a.movedAt ≠ some n) (hstarted : a.started = true) (hinactive : a.active = false)
    (hunranked : isRanked s ((confOfIn s x).getD 0) i = false) (hdepth : a.depth ≠ a.wantDepth x.decl) :
    moveDepth i n s = updAudio i (AudioIn.moveToward (a.wantDepth x.decl) (nextBlock s ((confOfIn s x).getD 0)) n) s := by
  simp only [moveDepth, hx, ha]
  exact if_neg (by simp [hdue, hfirst, hstarted, hinactive, hunranked, hdepth])

theorem moveDepth_of_settled (h : a.depth = a.wantDepth x.decl ∨ a.movedAt = some n) : moveDepth i n s = s := by
  simp only [moveDepth, hx, ha]
  refine if_pos ?_
  rcases h with h | h <;> simp [h]

theorem updateLoudness_of_active (hdue : n % 100 = 0) (hfirst : a.loudAt ≠ some n) (hloud : x.decl.loud = true) (hactive : a.active = true) :
    updateLoudness i n s = updAudio i (AudioIn.gainToward (a.wantGain x.decl) n) s := by
  simp only [updateLoudness, hx, ha]
  exact if_neg (by simp [hdue, hfirst, hloud, hactive])

theorem updateLoudness_of_not_due (h : n % 100 ≠ 0 ∨ a.loudAt = some n ∨ a.active = false) : updateLoudness i n s = s := by
  simp only [updateLoudness, hx, ha]
  refine if_pos ?_
  rcases h with h | h | h <;> simp [h]

theorem silenceStream_of_late (hstarted : a.started = true) (hsounds : a.silent = false)
    (hlate : a.lastPlayed + 60 < nextBlock s ((confOfIn s x).getD 0)) :
    silenceStream i s = updAudio i (fun a => { a with silent := true, dec := 0 }) s := by
  simp only [silenceStream, hx, ha]
  exact if_pos (by simp [hstarted, hsounds, hlate])

theorem silenceStream_of_recent (hrecent : nextBlock s ((confOfIn s x).getD 0) ≤ a.lastPlayed + 60) : silenceStream i s = s := by
  simp only [silenceStream, hx, ha]
  exact if_neg fun ⟨_, _, hlate⟩ => Nat.not_lt_of_ge hrecent hlate

end

/-! ### The tone of a leg or conference (R301) -/

/-- Change the leg or the conference that a handle names. -/
def updToned (h : Handle) (fl : Leg → Leg) (fk : Conf → Conf) (s : State) : State :=
  if hType h = tyLeg then updLeg (hIndex h) fl s else updConf (hIndex h) fk s

theorem audioRowKeeps_updToned (h : Handle) (fl : Leg → Leg) (fk : Conf → Conf) (s : State) : AudioRowKeeps s (updToned h fl fk s) := by
  unfold updToned
  split
  · exact audioRowKeeps_updLeg _ _ s
  · exact audioRowKeeps_updConf _ _ s

/-- The tone after a change is the change of the tone before it. -/
theorem toneOn_updToned {h : Handle} {fl : Leg → Leg} {fk : Conf → Conf} (g : Option Tone → Option Tone) (hl : ∀ l, (fl l).tone = g l.tone)
    (hk : ∀ k, (fk k).tone = g k.tone) {s : State} {tone : Tone} (htone : toneOn s h = some tone) :
    toneOn (updToned h fl fk s) h = g (some tone) := by
  by_cases hleg : hType h = tyLeg
  · rw [toneOn, if_pos hleg, Option.bind_eq_some_iff] at htone
    obtain ⟨l, hat, hown⟩ := htone
    simp [toneOn, updToned, hleg, hat, hl, hown]
  · rw [toneOn, if_neg hleg, Option.bind_eq_some_iff] at htone
    obtain ⟨k, hat, hown⟩ := htone
    simp [toneOn, updToned, hleg, hat, hk, hown]

/-- The tone's on part begins or ends in block n. -/
def turnTone (on : Bool) (n : Nat) (t : Option Tone) : Option Tone := t.map fun t => { t with on := on, edge := n }

/-- A tone with what it still ramps down when it ends in block n. -/
def fadeTone (n : Nat) (t : Option Tone) : List Tone := (t.map fun t => t.stop n).getD []

theorem endTone_eq (h : Handle) (n : Nat) (s : State) :
    endTone h n s = updToned h (fun l => { l with tone := none, fading := l.fading ++ fadeTone n l.tone })
      (fun k => { k with tone := none, fading := k.fading ++ fadeTone n k.tone }) s := rfl

section
variable {s : State} {h : Handle} {n : Nat} {tone : Tone} {cad : List Nat × Bool} (htone : toneOn s h = some tone)
include htone

theorem toneOn_endTone : toneOn (endTone h n s) h = none :=
  toneOn_updToned (fun _ => none) (fun _ => rfl) (fun _ => rfl) htone

theorem expireTone_of_over (hlimited : tone.duration ≠ 0) (hover : tone.start + tone.duration ≤ n) : expireTone h n s = endTone h n s := by
  simp only [expireTone, htone]
  exact if_pos ⟨hlimited, hover⟩

theorem expireTone_of_playing (hplays : tone.duration = 0 ∨ n < tone.start + tone.duration) : expireTone h n s = s := by
  simp only [expireTone, htone]
  exact if_neg (by omega)

section
variable (hstart : tone.start ≤ n) (hcad : cadenceOf (toneImage s (toneConf s h)) tone.cadence = some cad)
include hstart hcad

theorem edgeTone_of_over (hover : cadenceAt cad (n - tone.start) = none) : edgeTone h n s = endTone h n s := by
  simp only [edgeTone, htone, if_neg (Nat.not_lt_of_ge hstart), hcad, hover]

theorem edgeTone_of_same (hsame : cadenceAt cad (n - tone.start) = some tone.on) : edgeTone h n s = s := by
  simp only [edgeTone, htone, if_neg (Nat.not_lt_of_ge hstart), hcad, hsame, if_true]

theorem edgeTone_of_edge {on : Bool} (hat : cadenceAt cad (n - tone.start) = some on) (hedge : on ≠ tone.on) :
    edgeTone h n s = updToned h (fun l => { l with tone := turnTone on n l.tone }) (fun k => { k with tone := turnTone on n k.tone }) s := by
  simp only [edgeTone, htone, if_neg (Nat.not_lt_of_ge hstart), hcad, hat, if_neg hedge]
  rfl

end

/-- A row that ends the tone of its object. -/
theorem toneEnds_yields {o : Instr} (hawake : Awake s) (hexec : exec o s = done s (endTone h n s)) :
    Yields o s fun t => AudioRowKeeps s t ∧ toneOn t h = none :=
  row_yields hawake hexec ⟨audioRowKeeps_updToned h _ _ s, toneOn_endTone htone⟩

end

/-- Settles O30: each row's work is one change of its conference, stream or tone, or none, and the change is read off. -/
theorem audioTasksActAtTheirTick : Obligations.AudioTasksActAtTheirTick := by
  intro s n conf i k x a h tone cad others confOnly inOnly next hawake
  refine ⟨fun hruns hk => ⟨fun hdue hfirst => ?resort, fun hagain => ?resorted, fun hdue => ?notDue, ?timeout⟩, fun hstill => ?otherTick,
    fun hi hx ha => ⟨fun hruns hdue hfirst hstarted hinactive hunranked hdepth => ?move, fun hsettled => ?settled,
      fun hruns hdue hfirst hloud hactive => ?loud, fun hquiet => ?notLoud, fun hruns hstarted hsounds hlate => ?silence, fun hrecent => ?recent⟩,
    fun hruns hplays htone => ?tones⟩
  case resort =>
    have hexec := exec_of_runs (o := .rankingResort conf n) rfl hruns
    rw [resortConf_of_due hdue] at hexec
    obtain ⟨t, hnext, hpending, honly, hconf⟩ := confRow_yields hawake hk hexec
    exact ⟨t, hnext, hpending, honly, _, rfl, bubble_perm _ _, hconf.trans (by rw [Conf.resort_first hdue hfirst])⟩
  case resorted =>
    by_cases hdue : n % 100 = 0
    · have hexec := exec_of_runs (o := .rankingResort conf n) rfl hruns
      rw [resortConf_of_due hdue] at hexec
      have hrow := confRow_yields hawake hk hexec
      rwa [Conf.resort_again hagain] at hrow
    · exact ⟨s, exec_of_idle (o := .rankingResort conf n) rfl fun _ => resortConf_of_not_due hdue conf, rfl, AudioRowSetsConf.self hk⟩
  case notDue => exact exec_of_idle (o := .rankingResort conf n) rfl fun _ => resortConf_of_not_due hdue conf
  case timeout => exact confRow_yields hawake hk (exec_of_runs (o := .talkerTimeout conf n) rfl hruns)
  case otherTick =>
    have htones : (taskRuns s n && playsTones s h) = false := by rw [hstill, Bool.false_and]
    intro c hc
    simp only [List.mem_cons, List.not_mem_nil, or_false] at hc
    rcases hc with rfl | rfl | rfl | rfl | rfl | rfl
    · exact exec_of_stopped rfl hstill
    · exact exec_of_stopped rfl hstill
    · exact exec_of_stopped rfl hstill
    · exact exec_of_stopped rfl hstill
    · exact exec_of_stopped rfl htones
    · exact exec_of_stopped rfl htones
  case move =>
    have hexec := exec_of_runs (o := .playoutDepthMove i n) rfl hruns
    rw [moveDepth_of_idle_stream hx ha hdue hfirst hstarted hinactive hunranked hdepth] at hexec
    obtain ⟨t, hnext, hpending, honly, hsound⟩ := soundRow_yields hawake hi hx ha hexec
    exact ⟨t, hnext, hpending, honly, _, hsound, AudioIn.moveToward_eq _ _ n a⟩
  case settled => exact exec_of_idle (o := .playoutDepthMove i n) rfl fun _ => moveDepth_of_settled hx ha hsettled
  case loud =>
    have hexec := exec_of_runs (o := .loudnessUpdate i n) rfl hruns
    rw [updateLoudness_of_active hx ha hdue hfirst hloud hactive] at hexec
    obtain ⟨t, hnext, hpending, honly, hsound⟩ := soundRow_yields hawake hi hx ha hexec
    obtain ⟨hup, hdown⟩ := AudioIn.gainToward_step (a.wantGain x.decl) n a
    exact ⟨t, hnext, hpending, honly, _, hsound, hup, hdown, rfl⟩
  case notLoud => exact exec_of_idle (o := .loudnessUpdate i n) rfl fun _ => updateLoudness_of_not_due hx ha hquiet
  case silence =>
    have hexec := exec_of_runs (o := .audioSilenceReset i) rfl hruns
    rw [silenceStream_of_late hx ha hstarted hsounds hlate] at hexec
    exact soundRow_yields hawake hi hx ha hexec
  case recent => exact exec_of_idle (o := .audioSilenceReset i) rfl fun _ => silenceStream_of_recent hx ha hrecent
  case tones =>
    have hboth : (taskRuns s n && playsTones s h) = true := by rw [hruns, hplays, Bool.and_self]
    have hedgeRow := exec_of_runs (o := .toneCadenceEdge h n) rfl hboth
    have hendRow := exec_of_runs (o := .toneEnd h n) rfl hboth
    refine ⟨fun hstart hcad => ⟨fun on hat hedge => ?edge, fun hsame => ?same, fun hover => ?played⟩,
      fun hlimited hover => ?expired, fun hplaying => ?playing⟩
    case edge =>
      rw [edgeTone_of_edge htone hstart hcad hat hedge] at hedgeRow
      exact row_yields hawake hedgeRow ⟨audioRowKeeps_updToned h _ _ s, toneOn_updToned (turnTone on n) (fun _ => rfl) (fun _ => rfl) htone⟩
    case same => exact exec_of_idle (o := .toneCadenceEdge h n) rfl fun _ => edgeTone_of_same htone hstart hcad hsame
    case played => exact toneEnds_yields htone hawake (by rw [hedgeRow, edgeTone_of_over htone hstart hcad hover])
    case expired => exact toneEnds_yields htone hawake (by rw [hendRow, expireTone_of_over htone hlimited hover])
    case playing => exact exec_of_idle (o := .toneEnd h n) rfl fun _ => expireTone_of_playing htone hplaying

end Sys2Proof.Machine
end

section
/-! Why TALKER_REPORT does not always send by the direct trunk (R302, R303). A trunk is found by its peer in the whole table, and then read by its index; a read stops at
the first key above the one it looks for. A table's keys strictly rise, but `Tbl` is a plain list and the statement does not ask for it, so that the trunk which is found
may be one that no read reaches, and then nothing is sent. -/

namespace Sys2Proof.Machine

/-- A report by a trunk that no read reaches sends nothing; the conference alone notes it. -/
theorem reportTalkers_of_unread_trunk {s : State} {conf n tr : Nat} {k : Conf} (hk : s.obj.confs.at? conf = some k) (hdue : n % 10 = 0)
    (hfirst : k.reported ≠ some n) (haway : isHome s k = false) (hmember : isMember s k = true) (htrunk : trunkTo s (k.home.getD 0) = some tr)
    (hunread : s.obj.trunks.at? tr = none) : reportTalkers conf n s = updConf conf (fun k => { k with reported := some n }) s := by
  have hnow : ¬ (n % 10 ≠ 0 ∨ k.reported = some n) := by simp [hdue, hfirst]
  simp only [reportTalkers, hk, if_neg hnow, haway, hmember, htrunk, sendTrunk, updConf_parts, hunread]
  rfl

/-! ### A member of a cascade whose trunk to the home is not read -/

/-- A trunk toward a device. -/
def trunkToward (peer : Nat) : Trunk :=
  { tenant := 0, transport := { laddr := [], raddr := [], lport := 0, rport := 0, v6 := false, port := 0, vid := 0, pcp := 0, ctrl := 0 }, peer := peer,
    tx := [], rx := [], phase := false, meter := trunkMeter 0, est := newEstimator, shaper := newShaper 0, weight := 10, slots := [], ins := [],
    lastSent := 0, lastAuth := 0, down := false, lost := 0, drops := 0 }

/-- A conference whose home is device 5. -/
def awayConf : Conf := { composingConf with globalId := some 0x5000 }

/-- Device 0 at tick 0, whose trunk table lists trunk 1, toward device 9, before trunk 0, toward device 5. -/
def hiddenTrunk : State :=
  { mon := { inReset := false }
    twin := { state := .solo }
    obj := { confs := { live := [(0, awayConf)], fresh := 1 }
             trunks := { live := [(1, trunkToward 9), (0, trunkToward 5)], fresh := 2 } } }

theorem talkerReport_hiddenTrunk :
    exec (.talkerReport 0 0) hiddenTrunk = .next (updConf 0 (fun k => { k with reported := some 0 }) hiddenTrunk) := by
  have hexec : exec (.talkerReport 0 0) hiddenTrunk = done hiddenTrunk (reportTalkers 0 0 hiddenTrunk) := rfl
  have hunread : hiddenTrunk.obj.trunks.at? 0 = none := tget_behind_higher Nat.one_pos _ _
  rw [hexec, reportTalkers_of_unread_trunk (tr := 0) (k := awayConf) rfl rfl (by decide) (by decide) (by decide) rfl hunread]
  rfl

/-- Refutes O31: in `hiddenTrunk` the direct trunk to the home is trunk 0, which the report does not reach, so that no packet is sent. -/
theorem not_audioTicksAndTheCascade : ¬ Obligations.AudioTicksAndTheCascade := by
  intro h
  obtain ⟨-, -, -, hrows, -⟩ := h hiddenTrunk 0 0 0 awayConf rfl
  obtain ⟨-, -, -, -, -, hmember⟩ := hrows rfl rfl
  obtain ⟨hsends, -⟩ := hmember rfl (by decide) rfl (by decide) (by decide)
  obtain ⟨t, hnext, -, -, -, p, hsent, -⟩ := hsends 0 rfl
  obtain rfl : t = updConf 0 (fun k => { k with reported := some 0 }) hiddenTrunk := Host.Outcome.next.inj (hnext.symm.trans talkerReport_hiddenTrunk)
  cases hsent

end Sys2Proof.Machine
end

section
/-! Why GRAPH_UNLOAD does not always leave every other image as it was (R24, R297): as with LAYOUT_DESTROY, an image that is listed after a higher key is not read until
that key is deleted. -/

namespace Sys2Proof.Machine

def plainImage : Image :=
  { tenant := 0, bytes := [], directOk := true, confNodes := 0, inNodes := 0, lisNodes := 0, edges := 0, codeBytes := 0, tableBytes := 0, confCycles := 0,
    inCycles := 0, lisCycles := 0, buildId := 0, lastFault := 0xFFFF }

/-- A device in full service whose image table lists image 1 before image 0. -/
def hiddenImage : State :=
  { mon := { inReset := false }
    nose := { service := .full }
    twin := { state := .solo }
    obj := { images := { live := [(1, plainImage), (0, plainImage)], fresh := 2 } } }

/-- GRAPH_UNLOAD of image 1. -/
def unloadImage1 : Cmd := { destroyLayout1 with object := mkHandle 0 tyImage 1 1 }

theorem unloadImage1_admitted : Admits ruleGraphUnload unloadImage1 hiddenImage := by
  have hpass : fullCheck ruleGraphUnload unloadImage1 hiddenImage = none := by decide +kernel
  exact ⟨rfl, rfl, hpass, rfl, rfl, fun _ => rfl⟩

theorem unloadImage1_live : (ruleGraphUnload.effect unloadImage1 hiddenImage).2.obj.images.live = tdel hiddenImage.obj.images.live 1 := by
  decide +kernel

/-- With image 1 gone, image 0 is read. -/
theorem unloadImage1_reveals : (perform ruleGraphUnload unloadImage1 hiddenImage).obj.images.at? 0 = some plainImage := by
  simp only [ObjTbl.at?, perform_fields, unloadImage1_live]
  exact tget_tdel_higher Nat.one_pos _ _

/-- Refutes O32: GRAPH_UNLOAD of image 1 in `hiddenImage` brings image 0 to light, which was not in use before. -/
theorem not_soundCommandsActOnTheirObject : ¬ Obligations.SoundCommandsActOnTheirObject := by
  intro h
  obtain ⟨-, -, hunload, -⟩ :=
    h unloadImage1 hiddenImage awayConf (mixAt unloadImage1 0 0) (attachLeg unloadImage1 hiddenImage) heldSource {}
  obtain ⟨t, hnext, -, -, -, -, hothers⟩ := hunload unloadImage1_admitted
  obtain rfl : t = { perform ruleGraphUnload unloadImage1 hiddenImage with pending := hiddenImage.pending } :=
    Host.Outcome.next.inj (hnext.symm.trans (issue_performs unloadImage1_admitted))
  have hother : 0 ≠ hIndex unloadImage1.object := by decide +kernel
  have hbefore : hiddenImage.obj.images.at? 0 = none := tget_behind_higher Nat.one_pos _ _
  have hrevealed : some plainImage = none := unloadImage1_reveals.symm.trans ((hothers 0 hother).trans hbefore)
  cases hrevealed

end Sys2Proof.Machine
end

section
/-! The words of the Accord core: a word is its opcode before the 26 bits of its fields, in whichever format they are read (R310, Table 11-4). -/

namespace Sys2Proof.Machine

theorem opcode_append_fields {w : Word} {op : BitVec 6} (h : (w.extractLsb' 26 6).toNat = op.toNat) : op ++ w.extractLsb' 0 26 = w := by
  rw [← BitVec.eq_of_toNat_eq h]
  exact (BitVec.extractLsb'_append_extractLsb'_eq_extractLsb' rfl).trans BitVec.extractLsb'_eq_self

/-! ### The fields of a word, put back -/

theorem wordA_fmtAOf (op : BitVec 6) (w : Word) : wordA op (fmtAOf w) = op ++ w.extractLsb' 0 26 := by
  unfold wordA fmtAOf
  ext i hi
  grind only [BitVec.getElem_append, BitVec.getElem_extractLsb', BitVec.getElem_ofBool, BitVec.getLsbD_eq_getElem]

theorem wordB_fmtBOf (op : BitVec 6) (w : Word) : wordB op (fmtBOf w) = op ++ w.extractLsb' 0 26 := by
  unfold wordB fmtBOf
  ext i hi
  grind only [BitVec.getElem_append, BitVec.getElem_extractLsb', BitVec.getLsbD_eq_getElem]

theorem wordC_fmtCOf (op : BitVec 6) (w : Word) : wordC op (fmtCOf w) = op ++ w.extractLsb' 0 26 := by
  unfold wordC fmtCOf
  ext i hi
  grind only [BitVec.getElem_append, BitVec.getElem_extractLsb', BitVec.getLsbD_eq_getElem]

theorem wordD_fmtDOf (op : BitVec 6) (w : Word) : wordD op (fmtDOf w) = op ++ w.extractLsb' 0 26 := by
  unfold wordD fmtDOf
  ext i hi
  grind only [BitVec.getElem_append, BitVec.getElem_extractLsb', BitVec.getElem_ofBool, BitVec.getLsbD_eq_getElem]

theorem encodeWord_decodeWord (w : Word) : encodeWord (decodeWord w) = w := by
  unfold decodeWord
  dsimp only
  split
  case h_49 => rfl
  all_goals
    next hopcode =>
      simp only [encodeWord, wordA_fmtAOf, wordB_fmtBOf, wordC_fmtCOf, wordD_fmtDOf]
      exact opcode_append_fields hopcode

/-! ### The number of an encoded word, and the fields read back from it -/

theorem toNat_append_eq_add {m n : Nat} (x : BitVec m) (y : BitVec n) : (x ++ y).toNat = x.toNat * 2 ^ n + y.toNat := by
  rw [BitVec.toNat_append, ← Nat.shiftLeft_add_eq_or_of_lt y.isLt, Nat.shiftLeft_eq]

theorem wordA_toNat (op : BitVec 6) (f : FmtA) :
    (wordA op f).toNat = op.toNat * 2 ^ 26 + f.d.toNat * 2 ^ 21 + f.s.toNat * 2 ^ 16 + f.t.toNat * 2 ^ 11 + f.ns.toNat * 2 ^ 10 + f.rsv.toNat := by
  simp only [wordA, toNat_append_eq_add, BitVec.toNat_ofBool]
  omega

theorem wordB_toNat (op : BitVec 6) (f : FmtB) :
    (wordB op f).toNat = op.toNat * 2 ^ 26 + f.d.toNat * 2 ^ 21 + f.s.toNat * 2 ^ 16 + f.imm.toNat := by
  simp only [wordB, toNat_append_eq_add]
  omega

theorem wordC_toNat (op : BitVec 6) (f : FmtC) : (wordC op f).toNat = op.toNat * 2 ^ 26 + f.s.toNat * 2 ^ 21 + f.off.toNat := by
  simp only [wordC, toNat_append_eq_add]
  omega

theorem wordD_toNat (op : BitVec 6) (f : FmtD) :
    (wordD op f).toNat = op.toNat * 2 ^ 26 + f.a.toNat * 2 ^ 24 + f.p.toNat * 2 ^ 19 + f.q.toNat * 2 ^ 14 + f.ns.toNat * 2 ^ 13 +
      f.rsv.toNat * 2 ^ 12 + f.sh.toNat * 2 ^ 6 + f.rsv2.toNat := by
  simp only [wordD, toNat_append_eq_add, BitVec.toNat_ofBool]
  omega

theorem extractLsb'_eq_of_toNat {w : Word} {k n : Nat} {x : BitVec n} (h : w.toNat / 2 ^ k % 2 ^ n = x.toNat) : w.extractLsb' k n = x :=
  BitVec.eq_of_toNat_eq (by rw [BitVec.extractLsb'_toNat, Nat.shiftRight_eq_div_pow, h])

theorem getLsbD_eq_of_toNat {w : Word} {k : Nat} {b : Bool} (h : w.toNat / 2 ^ k % 2 = b.toNat) : w.getLsbD k = b := by
  rw [← BitVec.testBit_toNat, Nat.testBit_eq_decide_div_mod_eq, h]
  cases b <;> rfl

theorem opcode_wordA (op : BitVec 6) (f : FmtA) : (wordA op f).extractLsb' 26 6 = op :=
  extractLsb'_eq_of_toNat (by have := wordA_toNat op f; have := f.ns.toNat_le; omega)

theorem opcode_wordB (op : BitVec 6) (f : FmtB) : (wordB op f).extractLsb' 26 6 = op :=
  extractLsb'_eq_of_toNat (by have := wordB_toNat op f; omega)

theorem opcode_wordC (op : BitVec 6) (f : FmtC) : (wordC op f).extractLsb' 26 6 = op :=
  extractLsb'_eq_of_toNat (by have := wordC_toNat op f; omega)

theorem opcode_wordD (op : BitVec 6) (f : FmtD) : (wordD op f).extractLsb' 26 6 = op :=
  extractLsb'_eq_of_toNat (by have := wordD_toNat op f; have := f.ns.toNat_le; have := f.rsv.toNat_le; omega)

theorem fmtAOf_wordA (op : BitVec 6) (f : FmtA) : fmtAOf (wordA op f) = f := by
  have hword := wordA_toNat op f
  have hns := f.ns.toNat_le
  refine (FmtA.mk.injEq ..).mpr ⟨extractLsb'_eq_of_toNat ?d, extractLsb'_eq_of_toNat ?s, extractLsb'_eq_of_toNat ?t, getLsbD_eq_of_toNat ?ns,
    extractLsb'_eq_of_toNat ?rsv⟩
  all_goals omega

theorem fmtBOf_wordB (op : BitVec 6) (f : FmtB) : fmtBOf (wordB op f) = f := by
  have hword := wordB_toNat op f
  refine (FmtB.mk.injEq ..).mpr ⟨extractLsb'_eq_of_toNat ?d, extractLsb'_eq_of_toNat ?s, extractLsb'_eq_of_toNat ?imm⟩
  all_goals omega

theorem fmtCOf_wordC (op : BitVec 6) (f : FmtC) : fmtCOf (wordC op f) = f := by
  have hword := wordC_toNat op f
  refine (FmtC.mk.injEq ..).mpr ⟨extractLsb'_eq_of_toNat ?s, extractLsb'_eq_of_toNat ?off⟩
  all_goals omega

theorem fmtDOf_wordD (op : BitVec 6) (f : FmtD) : fmtDOf (wordD op f) = f := by
  have hword := wordD_toNat op f
  have hns := f.ns.toNat_le
  have hrsv := f.rsv.toNat_le
  refine (FmtD.mk.injEq ..).mpr ⟨extractLsb'_eq_of_toNat ?a, extractLsb'_eq_of_toNat ?p, extractLsb'_eq_of_toNat ?q, getLsbD_eq_of_toNat ?ns,
    getLsbD_eq_of_toNat ?rsv, extractLsb'_eq_of_toNat ?sh, extractLsb'_eq_of_toNat ?rsv2⟩
  all_goals omega

/-- Only a `reserved` instruction, which is not well formed, could hold a word that decodes to something else. -/
theorem decodeWord_encodeWord {o : AccOp} (h : o.ok = true) : decodeWord (encodeWord o) = o := by
  cases o with
  | add f | sub f | and f | or f | xor f | sll f | srl f | sra f | min f | max f | abs f | slt f | clz f | jr f | aadd f | aswp f =>
    unfold encodeWord decodeWord
    rw [opcode_wordA, fmtAOf_wordA]
    rfl
  | addi f | andi f | ori f | lui f | slli f | srli f | srai f | srar f | lw f | lh f | sw f | sh f | csrr f | csrw f =>
    unfold encodeWord decodeWord
    rw [opcode_wordB, fmtBOf_wordB]
    rfl
  | beqz f | bnez f | bltz f | bgez f | j f | call f | rpt f | wait f | reti f =>
    unfold encodeWord decodeWord
    rw [opcode_wordC, fmtCOf_wordC]
    rfl
  | mac f | msu f | mac2m f | mac4m f | aclr f | rnd f | ard f | awr f | ashr f =>
    unfold encodeWord decodeWord
    rw [opcode_wordD, fmtDOf_wordD]
    rfl
  | reserved w => exact absurd h Bool.false_ne_true

/-- Settles O9: a word is rebuilt from its opcode and fields, and an encoded word has the opcode and the fields of its instruction. -/
theorem accordWordsRoundTrip : Obligations.AccordWordsRoundTrip :=
  ⟨encodeWord_decodeWord, fun _ => decodeWord_encodeWord⟩

/-- Settles O10: each word is evaluated. -/
theorem accordWordsOfTheManual : Obligations.AccordWordsOfTheManual := by
  refine ⟨?nop, ?rpt, ?aclr, ?mac2m, ?rnd⟩
  all_goals decide

end Sys2Proof.Machine
end

section
/-! One instruction of an Accord core: what its state operations leave as they were, what one issue makes of the core, and what the boundary behind it can still
change (R308, R312, R314-R317). -/

namespace Sys2Proof.Machine

/-! ### Cores and clusters -/

@[simp] theorem coreOf_setCore_self (n : Nat) (c : Core) (s : State) : coreOf (setCore n c s) n = c := tgetD_tput_self ..

theorem coreOf_setCore_ne {n k : Nat} (c : Core) (s : State) (h : k ≠ n) : coreOf (setCore n c s) k = coreOf s k := tgetD_tput_ne _ _ _ h

@[simp] theorem coreOf_setAccCluster (n k : Nat) (m : AccCluster) (s : State) : coreOf (setAccCluster k m s) n = coreOf s n := rfl

@[simp] theorem accClusterOf_setCore (n k : Nat) (c : Core) (s : State) : accClusterOf (setCore n c s) k = accClusterOf s k := rfl

@[simp] theorem accClusterOf_setAccCluster_self (n : Nat) (m : AccCluster) (s : State) : accClusterOf (setAccCluster n m s) n = m := tgetD_tput_self ..

theorem accClusterOf_setAccCluster_ne {n k : Nat} (m : AccCluster) (s : State) (h : k ≠ n) :
    accClusterOf (setAccCluster n m s) k = accClusterOf s k := tgetD_tput_ne _ _ _ h

theorem accordOnly_setCore (n : Nat) (c : Core) (s : State) : AccordOnly n s (setCore n c s) :=
  ⟨fun _ h => coreOf_setCore_ne c s h, rfl, rfl, rfl, rfl, rfl, rfl, rfl, rfl, rfl, rfl, rfl, rfl, rfl, rfl, rfl, rfl⟩

/-- The state that an instruction of core n leaves: its core, and its cluster's scratchpad. -/
def putAccord (n : Nat) (c : Core) (m : AccCluster) (s : State) : State := setCore n c (setAccCluster (n / 16) m s)

section
variable (n : Nat) (c : Core) (m : AccCluster) (s : State)

@[simp] theorem coreOf_putAccord_self : coreOf (putAccord n c m s) n = c := coreOf_setCore_self ..

@[simp] theorem accClusterOf_putAccord_self : accClusterOf (putAccord n c m s) (n / 16) = m := accClusterOf_setAccCluster_self ..

theorem accClusterOf_putAccord_ne {k : Nat} (h : k ≠ n / 16) : accClusterOf (putAccord n c m s) k = accClusterOf s k :=
  accClusterOf_setAccCluster_ne m s h

theorem accordOnly_putAccord : AccordOnly n s (putAccord n c m s) := accordOnly_setCore n c (setAccCluster (n / 16) m s)

theorem clustersKept_putAccord : ClustersKept s (putAccord n c (accClusterOf s (n / 16)) s) := by
  intro k
  by_cases hk : k = n / 16
  · rw [hk, accClusterOf_putAccord_self]
  · exact accClusterOf_putAccord_ne n c _ s hk

end

/-! ### Registers, accumulators and the load in flight -/

theorem Core.g_setG (c : Core) (d : BitVec 5) (v : Word) (r : BitVec 5) :
    (c.setG d v).g r = if r = 0 then 0 else if r = d then v else c.g r := by
  unfold Core.g Core.setG
  by_cases hr : r = 0
  · rw [if_pos hr, if_pos hr]
  rw [if_neg hr, if_neg hr, if_neg hr]
  by_cases hd : d = 0
  · rw [if_pos hd, if_neg fun h => hr (h.trans hd)]
  rw [if_neg hd]
  by_cases hrd : r = d
  · rw [if_pos hrd, hrd, tgetD_tput_self]
  · rw [if_neg hrd]
    exact tgetD_tput_ne _ _ _ fun h => hrd (BitVec.eq_of_toNat_eq h)

theorem Core.a_setA (c : Core) (i : BitVec 2) (v : BitVec 72) (k : BitVec 2) : (c.setA i v).a k = if k = i then v else c.a k := by
  unfold Core.setA Core.a
  by_cases hk : k = i
  · simp [hk]
  · have hkey : k.toNat ≠ i.toNat := fun h => hk (BitVec.eq_of_toNat_eq h)
    simp [hk, tgetD_tput_ne _ _ _ hkey]

/-- A register write changes nothing but the registers. -/
theorem Core.setG_eq (c : Core) (d : BitVec 5) (v : Word) : c.setG d v = { c with regs := (c.setG d v).regs } := by
  unfold Core.setG
  split <;> rfl

theorem Core.commit_of_load_none {c : Core} (h : c.load = none) : c.commit = c := by
  unfold Core.commit
  rw [h]

theorem Core.commit_of_load_some {c : Core} {d : BitVec 5} {v : Word} (h : c.load = some (d, v)) : c.commit = { c.setG d v with load := none } := by
  unfold Core.commit
  rw [h]

theorem Core.commit_eq (c : Core) : c.commit = { c with regs := c.commit.regs, load := none } := by
  cases hload : c.load with
  | none => rw [Core.commit_of_load_none hload, ← hload]
  | some x =>
    rw [Core.commit_of_load_some hload]
    exact congrArg (fun d : Core => { d with load := none }) (c.setG_eq x.1 x.2)

theorem Core.g_commit (c : Core) (r : BitVec 5) : c.commit.g r = c.gKept r := by
  unfold Core.gKept
  cases hload : c.load with
  | none =>
    rw [Core.commit_of_load_none hload]
    unfold Core.g
    split <;> rfl
  | some x =>
    rw [Core.commit_of_load_some hload]
    exact c.g_setG x.1 x.2 r

/-! ### The boundary behind an instruction -/

/-- The registers, the accumulators, the load in flight and the control registers of c are those of d. -/
def Core.FilesKept (c d : Core) : Prop := d.regs = c.regs ∧ d.acc = c.acc ∧ d.load = c.load ∧ c.sameControl d

theorem Core.sameControl.trans {c d e : Core} (h : c.sameControl d) (h' : d.sameControl e) : c.sameControl e := by
  simp_all [Core.sameControl]

theorem Core.FilesKept.refl (c : Core) : c.FilesKept c := ⟨rfl, rfl, rfl, rfl, rfl, rfl, rfl, rfl, rfl, rfl, rfl, rfl⟩

theorem Core.FilesKept.trans {c d e : Core} (h : c.FilesKept d) (h' : d.FilesKept e) : c.FilesKept e := by
  obtain ⟨hregs, hacc, hload, hcontrol⟩ := h
  obtain ⟨hregs', hacc', hload', hcontrol'⟩ := h'
  exact ⟨hregs'.trans hregs, hacc'.trans hacc, hload'.trans hload, hcontrol.trans hcontrol'⟩

theorem Core.FilesKept.g {c d : Core} (h : c.FilesKept d) (r : BitVec 5) : d.g r = c.g r := by
  unfold Core.g
  rw [h.1]

theorem Core.FilesKept.a {c d : Core} (h : c.FilesKept d) (k : BitVec 2) : d.a k = c.a k := by
  unfold Core.a
  rw [h.2.1]

theorem Core.interruptible_iff (c : Core) : c.interruptible = true ↔ c.branch = none ∧ c.load = none ∧ c.rep = 0 := by
  simp [Core.interruptible, and_assoc]

theorem Core.takeIrq_cases (c : Core) :
    c.takeIrq = c ∨ c.interruptible = true ∧ ∃ k irq, c.takeIrq = { c.enter k with irq := irq } := by
  unfold Core.takeIrq
  split
  case isTrue h =>
    simp only [Bool.and_eq_true] at h
    exact .inr ⟨h.1.2, _, _, rfl⟩
  case isFalse => exact .inl rfl

/-- At its boundary a core halts, takes an interrupt where that is allowed, or stays as it is. -/
theorem Core.boundary_cases (c : Core) :
    c.boundary = c ∨ c.boundary = { c with halted := true } ∨ c.interruptible = true ∧ ∃ k irq, c.boundary = { c.enter k with irq := irq } := by
  unfold Core.boundary
  split
  · exact .inr (.inl rfl)
  · split
    · exact .inl rfl
    · exact c.takeIrq_cases.imp_right .inr

theorem Core.takeIrq_of_quiet {c : Core} (h : c.ie = false ∨ c.pendingIrq = 0) : c.takeIrq = c := by
  unfold Core.takeIrq
  rcases h with h | h <;> simp [h]

theorem Core.boundary_of_quiet {c : Core} (hhalt : c.haltReq = false) (h : c.ie = false ∨ c.pendingIrq = 0) : c.boundary = c := by
  unfold Core.boundary
  rw [hhalt, Core.takeIrq_of_quiet h]
  simp

theorem Core.boundary_of_uninterruptible {c : Core} (h : c.interruptible = false) : c.boundary = c := by
  unfold Core.boundary Core.takeIrq
  simp [h]

theorem Core.boundary_of_halt {c : Core} (hhalt : c.haltReq = true) (h : c.interruptible = true) : c.boundary = { c with halted := true } := by
  unfold Core.boundary
  simp [hhalt, h]

theorem Core.enter_of_load_none {c : Core} (h : c.load = none) (k : Nat) :
    c.enter k = { c with epc := c.pc, cause := BitVec.ofNat 5 k, puser := c.user, user := false, ie := false, counting := false, cycle := c.cycle + 1,
                         pc := c.vbase + BitVec.ofNat 32 (0x40 * k), branch := none, rep := 0, waiting := false } := by
  unfold Core.enter
  rw [Core.commit_of_load_none h]

theorem Core.filesKept_boundary (c : Core) : c.FilesKept c.boundary := by
  rcases c.boundary_cases with h | h | ⟨hint, k, irq, h⟩
  · rw [h]; exact .refl c
  · rw [h]; exact .refl c
  · obtain ⟨-, hload, -⟩ := c.interruptible_iff.mp hint
    rw [h, Core.enter_of_load_none hload]
    exact .refl c

/-- An interrupt is taken only where neither a transfer nor a repetition is in progress, and starts none. -/
theorem Core.boundary_progress (c : Core) : c.boundary.branch = c.branch ∧ c.boundary.rep = c.rep ∧ c.boundary.haltReq = c.haltReq := by
  rcases c.boundary_cases with h | h | ⟨hint, k, irq, h⟩
  · rw [h]; exact ⟨rfl, rfl, rfl⟩
  · rw [h]; exact ⟨rfl, rfl, rfl⟩
  · obtain ⟨hbranch, hload, hrep⟩ := c.interruptible_iff.mp hint
    rw [h, Core.enter_of_load_none hload]
    exact ⟨hbranch.symm, hrep.symm, rfl⟩

theorem Core.filesKept_advance (c d : Core) : d.FilesKept (c.advance d) := by
  unfold Core.advance
  repeat' split
  all_goals exact .refl d

theorem Core.advance_of_branch_none {c : Core} (h : c.branch = none) (d : Core) : c.advance d = { d with pc := c.pc + 4 } := by
  unfold Core.advance
  rw [h]

/-! ### One issue -/

/-- A core apart from the transfer and the repetition that it is in. -/
def Core.alone (c : Core) : Core := { c with rep := 0, branch := none }

/-- The core on which an instruction has its effect: a load in flight is set aside as well (R312). -/
def Core.operands (c : Core) : Core := { c.alone with load := none }

/-- The core after an instruction of core c whose effect gave d: the load in flight is written last, and the instruction is counted (R312, R331). -/
def Core.completed (c d : Core) : Core :=
  { d with regs := { d with load := c.load }.commit.regs, cycle := c.cycle + 1, icount := if c.counts then c.icount + 1 else d.icount }

theorem Core.g_completed (c d : Core) (r : BitVec 5) : (c.completed d).g r = { d with load := c.load }.gKept r := Core.g_commit _ r

/-- User code lies in its code window, and within its budget while that counts (R309, R331). -/
def Core.MayFetch (c : Core) : Prop :=
  c.user = true → inWindow c.codeBase c.codeLimit c.pc.toNat 4 = true ∧ (c.counting = true → c.icount.toNat + 1 ≤ c.ibudget.toNat)

theorem Core.clear_iff (c : Core) : c.clear = true ↔ c.halted = false ∧ c.waiting = false ∧ c.rep ≤ 1 ∧ c.MayFetch := by
  unfold Core.clear Core.MayFetch
  cases c.halted <;> cases c.waiting <;> cases c.user <;> cases c.counting <;> simp

theorem Core.MayFetch.window {c : Core} (h : c.MayFetch) : (c.user && !inWindow c.codeBase c.codeLimit c.pc.toNat 4) = false := by
  cases huser : c.user with
  | false => rfl
  | true => simp [(h huser).1]

theorem Core.MayFetch.budget {c : Core} (h : c.MayFetch) : (c.counts && decide (c.ibudget.toNat < c.icount.toNat + 1)) = false := by
  unfold Core.counts
  cases huser : c.user with
  | false => rfl
  | true =>
    cases hcount : c.counting with
    | false => rfl
    | true =>
      have hroom := (h huser).2 hcount
      simp only [Bool.and_self, Bool.true_and, decide_eq_false_iff_not]
      omega

/-- The instruction is well formed, and the core may issue it (R309, R311). -/
def AccOp.Legal (o : AccOp) (c : Core) : Prop := o.ok = true ∧ (o.isCsr = true → c.user = false)

section
variable {o : AccOp} {n : Nat} {c : Core} {m : AccCluster} (hfetch : c.MayFetch)
include hfetch

theorem issue_of_illegal (h : ¬ o.Legal c) : c.issue o n m = .error 8 := by
  have hill : (!o.ok || (c.user && o.isCsr)) = true := by
    cases hok : o.ok with
    | false => rfl
    | true =>
      obtain ⟨hcsr, huser⟩ : o.isCsr = true ∧ c.user = true := by simpa [AccOp.Legal, hok] using h
      simp [hcsr, huser]
  unfold Core.issue
  simp only [hfetch.window, hill]
  rfl

theorem issue_of_legal (h : o.Legal c) : c.issue o n m = (o.run n { c with load := none } m).map fun r => (c.completed r.1, r.2) := by
  obtain ⟨hok, hcsr⟩ := h
  have hleg : (!o.ok || (c.user && o.isCsr)) = false := by
    cases hsup : o.isCsr with
    | false => simp [hok]
    | true => simp [hok, hcsr hsup]
  unfold Core.issue
  simp only [hfetch.window, hfetch.budget, hleg, Bool.false_eq_true, if_false]
  cases o.run n { c with load := none } m with
  | error e => rfl
  | ok r =>
    refine congrArg (fun d : Core => Except.ok (d, r.2)) ?_
    rw [Core.commit_eq]
    unfold Core.completed
    split <;> rfl

end

/-! ### The step of a core -/

theorem badChain_of_branch_none {c c1 : Core} (h : c.branch = none ∨ c1.branch = none) : badChain c c1 = false := by
  unfold badChain
  rcases h with h | h
  · rw [h]
  · rw [h]
    cases c.branch <;> rfl

section
variable {o : AccOp} {n : Nat} {s : State} {c1 : Core} {m1 : AccCluster} (hrep : (coreOf s n).rep ≤ 1)
include hrep

theorem repeated_of_issued (hissue : (coreOf s n).alone.issue o n (accClusterOf s (n / 16)) = .ok (c1, m1)) :
    Core.repeated o n ((coreOf s n).rep - 1) { coreOf s n with rep := 0, branch := none } (accClusterOf s (n / 16)) = (c1, m1, none) := by
  rw [Nat.sub_eq_zero_of_le hrep]
  unfold Core.repeated
  rw [show ({ coreOf s n with rep := 0, branch := none } : Core) = (coreOf s n).alone from rfl, hissue]

theorem repeated_of_fault {e : Nat} (hissue : (coreOf s n).alone.issue o n (accClusterOf s (n / 16)) = .error e) :
    Core.repeated o n ((coreOf s n).rep - 1) { coreOf s n with rep := 0, branch := none } (accClusterOf s (n / 16)) =
      ((coreOf s n).alone, accClusterOf s (n / 16), some e) := by
  rw [Nat.sub_eq_zero_of_le hrep]
  unfold Core.repeated
  rw [show ({ coreOf s n with rep := 0, branch := none } : Core) = (coreOf s n).alone from rfl, hissue]

theorem stepCore_of_issued (hissue : (coreOf s n).alone.issue o n (accClusterOf s (n / 16)) = .ok (c1, m1)) (hbranch : c1.branch = none) :
    stepCore o n s = putAccord n ((coreOf s n).advance c1).boundary m1 s := by
  unfold stepCore
  simp only [repeated_of_issued hrep hissue, badChain_of_branch_none (.inr hbranch), hbranch]
  rfl

theorem stepCore_of_transfer (hissue : (coreOf s n).alone.issue o n (accClusterOf s (n / 16)) = .ok (c1, m1)) (hnone : (coreOf s n).branch = none)
    (hbranch : c1.branch.isSome = true) : stepCore o n s = putAccord n { c1 with pc := (coreOf s n).pc + 4 } m1 s := by
  have hbusy : Core.interruptible { c1 with pc := (coreOf s n).pc + 4 } = false := by
    simp [Core.interruptible, Option.isNone_eq_false_iff.mpr hbranch]
  unfold stepCore
  simp only [repeated_of_issued hrep hissue, badChain_of_branch_none (.inl hnone), hbranch, Core.boundary_of_uninterruptible hbusy]
  rfl

theorem stepCore_of_fault {e : Nat} (hissue : (coreOf s n).alone.issue o n (accClusterOf s (n / 16)) = .error e) (he : e ≠ 12) :
    stepCore o n s = putAccord n ((coreOf s n).alone.enter e) (accClusterOf s (n / 16)) s := by
  unfold stepCore coreTakesFault
  simp only [repeated_of_fault hrep hissue, if_neg he]
  rfl

end

/-! ### The row of an instruction -/

/-- Row i issues instruction o on core n, which is clear. -/
structure Issues (i : Instr) (o : AccOp) (n : CoreNo) (s : State) : Prop where
  awake : Awake s
  clear : (coreOf s n).clear = true
  exec_eq : exec i s = done s (issueOp n.val o s)

theorem exec_putAccord {i : Instr} {n : Nat} {s : State} {d : Core} {m : AccCluster} (hawake : Awake s)
    (hexec : exec i s = done s (putAccord n d m s)) : exec i s = .next (putAccord n d m s) :=
  hexec.trans (done_awake _ hawake)

namespace Issues
variable {i : Instr} {o : AccOp} {n : CoreNo} {s : State} (hi : Issues i o n s)
include hi

theorem exec_stepCore : exec i s = done s (stepCore o n.val s) := by
  obtain ⟨hhalted, hwaiting, -, -⟩ := (Core.clear_iff _).mp hi.clear
  rw [hi.exec_eq]
  unfold issueOp
  simp [hhalted, hwaiting]

section
variable {c c1 : Core} {m1 : AccCluster} (hc : coreOf s n = c) (hlegal : o.Legal c)
  (hrun : o.run n c.operands (accClusterOf s (n.val / 16)) = .ok (c1, m1))
include hc hlegal hrun

theorem issue_eq : c.alone.issue o n (accClusterOf s (n.val / 16)) = .ok (c.completed c1, m1) := by
  obtain ⟨-, -, -, hfetch⟩ := (Core.clear_iff _).mp (hc ▸ hi.clear)
  refine (issue_of_legal (c := c.alone) hfetch hlegal).trans ?_
  rw [show { c.alone with load := none } = c.operands from rfl, hrun]
  rfl

theorem ends (hbranch : c1.branch = none) : exec i s = .next (putAccord n (c.advance (c.completed c1)).boundary m1 s) := by
  have hissue := hi.issue_eq hc hlegal hrun
  subst hc
  obtain ⟨-, -, hrep, -⟩ := (Core.clear_iff _).mp hi.clear
  exact exec_putAccord hi.awake (by rw [hi.exec_stepCore, stepCore_of_issued hrep hissue hbranch])

/-- An instruction that is no transfer leaves what its effect and the load in flight gave. -/
theorem completes (hbranch : c1.branch = none) :
    ∃ d, exec i s = .next (putAccord n d m1 s) ∧ (∀ r, d.g r = { c1 with load := c.load }.gKept r) ∧ d.acc = c1.acc ∧ d.load = c1.load ∧
      c1.sameControl d := by
  have hkept := (c.filesKept_advance (c.completed c1)).trans (Core.filesKept_boundary _)
  have ⟨_, hacc, hload, hcontrol⟩ := hkept
  exact ⟨_, hi.ends hc hlegal hrun hbranch, fun r => (hkept.g r).trans (Core.g_completed _ _ r), hacc, hload, hcontrol⟩

theorem starts_transfer (hnone : c.branch = none) (hbranch : c1.branch.isSome = true) :
    exec i s = .next (putAccord n { c.completed c1 with pc := c.pc + 4 } m1 s) := by
  have hissue := hi.issue_eq hc hlegal hrun
  subst hc
  obtain ⟨-, -, hrep, -⟩ := (Core.clear_iff _).mp hi.clear
  exact exec_putAccord hi.awake (by rw [hi.exec_stepCore, stepCore_of_transfer hrep hissue hnone hbranch])

end

section
variable {c : Core} (hc : coreOf s n = c)
include hc

theorem entered {e : Nat} (hissue : c.alone.issue o n (accClusterOf s (n.val / 16)) = .error e) (he : e ≠ 12) :
    ∃ t, exec i s = .next t ∧ AccordOnly n s t ∧ ClustersKept s t ∧ Entered c (coreOf t n) e := by
  subst hc
  obtain ⟨-, -, hrep, -⟩ := (Core.clear_iff _).mp hi.clear
  refine ⟨_, exec_putAccord hi.awake (by rw [hi.exec_stepCore, stepCore_of_fault hrep hissue he]), accordOnly_putAccord .., clustersKept_putAccord _ _ _, ?_⟩
  rw [coreOf_putAccord_self]
  unfold Core.enter
  rw [Core.commit_eq]
  exact ⟨rfl, rfl, rfl, rfl, rfl, rfl, rfl, rfl, rfl, rfl⟩

theorem entered_of_illegal (h : ¬ o.Legal c) :
    ∃ t, exec i s = .next t ∧ AccordOnly n s t ∧ ClustersKept s t ∧ Entered c (coreOf t n) 8 := by
  obtain ⟨-, -, -, hfetch⟩ := (Core.clear_iff _).mp (hc ▸ hi.clear)
  exact hi.entered hc (issue_of_illegal (c := c.alone) hfetch h) (by decide)

theorem entered_of_error {e : Nat} (hlegal : o.Legal c) (hrun : o.run n c.operands (accClusterOf s (n.val / 16)) = .error e) (he : e ≠ 12) :
    ∃ t, exec i s = .next t ∧ AccordOnly n s t ∧ ClustersKept s t ∧ Entered c (coreOf t n) e := by
  obtain ⟨-, -, -, hfetch⟩ := (Core.clear_iff _).mp (hc ▸ hi.clear)
  refine hi.entered hc ((issue_of_legal (c := c.alone) hfetch hlegal).trans ?_) he
  rw [show { c.alone with load := none } = c.operands from rfl, hrun]
  rfl

end

end Issues

/-! ### What an effect writes -/

theorem Core.sameControl_operands (c : Core) (regs : Tbl Word) (load : Option (BitVec 5 × Word)) :
    c.sameControl { c.operands with regs := regs, load := load } := ⟨rfl, rfl, rfl, rfl, rfl, rfl, rfl, rfl, rfl⟩

theorem Core.gKept_operands (c : Core) (r : BitVec 5) : { c.operands with load := c.load }.gKept r = c.gKept r := rfl

theorem Core.gKept_setG (c : Core) (d : BitVec 5) (v : Word) (r : BitVec 5) :
    { c.operands.setG d v with load := c.load }.gKept r = c.gAfter d v r := by
  have hg : Core.g { c.operands.setG d v with load := c.load } r = if r = 0 then 0 else if r = d then v else c.g r := c.operands.g_setG d v r
  unfold Core.gKept Core.gAfter
  by_cases hr : r = 0
  · rw [if_pos hr, if_pos hr]
  rw [if_neg hr] at hg
  rw [if_neg hr, if_neg hr]
  cases c.load with
  | none => exact hg
  | some x => exact congrArg (fun w => if r = x.1 then x.2 else w) hg

namespace Issues
variable {i : Instr} {o : AccOp} {n : CoreNo} {s : State} (hi : Issues i o n s) {c : Core} (hc : coreOf s n = c) (hlegal : o.Legal c)
include hi hc hlegal

theorem writesReg {d : BitVec 5} {u v : Word}
    (hrun : o.run n c.operands (accClusterOf s (n.val / 16)) = c.operands.put (accClusterOf s (n.val / 16)) d u) (hu : u = v) :
    WritesReg i n s d v := by
  subst hu
  unfold Core.put at hrun
  have hset := c.operands.setG_eq d u
  obtain ⟨t, hnext, hg, hacc, -, hcontrol⟩ := hi.completes hc hlegal hrun (by rw [hset]; rfl)
  refine ⟨_, hnext, accordOnly_putAccord .., clustersKept_putAccord _ _ _, ?_⟩
  rw [coreOf_putAccord_self, hc]
  rw [hset] at hacc hcontrol
  exact ⟨hacc, (Core.sameControl_operands _ _ _).trans hcontrol, fun r => (hg r).trans (Core.gKept_setG _ _ _ _)⟩

/-- The pointers of a paired multiply-accumulate may have been advanced on the way. -/
theorem writesAcc {c1 : Core} {a : BitVec 2} {u v : BitVec 72} {regs : BitVec 5 → Word}
    (hrun : o.run n c.operands (accClusterOf s (n.val / 16)) = .ok (c1.setA a u, accClusterOf s (n.val / 16))) (hu : u = v)
    (hc1 : c1 = { c.operands with regs := c1.regs }) (hregs : ∀ r, { c1 with load := c.load }.gKept r = regs r) :
    WritesAcc i n s a v regs := by
  subst hu
  obtain ⟨t, hnext, hg, hacc, -, hcontrol⟩ := hi.completes hc hlegal hrun (by rw [hc1]; rfl)
  refine ⟨_, hnext, accordOnly_putAccord .., clustersKept_putAccord _ _ _, ?_⟩
  rw [coreOf_putAccord_self, hc]
  refine ⟨?control, fun k => ?acc, fun r => (hg r).trans (hregs r)⟩
  case control =>
    have hsame : c.sameControl c1 := by
      rw [hc1]
      exact Core.sameControl_operands _ _ _
    exact hsame.trans hcontrol
  case acc =>
    have hread : t.a k = (c1.setA a u).a k := by unfold Core.a; rw [hacc]
    rw [hread, Core.a_setA, hc1]
    rfl

theorem loadsReg {m1 : AccCluster} {d : BitVec 5} {u v : Word}
    (hrun : o.run n c.operands (accClusterOf s (n.val / 16)) = c.operands.late m1 d u) (hu : u = v) : LoadsReg i n s d v := by
  subst hu
  unfold Core.late at hrun
  obtain ⟨t, hnext, hg, hacc, hload, hcontrol⟩ := hi.completes hc hlegal hrun (show c.operands.branch = none from rfl)
  refine ⟨_, hnext, accordOnly_putAccord .., ?_⟩
  rw [coreOf_putAccord_self, hc]
  exact ⟨hload, hacc, (Core.sameControl_operands _ _ _).trans hcontrol, fun r => (hg r).trans (c.gKept_operands r)⟩

end Issues

/-! ### What a store writes -/

theorem getD_leBytes {n j : Nat} (h : j < n) (x : Nat) : (leBytes n x).getD j 0 = BitVec.ofNat 8 (x / 256 ^ j) := by
  induction n generalizing j x with
  | zero => omega
  | succ n ih =>
    cases j with
    | zero => simp [leBytes]
    | succ j =>
      rw [leBytes, List.getD_cons_succ, ih (by omega), Nat.div_div_eq_div_mul, Nat.pow_succ']

theorem mread_put_in {m : AccCluster} {a k j : Nat} (hwf : Memory.wf m.scratch = true) (h : j < k) (v : Nat) :
    mread (m.put a k v).scratch (a + j) = BitVec.ofNat 8 (v / 256 ^ j) :=
  (mread_mwriteN_in hwf (by rwa [length_leBytes])).trans (getD_leBytes h v)

theorem mread_put_out {m : AccCluster} {a k x : Nat} (hwf : Memory.wf m.scratch = true) (h : x < a ∨ a + k ≤ x) (v : Nat) :
    mread (m.put a k v).scratch x = mread m.scratch x :=
  mread_mwriteN_out hwf (by rwa [length_leBytes])

/-- A store of v may write the low k bytes of another number u. -/
theorem Issues.storesBytes {i : Instr} {o : AccOp} {n : CoreNo} {s : State} (hi : Issues i o n s) {c : Core} (hc : coreOf s n = c) (hlegal : o.Legal c) {c1 : Core}
    {a k u v : Nat} (hwf : Memory.wf (accClusterOf s (n.val / 16)).scratch = true)
    (hrun : o.run n c.operands (accClusterOf s (n.val / 16)) = .ok (c1, (accClusterOf s (n.val / 16)).put a k u)) (hbranch : c1.branch = none)
    (hu : ∀ j, j < k → BitVec.ofNat 8 (u / 256 ^ j) = BitVec.ofNat 8 (v / 256 ^ j)) : StoresBytes i n s a k v := by
  obtain ⟨d, hnext, -⟩ := hi.completes hc hlegal hrun hbranch
  refine ⟨_, hnext, accordOnly_putAccord .., ?written, ?others, fun _ hk => accClusterOf_putAccord_ne _ _ _ _ hk⟩
  case written =>
    intro j hj
    rw [accClusterOf_putAccord_self, mread_put_in hwf hj, hu j hj]
  case others =>
    intro x hx
    rw [accClusterOf_putAccord_self, mread_put_out hwf hx]

/-! ### Accesses (R317, R322, R329) -/

theorem Core.access_operands (c : Core) (m : AccCluster) (read write : Bool) (a n align : Nat) :
    c.operands.access m read write a n align = c.access m read write a n align := rfl

theorem Core.access_bind {c : Core} {m : AccCluster} {read write : Bool} {a n align : Nat} (h : c.access m read write a n align = .ok ())
    (f : Unit → AccRes) : (c.access m read write a n align >>= f) = f () := by
  rw [h]
  rfl

theorem Core.access_bind_untouchable {c : Core} {write : Bool} {a n : Nat} (h : c.mayTouch write a n = false) (m : AccCluster) (read : Bool)
    (align : Nat) (f : Unit → AccRes) : (c.access m read write a n align >>= f) = .error 9 := by
  unfold Core.access
  rw [h]
  rfl

theorem Core.access_bind_misaligned {c : Core} {write : Bool} {a n align : Nat} (htouch : c.mayTouch write a n = true) (h : a % align ≠ 0)
    (m : AccCluster) (read : Bool) (f : Unit → AccRes) : (c.access m read write a n align >>= f) = .error 10 := by
  unfold Core.access
  rw [htouch, if_neg (by simp), if_pos (.inl h)]
  rfl

end Sys2Proof.Machine
end

section
/-! The numbers of the Accord core: the model's saturation, narrowing, shifts and parts are the ones that the statements write out (R311, R319-R321). -/

namespace Sys2Proof.Machine

/-! ### Saturation (R320) -/

theorem satTo_eq_clampSigned (w : Nat) (x : Int) : satTo w x = clampSigned w x := by
  have hpos : (0 : Int) < 2 ^ (w - 1) := Int.pow_pos (by decide)
  unfold satTo clampI clampSigned
  push_cast
  generalize (2 : Int) ^ (w - 1) = p at hpos ⊢
  split
  · omega
  · split <;> omega

theorem fit32_eq_result32 (ns : Bool) (x : Int) : fit32 ns x = result32 ns x := by
  unfold fit32 result32
  rw [satTo_eq_clampSigned]
  exact (apply_ite (BitVec.ofInt 32) ..).symm

theorem fit72_eq_result72 (ns : Bool) (x : Int) : fit72 ns x = result72 ns x := by
  unfold fit72 result72
  rw [satTo_eq_clampSigned]
  exact (apply_ite (BitVec.ofInt 72) ..).symm

/-! ### Shifts, minimum, maximum and leading zeros -/

theorem ushiftRight_eq_ofNat_div (x : Word) (k : Nat) : x >>> k = BitVec.ofNat 32 (x.toNat / 2 ^ k) := by
  rw [← Nat.shiftRight_eq_div_pow, ← BitVec.toNat_ushiftRight, BitVec.ofNat_toNat, BitVec.setWidth_eq]

theorem sshiftRight_eq_ofInt_div (x : Word) (k : Nat) : x.sshiftRight k = BitVec.ofInt 32 (x.toInt / 2 ^ k) := by
  unfold BitVec.sshiftRight
  rw [Int.shiftRight_eq_div_pow]
  norm_cast

theorem ite_slt_eq_min (x y : Word) : (if x.slt y then x else y) = BitVec.ofInt 32 (min x.toInt y.toInt) := by
  rw [BitVec.slt_eq_decide]
  split
  case isTrue h => rw [Int.min_eq_left (Int.le_of_lt (of_decide_eq_true h)), BitVec.ofInt_toInt]
  case isFalse h => rw [Int.min_eq_right (Int.not_lt.mp (mt decide_eq_true h)), BitVec.ofInt_toInt]

theorem ite_slt_eq_max (x y : Word) : (if x.slt y then y else x) = BitVec.ofInt 32 (max x.toInt y.toInt) := by
  rw [BitVec.slt_eq_decide]
  split
  case isTrue h => rw [Int.max_eq_right (Int.le_of_lt (of_decide_eq_true h)), BitVec.ofInt_toInt]
  case isFalse h => rw [Int.max_eq_left (Int.not_lt.mp (mt decide_eq_true h)), BitVec.ofInt_toInt]

theorem ite_slt_eq_ite_lt (x y : Word) : (if x.slt y then (1 : Word) else 0) = if x.toInt < y.toInt then 1 else 0 := by
  simp only [BitVec.slt_eq_decide, decide_eq_true_eq]

theorem log2Below_eq_log2 {n x : Nat} (hx : x ≠ 0) (h : x < 2 ^ (n + 1)) : log2Below n x = Nat.log2 x := by
  induction n with
  | zero =>
    obtain rfl : x = 1 := by omega
    rfl
  | succ n ih =>
    unfold log2Below
    split
    case isTrue hle => exact ((Nat.log2_eq_iff hx).mpr ⟨hle, h⟩).symm
    case isFalse hlt => exact ih (by omega)

theorem ofNat_leadingZeros (x : Word) : BitVec.ofNat 32 (leadingZeros x) = BitVec.ofNat 32 (if x = 0 then 32 else 31 - Nat.log2 x.toNat) := by
  unfold leadingZeros
  split
  · rfl
  case isFalse h =>
    have hx : x.toNat ≠ 0 := fun h0 => h (BitVec.eq_of_toNat_eq h0)
    rw [log2Below_eq_log2 hx x.isLt]
    congr 1
    omega

theorem zeroExtend_shiftLeft_eq_append (x : BitVec 16) : x.zeroExtend 32 <<< 16 = x ++ (0 : BitVec 16) := by
  apply BitVec.eq_of_toNat_eq
  have hx := x.isLt
  rw [toNat_append_eq_add]
  simp [BitVec.toNat_shiftLeft, Nat.shiftLeft_eq]
  omega

/-! ### Parts of an accumulator, and signed parts of a word -/

theorem signExtend_high_part (a : BitVec 72) : (a.extractLsb' 64 8).signExtend 32 = BitVec.ofInt 32 (a.toInt / 2 ^ 64) := by
  unfold BitVec.signExtend
  congr 1
  have hlt := a.isLt
  rw [BitVec.toInt_eq_toNat_cond, BitVec.toInt_eq_toNat_cond, BitVec.extractLsb'_toNat, Nat.shiftRight_eq_div_pow]
  split <;> split <;> omega

theorem sext_eq_toInt {w : Nat} (hw : 0 < w) (x : Nat) : sext w x = (BitVec.ofNat w x).toInt := by
  obtain ⟨k, rfl⟩ : ∃ k, w = k + 1 := ⟨w - 1, by omega⟩
  unfold sext
  rw [BitVec.toInt_eq_toNat_cond, BitVec.toNat_ofNat, Nat.add_sub_cancel, Nat.pow_succ]
  split <;> split <;> omega

theorem leNat_mreadN_lt (m : Memory) (a n : Nat) : leNat (mreadN m a n) < 256 ^ n := by
  induction n generalizing a with
  | zero => simp [mreadN, leNat]
  | succ n ih =>
    have hbyte := (mread m a).isLt
    have hrest := ih (a + 1)
    rw [mreadN, leNat, Nat.pow_succ]
    omega

theorem leNat_mreadN_add (m : Memory) (a k n : Nat) : leNat (mreadN m a (k + n)) = leNat (mreadN m a k) + 256 ^ k * leNat (mreadN m (a + k) n) := by
  induction k generalizing a with
  | zero => simp [mreadN, leNat]
  | succ k ih =>
    rw [Nat.succ_add, mreadN, leNat, ih, mreadN, leNat, Nat.pow_succ, show a + 1 + k = a + (k + 1) by omega, Nat.mul_add, ← Nat.add_assoc, ← Nat.mul_assoc, Nat.mul_comm 256 (256 ^ k)]

/-- Bytes [lo, lo + n) of a number that memory holds are the number that those bytes hold. -/
theorem bits_leNat_mreadN (m : Memory) (a lo n rest : Nat) :
    bits (leNat (mreadN m a (lo + n + rest))) (8 * lo) (8 * n) = leNat (mreadN m (a + lo) n) := by
  have hpow (k : Nat) : 2 ^ (8 * k) = 256 ^ k := by rw [Nat.pow_mul]
  rw [bits, hpow, hpow, Nat.add_assoc, leNat_mreadN_add, leNat_mreadN_add, Nat.add_mul_div_left _ _ (Nat.pow_pos (by decide)),
    Nat.div_eq_of_lt (leNat_mreadN_lt m a lo), Nat.zero_add, Nat.add_mul_mod_self_left, Nat.mod_eq_of_lt (leNat_mreadN_lt ..)]

/-! ### The target of a transfer (R310) -/

theorem relTarget_eq (pc : Word) (off : BitVec 21) : relTarget pc off = pc + 4 + BitVec.ofInt 32 (4 * off.toInt) := by
  have hshift : off.signExtend 32 <<< 2 = BitVec.ofInt 32 (4 * off.toInt) := by
    rw [BitVec.ofInt_mul, BitVec.mul_comm, BitVec.shiftLeft_eq_mul_twoPow]
    rfl
  rw [relTarget, hshift]
  rfl

theorem toInt_eq_zero_iff (x : Word) : x.toInt = 0 ↔ x = 0 := by
  rw [← BitVec.toInt_inj]
  simp

end Sys2Proof.Machine
end

section
/-! What the instructions that compute leave (Table 11-5, R320, R321). -/

namespace Sys2Proof.Machine

/-- Settles O1: each effect puts one saturated result, and the rest of the device stays by `Issues.writesReg`. -/
theorem accordSaturatingResults : Obligations.AccordSaturatingResults := by
  intro n s f b hawake hclear
  have issues {i : Instr} {o : AccOp} (hexec : exec i s = done s (issueOp n.val o s)) : Issues i o n s := ⟨hawake, hclear, hexec⟩
  generalize hc : coreOf s n = c
  intro x y z
  refine ⟨fun h => ⟨?add, ?sub, ?sll⟩, fun h => ?abs, ?addi, fun h => ?slli⟩
  case add => exact (issues (o := .add f) rfl).writesReg hc ⟨h, nofun⟩ rfl (fit32_eq_result32 ..)
  case sub => exact (issues (o := .sub f) rfl).writesReg hc ⟨h, nofun⟩ rfl (fit32_eq_result32 ..)
  case sll => exact (issues (o := .sll f) rfl).writesReg hc ⟨h, nofun⟩ rfl (fit32_eq_result32 ..)
  case abs =>
    have habs : (x.natAbs : Int) = max x (-x) := by omega
    exact (issues (o := .abs f) rfl).writesReg hc ⟨h, nofun⟩ rfl ((fit32_eq_result32 ..).trans (congrArg (result32 f.ns) habs))
  case addi => exact (issues (o := .addi b) rfl).writesReg hc ⟨rfl, nofun⟩ rfl (fit32_eq_result32 ..)
  case slli =>
    have hshift : b.imm.toNat % 32 = b.imm.toNat := Nat.mod_eq_of_lt h
    refine (issues (o := .slli b) rfl).writesReg hc ⟨decide_eq_true h, nofun⟩ rfl ((fit32_eq_result32 ..).trans ?_)
    rw [hshift]
    rfl

/-- Settles O2: each effect puts one result; the two sides write it differently only for the shifts, the minimum and the maximum, CLZ and the parts. -/
theorem accordBitImmediateAndMoveResults : Obligations.AccordBitImmediateAndMoveResults := by
  refine ⟨?registers, ?immediates⟩
  case registers =>
    intro n s f hawake hclear
    have issues {i : Instr} {o : AccOp} (hexec : exec i s = done s (issueOp n.val o s)) : Issues i o n s := ⟨hawake, hclear, hexec⟩
    generalize hc : coreOf s n = c
    intro x y
    refine ⟨fun h => ⟨?and, ?or, ?xor, ?srl, ?sra, ?min, ?max, ?slt⟩, fun h => ?clz⟩
    case and => exact (issues (o := .and f) rfl).writesReg hc ⟨h, nofun⟩ rfl rfl
    case or => exact (issues (o := .or f) rfl).writesReg hc ⟨h, nofun⟩ rfl rfl
    case xor => exact (issues (o := .xor f) rfl).writesReg hc ⟨h, nofun⟩ rfl rfl
    case srl => exact (issues (o := .srl f) rfl).writesReg hc ⟨h, nofun⟩ rfl (ushiftRight_eq_ofNat_div ..)
    case sra => exact (issues (o := .sra f) rfl).writesReg hc ⟨h, nofun⟩ rfl (sshiftRight_eq_ofInt_div ..)
    case min => exact (issues (o := .min f) rfl).writesReg hc ⟨h, nofun⟩ rfl (ite_slt_eq_min ..)
    case max => exact (issues (o := .max f) rfl).writesReg hc ⟨h, nofun⟩ rfl (ite_slt_eq_max ..)
    case slt => exact (issues (o := .slt f) rfl).writesReg hc ⟨h, nofun⟩ rfl (ite_slt_eq_ite_lt ..)
    case clz => exact (issues (o := .clz f) rfl).writesReg hc ⟨h, nofun⟩ rfl (ofNat_leadingZeros x)
  case immediates =>
    intro n s b d hawake hclear
    have issues {i : Instr} {o : AccOp} (hexec : exec i s = done s (issueOp n.val o s)) : Issues i o n s := ⟨hawake, hclear, hexec⟩
    generalize hc : coreOf s n = c
    intro x a
    refine ⟨?andi, ?ori, fun h => ?lui, fun h => ?shifts, fun h => ?rnd, fun h => ?ard, fun huser hs => ?csrr⟩
    case andi => exact (issues (o := .andi b) rfl).writesReg hc ⟨rfl, nofun⟩ rfl rfl
    case ori => exact (issues (o := .ori b) rfl).writesReg hc ⟨rfl, nofun⟩ rfl rfl
    case lui => exact (issues (o := .lui b) rfl).writesReg hc ⟨decide_eq_true h, nofun⟩ rfl (zeroExtend_shiftLeft_eq_append b.imm)
    case shifts =>
      have hshift : b.imm.toNat % 32 = b.imm.toNat := Nat.mod_eq_of_lt h
      have hok : b.shiftOk = true := decide_eq_true h
      refine ⟨?srli, ?srai, fun h0 => ?srar⟩
      case srli => exact (issues (o := .srli b) rfl).writesReg hc ⟨hok, nofun⟩ rfl (by rw [ushiftRight_eq_ofNat_div, hshift]; rfl)
      case srai => exact (issues (o := .srai b) rfl).writesReg hc ⟨hok, nofun⟩ rfl (by rw [sshiftRight_eq_ofInt_div, hshift]; rfl)
      case srar =>
        have hok0 : (AccOp.srar b).ok = true := Bool.and_eq_true_iff.mpr ⟨hok, decide_eq_true h0⟩
        exact (issues (o := .srar b) rfl).writesReg hc ⟨hok0, nofun⟩ rfl (by rw [hshift]; rfl)
    case rnd => exact (issues (o := .rnd d) rfl).writesReg hc ⟨h, nofun⟩ rfl (fit32_eq_result32 ..)
    case ard =>
      have hok {k : BitVec 6} (hk : d.sh = k) (h3 : k.toNat < 3) : (AccOp.ard d).ok = true :=
        Bool.and_eq_true_iff.mpr ⟨h, decide_eq_true (hk ▸ h3)⟩
      refine ⟨fun h0 => ?low, fun h1 => ?middle, fun h2 => ?high⟩
      case low => exact (issues (o := .ard d) rfl).writesReg hc ⟨hok h0 (by decide), nofun⟩ rfl (by rw [h0]; rfl)
      case middle => exact (issues (o := .ard d) rfl).writesReg hc ⟨hok h1 (by decide), nofun⟩ rfl (by rw [h1]; rfl)
      case high => exact (issues (o := .ard d) rfl).writesReg hc ⟨hok h2 (by decide), nofun⟩ rfl (by rw [h2]; exact signExtend_high_part a)
    case csrr =>
      have reads {num : BitVec 16} {v : Word} (hnum : b.imm = num) (hlt : num.toNat < 4096)
          (hv : c.operands.csr n (num.toNat % 4096) = v) : WritesReg (.csrr n b) n s b.d v := by
        have hok : (AccOp.csrr b).ok = true := Bool.and_eq_true_iff.mpr ⟨decide_eq_true hs, decide_eq_true (hnum ▸ hlt)⟩
        exact (issues (o := .csrr b) rfl).writesReg hc ⟨hok, fun _ => huser⟩ rfl (by rw [hnum, hv])
      exact ⟨fun h => reads h (by decide) rfl, fun h => reads h (by decide) rfl, fun h => reads h (by decide) rfl, fun h => reads h (by decide) rfl,
        fun h => reads h (by decide) rfl, fun h => reads h (by decide) rfl, fun h => reads h (by decide) rfl, fun h => reads h (by decide) rfl⟩

end Sys2Proof.Machine
end

section
/-! What the accumulator instructions leave (Table 11-5, R320, R321, R329). -/

namespace Sys2Proof.Machine

/-- The core after the effect of MAC2M or MAC4M but for the sum: each pointer has gone on by 8 bytes, once where they are one register. -/
def Core.pointersMoved (c : Core) (f : FmtD) : Core :=
  if f.p = f.q then c.setG f.p (c.g f.p + 8) else (c.setG f.p (c.g f.p + 8)).setG f.q (c.g f.q + 8)

theorem Core.pointersMoved_eq (c : Core) (f : FmtD) : c.pointersMoved f = { c with regs := (c.pointersMoved f).regs } := by
  unfold Core.pointersMoved
  split
  · exact c.setG_eq _ _
  · rw [Core.setG_eq, c.setG_eq f.p]

theorem Core.g_pointersMoved (c : Core) (f : FmtD) (r : BitVec 5) :
    (c.pointersMoved f).g r = if r = 0 then 0 else if r = f.p ∨ r = f.q then c.g r + 8 else c.g r := by
  unfold Core.pointersMoved
  by_cases hr : r = 0
  · rw [if_pos hr]
    split <;> rw [Core.g_setG, if_pos hr]
  rw [if_neg hr]
  split
  case isTrue hpq =>
    rw [Core.g_setG, if_neg hr]
    by_cases hp : r = f.p
    · rw [if_pos hp, if_pos (.inl hp), hp]
    · rw [if_neg hp, if_neg (not_or.mpr ⟨hp, hpq ▸ hp⟩)]
  case isFalse =>
    rw [Core.g_setG, Core.g_setG, if_neg hr, if_neg hr]
    by_cases hq : r = f.q
    · rw [if_pos hq, if_pos (.inr hq), hq]
    · rw [if_neg hq]
      by_cases hp : r = f.p
      · rw [if_pos hp, if_pos (.inl hp), hp]
      · rw [if_neg hp, if_neg (not_or.mpr ⟨hp, hq⟩)]

theorem Core.gKept_pointersMoved (c : Core) (f : FmtD) (r : BitVec 5) :
    { c.operands.pointersMoved f with load := c.load }.gKept r = c.gPair f.p f.q r := by
  have hg : Core.g { c.operands.pointersMoved f with load := c.load } r = if r = 0 then 0 else if r = f.p ∨ r = f.q then c.g r + 8 else c.g r :=
    c.operands.g_pointersMoved f r
  unfold Core.gKept Core.gPair
  by_cases hr : r = 0
  · rw [if_pos hr, if_pos hr]
  rw [if_neg hr] at hg
  rw [if_neg hr, if_neg hr]
  cases c.load with
  | none => exact hg
  | some x => exact congrArg (fun w => if r = x.1 then x.2 else w) hg

theorem dotParts_words (m : AccCluster) (p q : Nat) :
    dotParts 32 2 (m.num p 8) (m.num q 8) =
      (BitVec.ofNat 32 (leNat (mreadN m.scratch p 4))).toInt * (BitVec.ofNat 32 (leNat (mreadN m.scratch q 4))).toInt +
      (BitVec.ofNat 32 (leNat (mreadN m.scratch (p + 4) 4))).toInt * (BitVec.ofNat 32 (leNat (mreadN m.scratch (q + 4) 4))).toInt := by
  have hlow (a : Nat) : bits (m.num a 8) 0 32 = leNat (mreadN m.scratch a 4) := bits_leNat_mreadN m.scratch a 0 4 4
  have hhigh (a : Nat) : bits (m.num a 8) 32 32 = leNat (mreadN m.scratch (a + 4) 4) := bits_leNat_mreadN m.scratch a 4 4 0
  show 0 + sext 32 _ * sext 32 _ + sext 32 _ * sext 32 _ = _
  rw [Int.zero_add, hlow, hlow, hhigh, hhigh]
  simp only [sext_eq_toInt (w := 32) (by decide)]

theorem dotParts_halfwords (m : AccCluster) (p q : Nat) :
    dotParts 16 4 (m.num p 8) (m.num q 8) =
      (BitVec.ofNat 16 (leNat (mreadN m.scratch p 2))).toInt * (BitVec.ofNat 16 (leNat (mreadN m.scratch q 2))).toInt +
      (BitVec.ofNat 16 (leNat (mreadN m.scratch (p + 2) 2))).toInt * (BitVec.ofNat 16 (leNat (mreadN m.scratch (q + 2) 2))).toInt +
      (BitVec.ofNat 16 (leNat (mreadN m.scratch (p + 4) 2))).toInt * (BitVec.ofNat 16 (leNat (mreadN m.scratch (q + 4) 2))).toInt +
      (BitVec.ofNat 16 (leNat (mreadN m.scratch (p + 6) 2))).toInt * (BitVec.ofNat 16 (leNat (mreadN m.scratch (q + 6) 2))).toInt := by
  have h0 (a : Nat) : bits (m.num a 8) 0 16 = leNat (mreadN m.scratch a 2) := bits_leNat_mreadN m.scratch a 0 2 6
  have h1 (a : Nat) : bits (m.num a 8) 16 16 = leNat (mreadN m.scratch (a + 2) 2) := bits_leNat_mreadN m.scratch a 2 2 4
  have h2 (a : Nat) : bits (m.num a 8) 32 16 = leNat (mreadN m.scratch (a + 4) 2) := bits_leNat_mreadN m.scratch a 4 2 2
  have h3 (a : Nat) : bits (m.num a 8) 48 16 = leNat (mreadN m.scratch (a + 6) 2) := bits_leNat_mreadN m.scratch a 6 2 0
  show 0 + sext 16 _ * sext 16 _ + sext 16 _ * sext 16 _ + sext 16 _ * sext 16 _ + sext 16 _ * sext 16 _ = _
  rw [Int.zero_add, h0, h0, h1, h1, h2, h2, h3, h3]
  simp only [sext_eq_toInt (w := 16) (by decide)]

theorem Core.pair_of_access {c : Core} {m : AccCluster} {f : FmtD} (hp : c.access m true false (c.g f.p).toNat 8 8 = .ok ())
    (hq : c.access m true false (c.g f.q).toNat 8 8 = .ok ()) :
    c.pair m f = .ok (m.num (c.g f.p).toNat 8, m.num (c.g f.q).toNat 8, c.pointersMoved f) := by
  unfold Core.pair Core.pointersMoved
  simp only [hp, hq]
  rfl

/-- Settles O3: each effect sets one accumulator; the paired ones read their 8 bytes part by part. -/
theorem accordAccumulatorResults : Obligations.AccordAccumulatorResults := by
  refine ⟨?single, ?paired⟩
  case single =>
    intro n s f hawake hclear
    have issues {i : Instr} {o : AccOp} (hexec : exec i s = done s (issueOp n.val o s)) : Issues i o n s := ⟨hawake, hclear, hexec⟩
    generalize hc : coreOf s n = c0
    intro c a p
    refine ⟨fun h => ⟨?mac, ?msu⟩, fun h => ?aclr, fun h => ?awr, fun h hsh => ?ashr⟩
    case mac => exact (issues (o := .mac f) rfl).writesAcc hc ⟨h, nofun⟩ rfl (fit72_eq_result72 ..) rfl c.gKept_operands
    case msu => exact (issues (o := .msu f) rfl).writesAcc hc ⟨h, nofun⟩ rfl (fit72_eq_result72 ..) rfl c.gKept_operands
    case aclr => exact (issues (o := .aclr f) rfl).writesAcc hc ⟨h, nofun⟩ rfl rfl rfl c.gKept_operands
    case awr =>
      have hok {k : BitVec 6} (hk : f.sh = k) (h3 : k.toNat < 3) : (AccOp.awr f).ok = true :=
        Bool.and_eq_true_iff.mpr ⟨h, decide_eq_true (hk ▸ h3)⟩
      refine ⟨fun h0 => ?low, fun h1 => ?middle, fun h2 => ?high⟩
      case low => exact (issues (o := .awr f) rfl).writesAcc hc ⟨hok h0 (by decide), nofun⟩ rfl (by rw [h0]; rfl) rfl c.gKept_operands
      case middle => exact (issues (o := .awr f) rfl).writesAcc hc ⟨hok h1 (by decide), nofun⟩ rfl (by rw [h1]; rfl) rfl c.gKept_operands
      case high => exact (issues (o := .awr f) rfl).writesAcc hc ⟨hok h2 (by decide), nofun⟩ rfl (by rw [h2]; rfl) rfl c.gKept_operands
    case ashr =>
      have hok : (AccOp.ashr f).ok = true := Bool.and_eq_true_iff.mpr ⟨h, decide_eq_true hsh⟩
      exact (issues (o := .ashr f) rfl).writesAcc hc ⟨hok, nofun⟩ rfl rfl rfl c.gKept_operands
  case paired =>
    intro n s f hawake hclear h
    have issues {i : Instr} {o : AccOp} (hexec : exec i s = done s (issueOp n.val o s)) : Issues i o n s := ⟨hawake, hclear, hexec⟩
    generalize hc : coreOf s n = c0
    intro c m p q w hw haccp haccq
    have hpair : c.operands.pair m f = .ok (m.num p 8, m.num q 8, c.operands.pointersMoved f) :=
      Core.pair_of_access ((c.access_operands ..).trans haccp) ((c.access_operands ..).trans haccq)
    refine ⟨?mac2m, ?mac4m⟩
    case mac2m =>
      refine (issues (o := .mac2m f) rfl).writesAcc hc ⟨h, nofun⟩ (c1 := c.operands.pointersMoved f)
        (u := fit72 f.ns ((c.a f.a).toInt + dotParts 32 2 (m.num p 8) (m.num q 8))) ?_ ?_ (Core.pointersMoved_eq _ _) (c.gKept_pointersMoved f)
      · show opMac2m f c.operands m = _
        unfold opMac2m
        rw [hpair]
        rfl
      · rw [fit72_eq_result72, dotParts_words, ← Int.add_assoc]
        rfl
    case mac4m =>
      refine (issues (o := .mac4m f) rfl).writesAcc hc ⟨h, nofun⟩ (c1 := c.operands.pointersMoved f)
        (u := fit72 f.ns ((c.a f.a).toInt + dotParts 16 4 (m.num p 8) (m.num q 8))) ?_ ?_ (Core.pointersMoved_eq _ _) (c.gKept_pointersMoved f)
      · show opMac4m f c.operands m = _
        unfold opMac4m
        rw [hpair]
        rfl
      · rw [fit72_eq_result72, dotParts_halfwords, ← Int.add_assoc, ← Int.add_assoc, ← Int.add_assoc]
        rfl

end Sys2Proof.Machine
end

section
/-! What loads, stores, atomic exchanges and transfers leave (Table 11-5, R312, R317). -/

namespace Sys2Proof.Machine

theorem byte_of_halfword (x : Nat) {j : Nat} (h : j < 2) : BitVec.ofNat 8 (x % 65536 / 256 ^ j) = BitVec.ofNat 8 (x / 256 ^ j) := by
  apply BitVec.eq_of_toNat_eq
  rw [BitVec.toNat_ofNat, BitVec.toNat_ofNat]
  cases j with
  | zero => omega
  | succ j =>
    obtain rfl : j = 0 := by omega
    omega

/-- Settles O4: an access that is allowed goes on to its load or its store. -/
theorem accordLoadsAndStores : Obligations.AccordLoadsAndStores := by
  intro n s b f hawake hclear
  have issues {i : Instr} {o : AccOp} (hexec : exec i s = done s (issueOp n.val o s)) : Issues i o n s := ⟨hawake, hclear, hexec⟩
  generalize hc : coreOf s n = c0
  intro c m ea at_ old hwf
  refine ⟨fun hacc => ?lw, fun hacc => ?lh, fun hacc => ?sw, fun hacc => ?sh, fun hacc => ⟨fun h => ?aadd, fun h => ?aswp⟩⟩
  all_goals rw [← c.access_operands] at hacc
  case lw => exact (issues (o := .lw b) rfl).loadsReg hc ⟨rfl, nofun⟩ (Core.access_bind hacc _) rfl
  case lh =>
    refine (issues (o := .lh b) rfl).loadsReg hc ⟨rfl, nofun⟩ (Core.access_bind hacc _) ?_
    rw [sext_eq_toInt (by decide)]
    rfl
  case sw => exact (issues (o := .sw b) rfl).storesBytes hc ⟨rfl, nofun⟩ hwf (Core.access_bind hacc _) rfl fun _ _ => rfl
  case sh => exact (issues (o := .sh b) rfl).storesBytes hc ⟨rfl, nofun⟩ hwf (Core.access_bind hacc _) rfl fun _ hj => byte_of_halfword _ hj
  case aadd =>
    have hi := issues (i := .aadd n f) (o := .aadd f) rfl
    have hrun : (AccOp.aadd f).run n c.operands m = c.operands.late (m.put at_ 4 (result32 f.ns (old.toInt + (c.g f.t).toInt)).toNat) f.d old := by
      rw [← fit32_eq_result32]
      exact Core.access_bind hacc _
    exact ⟨hi.loadsReg hc ⟨h, nofun⟩ hrun rfl, hi.storesBytes hc ⟨h, nofun⟩ hwf hrun rfl fun _ _ => rfl⟩
  case aswp =>
    have hi := issues (i := .aswp n f) (o := .aswp f) rfl
    have hrun : (AccOp.aswp f).run n c.operands m = c.operands.late (m.put at_ 4 (c.g f.t).toNat) f.d old := Core.access_bind hacc _
    exact ⟨hi.loadsReg hc ⟨h, nofun⟩ hrun rfl, hi.storesBytes hc ⟨h, nofun⟩ hwf hrun rfl fun _ _ => rfl⟩

/-! ### Transfers -/

namespace Issues
variable {i : Instr} {o : AccOp} {n : CoreNo} {s : State} (hi : Issues i o n s) {c : Core} (hc : coreOf s n = c) (hlegal : o.Legal c) (hnone : c.branch = none)
include hi hc hlegal hnone

/-- CALL has written its return address on the way. -/
theorem transfersTo {c1 : Core} {taken reti : Bool} {target u : Word}
    (hrun : o.run n c.operands (accClusterOf s (n.val / 16)) = c1.go (accClusterOf s (n.val / 16)) taken u reti) (htaken : taken = true)
    (hu : u = target) (hc1 : c1 = { c.operands with regs := c1.regs }) : TransfersTo i n s target reti := by
  subst htaken hu
  unfold Core.go at hrun
  rw [if_pos rfl] at hrun
  refine ⟨_, hi.starts_transfer hc hlegal hrun hnone rfl, accordOnly_putAccord .., clustersKept_putAccord _ _ _, ?_⟩
  rw [coreOf_putAccord_self, hc, hc1]
  exact ⟨rfl, rfl, rfl, rfl⟩

theorem fallsThrough {taken reti : Bool} {target : Word}
    (hrun : o.run n c.operands (accClusterOf s (n.val / 16)) = c.operands.go (accClusterOf s (n.val / 16)) taken target reti)
    (htaken : taken = false) :
    ∃ t, exec i s = .next t ∧ AccordOnly n s t ∧ ClustersKept s t ∧ (coreOf t n).branch = none ∧ (coreOf t n).acc = c.acc ∧
      ∀ r, (coreOf t n).g r = c.gKept r := by
  subst htaken
  unfold Core.go at hrun
  rw [if_neg Bool.false_ne_true] at hrun
  refine ⟨_, hi.ends hc hlegal hrun rfl, accordOnly_putAccord .., clustersKept_putAccord _ _ _, ?_⟩
  rw [coreOf_putAccord_self, Core.advance_of_branch_none hnone]
  have hkept := Core.filesKept_boundary { c.completed c.operands with pc := c.pc + 4 }
  have ⟨_, hacc, _⟩ := hkept
  refine ⟨(Core.boundary_progress _).1, hacc, fun r => (hkept.g r).trans ?_⟩
  exact (Core.g_completed _ _ r).trans (Core.gKept_operands _ r)

end Issues

/-! ### The delay slots -/

theorem Core.advance_of_first_slot {c : Core} {target : Word} {ret : Bool} (h : c.branch = some (target, 2, ret)) (d : Core) :
    c.advance d = { d with pc := c.pc + 4, branch := some (target, 1, ret) } := by
  unfold Core.advance
  rw [h]
  rfl

theorem Core.advance_of_second_slot {c : Core} {target : Word} (h : c.branch = some (target, 1, false)) (d : Core) :
    c.advance d = { d with pc := target, branch := none } := by
  unfold Core.advance
  rw [h]
  rfl

theorem Core.advance_of_second_slot_of_return {c : Core} {target : Word} (h : c.branch = some (target, 1, true)) (d : Core) :
    c.advance d = { d with pc := target, branch := none, user := d.puser, ie := true, counting := true } := by
  unfold Core.advance
  rw [h]
  rfl

theorem Core.advance_requests (c d : Core) : (c.advance d).haltReq = d.haltReq ∧ (c.advance d).pendingIrq = d.pendingIrq := by
  unfold Core.advance
  repeat' split
  all_goals exact ⟨rfl, rfl⟩

/-- With no halt and no interrupt requested, nothing but its slot decides where the core goes on behind an instruction that writes a register. -/
theorem Issues.advances {i : Instr} {o : AccOp} {n : CoreNo} {s : State} (hi : Issues i o n s) {c : Core} (hc : coreOf s n = c)
    (hlegal : o.Legal c) {d : BitVec 5} {u : Word}
    (hrun : o.run n c.operands (accClusterOf s (n.val / 16)) = c.operands.put (accClusterOf s (n.val / 16)) d u)
    (hhalt : c.haltReq = false) (hirq : c.irq = 0) :
    ∃ e, exec i s = .next (putAccord n (c.advance e) (accClusterOf s (n.val / 16)) s) ∧ e.user = c.user ∧
      e.puser = c.puser ∧ e.ie = c.ie ∧ e.branch = none := by
  unfold Core.put at hrun
  have hset := c.operands.setG_eq d u
  generalize c.operands.setG d u = c1 at hrun hset
  have hbranch : c1.branch = none := by rw [hset]; rfl
  have hends := hi.ends hc hlegal hrun hbranch
  obtain ⟨hhalt', hirq'⟩ := c.advance_requests (c.completed c1)
  have hquiet : (c.completed c1).haltReq = false ∧ (c.completed c1).pendingIrq = 0 := by
    rw [hset]
    exact ⟨hhalt, (congrArg (· &&& c.imask) hirq).trans BitVec.zero_and⟩
  rw [Core.boundary_of_quiet (hhalt'.trans hquiet.1) (.inr (hirq'.trans hquiet.2))] at hends
  refine ⟨_, hends, ?_⟩
  rw [hset]
  exact ⟨rfl, rfl, rfl, rfl⟩

/-- Settles O5: a transfer by `Issues.transfersTo`, and the two slots behind it by the branch that the core still has. -/
theorem accordTransfers : Obligations.AccordTransfers := by
  refine ⟨?transfers, ?slots⟩
  case transfers =>
    intro n s f a hawake hclear hnone
    have issues {i : Instr} {o : AccOp} (hexec : exec i s = done s (issueOp n.val o s)) : Issues i o n s := ⟨hawake, hclear, hexec⟩
    generalize hc : coreOf s n = c0 at hnone ⊢
    intro c x target falls
    have htarget : relTarget c.pc f.off = target := relTarget_eq c.pc f.off
    have hzero : x = 0 ↔ c.g f.s = 0 := toInt_eq_zero_iff (c.g f.s)
    have hmsb : (c.g f.s).msb = decide (x < 0) := BitVec.msb_eq_toInt
    refine ⟨fun h => ⟨?beqz, ?bnezFalls⟩, fun h => ⟨?bnez, ?beqzFalls⟩, fun h => ⟨?bltz, ?bgezFalls⟩, fun h => ⟨?bgez, ?bltzFalls⟩,
      fun h => ⟨?j, ?call, ?link, fun hoff => ?reti⟩, fun h hd => ?jr⟩
    case beqz => exact (issues (o := .beqz f) rfl).transfersTo hc ⟨rfl, nofun⟩ hnone rfl (decide_eq_true (hzero.mp h)) htarget rfl
    case bnezFalls => exact (issues (o := .bnez f) rfl).fallsThrough hc ⟨rfl, nofun⟩ hnone rfl (decide_eq_false fun hne => hne (hzero.mp h))
    case bnez => exact (issues (o := .bnez f) rfl).transfersTo hc ⟨rfl, nofun⟩ hnone rfl (decide_eq_true (mt hzero.mpr h)) htarget rfl
    case beqzFalls => exact (issues (o := .beqz f) rfl).fallsThrough hc ⟨rfl, nofun⟩ hnone rfl (decide_eq_false (mt hzero.mpr h))
    case bltz => exact (issues (o := .bltz f) rfl).transfersTo hc ⟨rfl, nofun⟩ hnone rfl (hmsb.trans (decide_eq_true h)) htarget rfl
    case bgezFalls =>
      exact (issues (o := .bgez f) rfl).fallsThrough hc ⟨rfl, nofun⟩ hnone rfl (congrArg (!·) (hmsb.trans (decide_eq_true h)))
    case bgez =>
      exact (issues (o := .bgez f) rfl).transfersTo hc ⟨rfl, nofun⟩ hnone rfl (congrArg (!·) (hmsb.trans (decide_eq_false (Int.not_lt.mpr h)))) htarget rfl
    case bltzFalls => exact (issues (o := .bltz f) rfl).fallsThrough hc ⟨rfl, nofun⟩ hnone rfl (hmsb.trans (decide_eq_false (Int.not_lt.mpr h)))
    case j => exact (issues (o := .j f) rfl).transfersTo hc ⟨decide_eq_true h, nofun⟩ hnone rfl rfl htarget rfl
    case call => exact (issues (o := .call f) rfl).transfersTo hc ⟨decide_eq_true h, nofun⟩ hnone rfl rfl htarget (Core.setG_eq _ _ _)
    case link =>
      intro hload t hnext
      have hi := issues (i := .call n f) (o := .call f) rfl
      have hstart := hi.starts_transfer hc ⟨decide_eq_true h, nofun⟩ rfl hnone rfl
      obtain rfl := Host.Outcome.next.inj (hnext.symm.trans hstart)
      rw [coreOf_putAccord_self]
      refine (Core.g_completed _ _ _).trans ((c.gKept_setG 31 (c.pc + 12) 31).trans ?_)
      unfold Core.gAfter
      rw [show c.load = none from hload]
      rfl
    case reti =>
      have hok : (AccOp.reti f).ok = true := Bool.and_eq_true_iff.mpr ⟨decide_eq_true h, decide_eq_true hoff⟩
      exact (issues (o := .reti f) rfl).transfersTo hc ⟨hok, nofun⟩ hnone rfl rfl rfl rfl
    case jr =>
      have hok : (AccOp.jr a).ok = true := Bool.and_eq_true_iff.mpr ⟨h, decide_eq_true hd⟩
      exact (issues (o := .jr a) rfl).transfersTo hc ⟨hok, nofun⟩ hnone rfl rfl rfl rfl
  case slots =>
    intro n s b target ret hawake hclear
    have hi : Issues (.addi n b) (.addi b) n s := ⟨hawake, hclear, rfl⟩
    generalize hc : coreOf s n = c
    intro hhalt hirq
    obtain ⟨e, hnext, huser, hpuser, hie, hnone⟩ := hi.advances hc ⟨rfl, nofun⟩ rfl hhalt hirq
    refine ⟨fun hbranch => ⟨_, hnext, ?first⟩, fun hbranch => ⟨_, hnext, ?second⟩, fun hbranch => ⟨_, hnext, ?straight⟩⟩
    all_goals rw [coreOf_putAccord_self]
    case first =>
      rw [Core.advance_of_first_slot hbranch]
      exact ⟨rfl, rfl, huser⟩
    case second =>
      cases ret with
      | false =>
        rw [Core.advance_of_second_slot hbranch]
        exact ⟨rfl, rfl, nofun, fun _ => ⟨huser, hie⟩⟩
      | true =>
        rw [Core.advance_of_second_slot_of_return hbranch]
        exact ⟨rfl, rfl, fun _ => ⟨hpuser, rfl⟩, nofun⟩
    case straight =>
      rw [Core.advance_of_branch_none hbranch]
      exact ⟨hnone, rfl⟩

end Sys2Proof.Machine
end

section
/-! What RPT, WAIT and CSRW leave, and the entries to faults and interrupts (R309, R311, R314, R316, R317, Table 11-9). -/

namespace Sys2Proof.Machine

/-- On a quiet core the effect of an instruction and the next address are all that it leaves. -/
theorem Issues.leaves {i : Instr} {o : AccOp} {n : CoreNo} {s : State} (hi : Issues i o n s) {c : Core} (hc : coreOf s n = c)
    (hlegal : o.Legal c) {c1 : Core}
    (hrun : o.run n c.operands (accClusterOf s (n.val / 16)) = .ok (c1, accClusterOf s (n.val / 16))) (hnone : c.branch = none)
    (hbranch : c1.branch = none) (hboundary : ({ c.completed c1 with pc := c.pc + 4 } : Core).boundary =
      { c.completed c1 with pc := c.pc + 4 }) {P : Core → Prop}
    (hP : P { c.completed c1 with pc := c.pc + 4 }) :
    ∃ t, exec i s = .next t ∧ AccordOnly n s t ∧ ClustersKept s t ∧ P (coreOf t n) := by
  have hends := hi.ends hc hlegal hrun hbranch
  rw [Core.advance_of_branch_none hnone, hboundary] at hends
  refine ⟨_, hends, accordOnly_putAccord .., clustersKept_putAccord _ _ _, ?_⟩
  rw [coreOf_putAccord_self]
  exact hP

theorem Core.quiet_iff (c : Core) :
    c.quiet = true ↔ c.load = none ∧ c.branch = none ∧ c.rep = 0 ∧ c.haltReq = false ∧ (c.ie = false ∨ c.pendingIrq = 0) := by
  unfold Core.quiet Core.pendingIrq
  cases c.haltReq <;> cases c.ie <;> simp [and_assoc]

/-- A write of any control register but ACC_STATUS and ACC_IMASK leaves what decides at the next boundary as it was. -/
theorem Core.setCsr_requests (c : Core) {num : Nat} (h0 : num ≠ 0x000) (h4 : num ≠ 0x004) (v : Word) :
    (c.setCsr num v).branch = c.branch ∧ (c.setCsr num v).haltReq = c.haltReq ∧ (c.setCsr num v).ie = c.ie ∧
      (c.setCsr num v).pendingIrq = c.pendingIrq := by
  unfold Core.setCsr
  split
  case h_1 => exact absurd rfl h0
  case h_4 => exact absurd rfl h4
  all_goals exact ⟨rfl, rfl, rfl, rfl⟩

/-- Settles O6: a quiet core keeps what RPT, WAIT or CSRW writes, since its boundary changes nothing more. -/
theorem accordRepeatWaitControl : Obligations.AccordRepeatWaitControl := by
  intro n s f b hawake hclear hquiet
  have issues {i : Instr} {o : AccOp} (hexec : exec i s = done s (issueOp n.val o s)) : Issues i o n s := ⟨hawake, hclear, hexec⟩
  generalize hc : coreOf s n = c0 at hquiet ⊢
  obtain ⟨hload, hnone, hrep, hhalt, hirq⟩ := (Core.quiet_iff _).mp hquiet
  intro c
  refine ⟨fun hs hoff => ?rpt, fun hs hoff => ?wait, fun huser hd => ?csrw⟩
  case rpt =>
    have hok : (AccOp.rpt f).ok = true := Bool.and_eq_true_iff.mpr ⟨decide_eq_true hs, decide_eq_true hoff⟩
    refine (issues (i := .rpt n f) (o := .rpt f) rfl).leaves hc ⟨hok, nofun⟩ rfl hnone rfl (Core.boundary_of_uninterruptible ?_)
      (P := fun d => d.rep = f.off.toNat + 1 ∧ d.pc = c.pc + 4) ⟨congrArg (· + 1) (Nat.mod_eq_of_lt hoff), rfl⟩
    simp [Core.interruptible, Core.completed]
  case wait =>
    have hok : (AccOp.wait f).ok = true := Bool.and_eq_true_iff.mpr ⟨decide_eq_true hs, decide_eq_true hoff⟩
    exact (issues (i := .wait n f) (o := .wait f) rfl).leaves hc ⟨hok, nofun⟩ rfl hnone rfl (Core.boundary_of_quiet hhalt hirq)
      (P := fun d => d.waiting = true ↔ c.irq &&& c.imask = 0) decide_eq_true_iff
  case csrw =>
    intro v wrote
    have writes {num : BitVec 16} {P : Core → Prop} {upd : Core → Core} (hnum : b.imm = num)
        (hlegal : num.toNat < 4096 ∧ num.toNat % 4096 ≠ 0x000 ∧ num.toNat % 4096 ≠ 0x004) (hset : ∀ d : Core, d.setCsr (num.toNat % 4096) v = upd d)
        (hP : P { c.completed (upd c.operands) with pc := c.pc + 4 }) : wrote P := by
      obtain ⟨hlt, h0, h4⟩ := hlegal
      have hok : (AccOp.csrw b).ok = true := Bool.and_eq_true_iff.mpr ⟨decide_eq_true hd, decide_eq_true (hnum ▸ hlt)⟩
      obtain ⟨hbranch, hhalt', hie, hpending⟩ := c.operands.setCsr_requests h0 h4 v
      rw [← hset] at hP
      subst hnum
      exact (issues (i := .csrw n b) (o := .csrw b) rfl).leaves hc ⟨hok, fun _ => huser⟩ rfl hnone hbranch
        (Core.boundary_of_quiet (hhalt'.trans hhalt) (hirq.imp hie.trans hpending.trans)) hP
    refine ⟨fun h => ?epc, fun h => ?cause, fun h => ?vbase, fun h => ?icount, fun h => ?ibudget, fun h => ?codeBase, fun h => ?codeLimit,
      fun h => ?win0Base, fun h => ?win0Limit, fun h => ?win1Base, fun h => ?win1Limit⟩
    case epc =>
      exact writes (P := fun d => d.epc = v ∧ c.sameControl d) (upd := fun d => { d with epc := v }) h (by decide) (fun _ => rfl) ⟨rfl, rfl, rfl, rfl, rfl, rfl, rfl, rfl, rfl, rfl⟩
    case cause => exact writes (P := fun d => d.cause = c.cause ∧ c.sameControl d) (upd := id) h (by decide) (fun _ => rfl) ⟨rfl, rfl, rfl, rfl, rfl, rfl, rfl, rfl, rfl, rfl⟩
    case vbase =>
      exact writes (P := fun d => d.vbase = v &&& 0xFFFFF800) (upd := fun d => { d with vbase := v &&& 0xFFFFF800 }) h (by decide) (fun _ => rfl) rfl
    case icount =>
      have hcounts : c.counts = false := by rw [Core.counts, huser, Bool.false_and]
      exact writes (P := fun d => d.icount = v ∧ c.sameControl d) (upd := fun d => { d with icount := v }) h (by decide) (fun _ => rfl)
        ⟨if_neg (by rw [hcounts]; exact Bool.false_ne_true), rfl, rfl, rfl, rfl, rfl, rfl, rfl, rfl, rfl⟩
    case ibudget => exact writes (P := fun d => d.ibudget = v) (upd := fun d => { d with ibudget := v }) h (by decide) (fun _ => rfl) rfl
    case codeBase => exact writes (P := fun d => d.codeBase = v) (upd := fun d => { d with codeBase := v }) h (by decide) (fun _ => rfl) rfl
    case codeLimit => exact writes (P := fun d => d.codeLimit = v) (upd := fun d => { d with codeLimit := v }) h (by decide) (fun _ => rfl) rfl
    case win0Base => exact writes (P := fun d => d.win0Base = v) (upd := fun d => { d with win0Base := v }) h (by decide) (fun _ => rfl) rfl
    case win0Limit => exact writes (P := fun d => d.win0Limit = v) (upd := fun d => { d with win0Limit := v }) h (by decide) (fun _ => rfl) rfl
    case win1Base => exact writes (P := fun d => d.win1Base = v) (upd := fun d => { d with win1Base := v }) h (by decide) (fun _ => rfl) rfl
    case win1Limit => exact writes (P := fun d => d.win1Limit = v) (upd := fun d => { d with win1Limit := v }) h (by decide) (fun _ => rfl) rfl

/-! ### Entries -/

theorem Core.mayTouch_operands (c : Core) (write : Bool) (a n : Nat) : c.operands.mayTouch write a n = c.mayTouch write a n := rfl

theorem decodeWord_of_reserved {w : Word} (h : w.toNat / 2 ^ 26 = 0 ∨ 0x31 ≤ w.toNat / 2 ^ 26) : decodeWord w = .reserved w := by
  have hop : (w.extractLsb' 26 6).toNat = w.toNat / 2 ^ 26 := by
    rw [BitVec.extractLsb'_toNat, Nat.shiftRight_eq_div_pow]
    have := w.isLt
    omega
  unfold decodeWord
  dsimp only
  split
  case h_49 => rfl
  all_goals omega

theorem exec_setCore {i : Instr} {n : Nat} {s : State} {d : Core} (hawake : Awake s) (hexec : exec i s = done s (setCore n d s)) :
    exec i s = .next (setCore n d s) :=
  hexec.trans (done_awake _ hawake)

theorem one_shiftLeft_and {k : Fin 3} {mask : BitVec 3} (h : mask.getLsbD k = true) : (1#3 <<< k.val) &&& mask = 1#3 <<< k.val := by
  revert k mask
  decide

theorem one_shiftLeft_request (k : Fin 3) : 1#3 <<< k.val ≠ 0 ∧ lowestIrq (1#3 <<< k.val) = k.val ∧ (1#3 <<< k.val) &&& ~~~(1#3 <<< k.val) = 0 := by
  revert k
  decide

/-- The core with no request but that of cause k, and not waiting. -/
def Core.requested (c : Core) (k : Fin 3) : Core := { c with irq := 1#3 <<< k.val, waiting := false }

/-- A request of an enabled cause ends WAIT, and where nothing else is requested it is the one that the core may take. -/
theorem requestIrq_of_first {n : Nat} {k : Fin 3} {s : State} (hhalted : (coreOf s n).halted = false) (hmask : (coreOf s n).imask.getLsbD k = true)
    (hirq : (coreOf s n).irq = 0) :
    requestIrq n k.val s = setCore n ((coreOf s n).requested k).takeIrq s := by
  have hpending : Core.pendingIrq { coreOf s n with irq := 1#3 <<< k.val } = 1#3 <<< k.val := one_shiftLeft_and hmask
  have hrequest : (coreOf s n).irq ||| (1#3 <<< k.val) = 1#3 <<< k.val := by
    rw [hirq]
    exact BitVec.zero_or
  unfold requestIrq
  simp only [hrequest, hpending, ne_eq, (one_shiftLeft_request k).1, not_false_eq_true, decide_true, if_true]
  rw [if_neg (by simp [hhalted])]
  rfl

theorem Core.takeIrq_of_one {c : Core} {k : Fin 3} (hie : c.ie = true) (hint : c.interruptible = true) (hmask : c.imask.getLsbD k = true)
    (hirq : c.irq = 1#3 <<< k.val) : c.takeIrq = { c.enter k.val with irq := 0 } := by
  have hpending : c.pendingIrq = 1#3 <<< k.val := by rw [Core.pendingIrq, hirq, one_shiftLeft_and hmask]
  obtain ⟨hsome, hlowest, hends⟩ := one_shiftLeft_request k
  unfold Core.takeIrq
  simp only [hpending, hlowest, hirq, hends, hie, hint, ne_eq, hsome, not_false_eq_true, decide_true, Bool.and_self, if_true]

theorem Core.entered_of_request {c : Core} {k : Fin 3} (hie : c.ie = true) (hint : c.interruptible = true) (hmask : c.imask.getLsbD k = true) :
    Entered c (c.requested k).takeIrq k ∧ (c.requested k).takeIrq.irq = 0 ∧ ∀ r, (c.requested k).takeIrq.g r = c.g r := by
  obtain ⟨-, hload, -⟩ := c.interruptible_iff.mp hint
  rw [Core.takeIrq_of_one (c := c.requested k) hie hint hmask rfl, Core.enter_of_load_none (c := c.requested k) hload]
  exact ⟨⟨rfl, rfl, rfl, rfl, rfl, rfl, rfl, hload, rfl, rfl⟩, rfl, fun _ => rfl⟩

/-- Settles O7: the issue ends with the cause of the fault, and a request is taken or waits by `takeIrq`. -/
theorem accordEntries : Obligations.AccordEntries := by
  refine ⟨?faults, ?interrupts⟩
  case faults =>
    intro n s w b hawake hclear
    have issues {i : Instr} {o : AccOp} (hexec : exec i s = done s (issueOp n.val o s)) : Issues i o n s := ⟨hawake, hclear, hexec⟩
    generalize hc : coreOf s n = c0
    intro c takes
    refine ⟨fun h => ?reserved, fun huser => ⟨?csrr, ?csrw⟩, fun hs => ?lui, ?accesses⟩
    case reserved =>
      have hexec : exec (.reservedOpcode n w) s = done s (issueOp n.val (.reserved w) s) := by
        rw [← decodeWord_of_reserved h]
        rfl
      exact (issues hexec).entered_of_illegal hc fun hlegal => Bool.false_ne_true hlegal.1
    case csrr => exact (issues (o := .csrr b) rfl).entered_of_illegal hc fun hlegal => absurd (hlegal.2 rfl) (by simpa using huser)
    case csrw => exact (issues (o := .csrw b) rfl).entered_of_illegal hc fun hlegal => absurd (hlegal.2 rfl) (by simpa using huser)
    case lui => exact (issues (o := .lui b) rfl).entered_of_illegal hc fun hlegal => hs (of_decide_eq_true hlegal.1)
    case accesses =>
      intro ea
      refine ⟨fun htouch ha => ?lwAlign, fun htouch ha => ?swAlign, fun htouch ha => ?lhAlign, fun htouch => ?swWindow, fun htouch => ?lwWindow⟩
      all_goals rw [← c.mayTouch_operands] at htouch
      case lwAlign =>
        exact (issues (o := .lw b) rfl).entered_of_error hc ⟨rfl, nofun⟩ (Core.access_bind_misaligned htouch ha _ _ _) (by decide)
      case swAlign =>
        exact (issues (o := .sw b) rfl).entered_of_error hc ⟨rfl, nofun⟩ (Core.access_bind_misaligned htouch ha _ _ _) (by decide)
      case lhAlign =>
        exact (issues (o := .lh b) rfl).entered_of_error hc ⟨rfl, nofun⟩ (Core.access_bind_misaligned htouch ha _ _ _) (by decide)
      case swWindow =>
        exact (issues (o := .sw b) rfl).entered_of_error hc ⟨rfl, nofun⟩ (Core.access_bind_untouchable htouch _ _ _ _) (by decide)
      case lwWindow =>
        exact (issues (o := .lw b) rfl).entered_of_error hc ⟨rfl, nofun⟩ (Core.access_bind_untouchable htouch _ _ _ _) (by decide)
  case interrupts =>
    intro n k s hawake hhalted hmask hirq
    have hexec : exec (.interruptEntry n k) s = done s (requestIrq n.val k.val s) := rfl
    rw [requestIrq_of_first hhalted hmask hirq] at hexec
    refine ⟨fun hie hint => ?taken, fun hie => ?waits⟩
    case taken =>
      refine ⟨_, exec_setCore hawake hexec, accordOnly_setCore .., fun _ => rfl, ?_⟩
      rw [coreOf_setCore_self]
      exact Core.entered_of_request hie hint hmask
    case waits =>
      rw [Core.takeIrq_of_quiet (c := (coreOf s n).requested k) (.inl hie)] at hexec
      exact ⟨_, exec_setCore hawake hexec, accordOnly_setCore .., fun _ => rfl, coreOf_setCore_self ..⟩

end Sys2Proof.Machine
end

section
/-! Debug access, and DMA between HBM and a scratchpad (R322, R326, R327, R336). -/

namespace Sys2Proof.Machine

/-! ### A write of ACC_DBG_CTL -/

theorem dbgRefused_of_locked {s : State} (h : s.mon.debugLock = true) (v : Word) : dbgRefused s v = true := by
  rw [dbgRefused, h, Bool.true_or]

theorem dbgRefused_of_protecting {s : State} {v : Word} (hprot : s.twin.prot = true) (hbit : v.getLsbD 0 = true ∨ v.getLsbD 1 = true) :
    dbgRefused s v = true := by
  rcases hbit with h | h <;> simp [dbgRefused, hprot, h]

theorem dbgRefused_of_allowed {s : State} {v : Word} (hlock : s.mon.debugLock = false)
    (hbits : s.twin.prot = true → v.getLsbD 0 = false ∧ v.getLsbD 1 = false) : dbgRefused s v = false := by
  rw [dbgRefused, hlock, Bool.false_or]
  cases hprot : s.twin.prot with
  | false => rfl
  | true =>
    obtain ⟨h0, h1⟩ := hbits hprot
    rw [h0, h1]
    rfl

theorem badAccess_counts (f : Nat) (s : State) : (fnOf (badAccess f s) f).badAccess = (fnOf s f).badAccess + 1 := by
  rw [badAccess, fnOf_modFn_self]

/-- A refused write is discarded after DEBUG_LOCK, and counted otherwise. -/
theorem yields_of_dbgDenied {i : Instr} {s : State} (hawake : Awake s) (hexec : exec i s = done s (dbgDenied s)) (hlock : s.mon.debugLock = false) :
    Yields i s fun t => t.accord = s.accord ∧ (fnOf t 0).badAccess = (fnOf s 0).badAccess + 1 := by
  rw [dbgDenied, hlock, if_neg Bool.false_ne_true] at hexec
  exact row_yields hawake hexec ⟨by simp, badAccess_counts 0 s⟩

theorem exec_of_locked {i : Instr} {s : State} (hawake : Awake s) (hexec : exec i s = done s (dbgDenied s)) (hlock : s.mon.debugLock = true) :
    exec i s = .next s := by
  rw [hexec, dbgDenied, if_pos hlock]
  exact done_awake _ hawake

/-- The core at the boundary behind a write of its HALT bit. -/
def Core.dbgWritten (c : Core) (on : Bool) : Core :=
  if on then Core.boundary { c with haltReq := true } else Core.boundary { c with haltReq := false, halted := false }

theorem haltCore_eq {n : Nat} {s : State} {c : Core} (hc : coreOf s n = c) (on : Bool) : haltCore n on s = setCore n (c.dbgWritten on) s := by
  subst hc
  rfl

theorem Core.boundary_runs {c : Core} (hreq : c.haltReq = false) (hhalted : c.halted = false) : c.boundary.halted = false := by
  unfold Core.boundary
  rw [hreq, hhalted, Bool.false_and, if_neg Bool.false_ne_true, if_neg Bool.false_ne_true]
  rcases c.takeIrq_cases with h | ⟨hint, k, irq, h⟩
  · rw [h, hhalted]
  · obtain ⟨-, hload, -⟩ := c.interruptible_iff.mp hint
    rw [h, Core.enter_of_load_none hload]
    exact hhalted

theorem Core.dbgWritten_keeps (c : Core) (on : Bool) :
    (c.dbgWritten on).haltReq = on ∧ (c.dbgWritten on).acc = c.acc ∧ (on = false → (c.dbgWritten on).halted = false) := by
  cases on with
  | true =>
    obtain ⟨-, -, hreq⟩ := Core.boundary_progress { c with haltReq := true }
    obtain ⟨-, hacc, -⟩ := Core.filesKept_boundary { c with haltReq := true }
    exact ⟨hreq, hacc, nofun⟩
  | false =>
    obtain ⟨-, -, hreq⟩ := Core.boundary_progress { c with haltReq := false, halted := false }
    obtain ⟨-, hacc, -⟩ := Core.filesKept_boundary { c with haltReq := false, halted := false }
    exact ⟨hreq, hacc, fun _ => Core.boundary_runs (c := { c with haltReq := false, halted := false }) rfl rfl⟩

theorem Core.dbgWritten_halts {c : Core} (hint : c.interruptible = true) : c.dbgWritten true = { c with haltReq := true, halted := true } :=
  Core.boundary_of_halt (c := { c with haltReq := true }) rfl hint

theorem Core.dbgWritten_runs {c : Core} (hie : c.ie = false) : c.dbgWritten false = { c with haltReq := false, halted := false } :=
  Core.boundary_of_quiet (c := { c with haltReq := false, halted := false }) rfl (.inl hie)

/-! ### One step of a halted core -/

theorem AccordOnly.trans {n : Nat} {s t u : State} (h : AccordOnly n s t) (h' : AccordOnly n t u) : AccordOnly n s u := by
  simp_all [AccordOnly]

/-- The core that a halt stops again behind an ADDI. -/
def Core.steppedAddi (c : Core) (b : FmtB) : Core :=
  { c.completed (c.operands.setG b.d (result32 false ((c.g b.s).toInt + b.imm.toInt))) with pc := c.pc + 4, halted := true }

theorem Core.g_steppedAddi (c : Core) (b : FmtB) (r : BitVec 5) :
    (c.steppedAddi b).g r = c.gAfter b.d (result32 false ((c.g b.s).toInt + b.imm.toInt)) r :=
  (Core.g_completed _ _ r).trans (c.gKept_setG _ _ r)

theorem issue_addi_of_supervisor {c : Core} (huser : c.user = false) (b : FmtB) (n : Nat) (m : AccCluster) :
    c.alone.issue (.addi b) n m = .ok (c.completed (c.operands.setG b.d (result32 false ((c.g b.s).toInt + b.imm.toInt))), m) := by
  have hfetch : c.alone.MayFetch := fun h => absurd (huser.symm.trans h) Bool.false_ne_true
  rw [← fit32_eq_result32]
  exact issue_of_legal (o := .addi b) hfetch ⟨rfl, nofun⟩

/-- An ADDI that a halted core steps over leaves it halted behind it. -/
theorem stepCore_addi_of_halted {n : Nat} {s : State} {c : Core} (hc : coreOf s n = c) (hreq : c.haltReq = true) (huser : c.user = false)
    (hint : c.interruptible = true) (b : FmtB) :
    stepCore (.addi b) n s = putAccord n (c.steppedAddi b) (accClusterOf s (n / 16)) s := by
  obtain ⟨hbranch, -, hrep⟩ := c.interruptible_iff.mp hint
  have hissue := issue_addi_of_supervisor huser b n (accClusterOf s (n / 16))
  have hset := c.operands.setG_eq b.d (result32 false ((c.g b.s).toInt + b.imm.toInt))
  unfold Core.steppedAddi
  generalize c.operands.setG b.d (result32 false ((c.g b.s).toInt + b.imm.toInt)) = d at hissue hset ⊢
  have hhalts : Core.boundary { c.completed d with pc := c.pc + 4 } = { c.completed d with pc := c.pc + 4, halted := true } := by
    rw [hset]
    exact Core.boundary_of_halt hreq rfl
  subst hc
  rw [stepCore_of_issued (by omega) hissue (by rw [hset]; rfl), Core.advance_of_branch_none hbranch, hhalts]

theorem stepFetched_of_decoded {n : Nat} {s : State} {c : Core} (hc : coreOf s n = c) {o : AccOp}
    (hpoison : (accClusterOf s (n / 16)).poison.contains (c.pc.toNat / 4) = false)
    (hdecode : decodeWord (BitVec.ofNat 32 (leNat (mreadN (accClusterOf s (n / 16)).scratch c.pc.toNat 4))) = o) :
    stepFetched n s = stepCore o n s := by
  subst hc hdecode
  unfold stepFetched
  simp only [hpoison, Bool.false_eq_true, if_false]
  rfl

/-- STEP of a core that halted at its boundary: the ADDI at its pc, and no more. -/
theorem stepHalted_addi {n : Nat} {s : State} {c : Core} (hc : coreOf s n = c) (hhalted : c.halted = true) (hreq : c.haltReq = true)
    (hwaiting : c.waiting = false) (huser : c.user = false) (hie : c.ie = false) (hint : c.interruptible = true)
    (hpoison : (accClusterOf s (n / 16)).poison.contains (c.pc.toNat / 4) = false) {b : FmtB}
    (hdecode : decodeWord (BitVec.ofNat 32 (leNat (mreadN (accClusterOf s (n / 16)).scratch c.pc.toNat 4))) = .addi b) :
    stepHalted n s = putAccord n (c.steppedAddi b) (accClusterOf s (n / 16)) (setCore n c s) := by
  have hself : coreOf (setCore n c s) n = c := coreOf_setCore_self ..
  unfold stepHalted
  simp only [hc, hhalted, hwaiting, Bool.not_false, Bool.and_self, if_true, Core.takeIrq_of_quiet (.inl hie)]
  rw [stepFetched_of_decoded hself hpoison hdecode, stepCore_addi_of_halted hself hreq huser hint, coreOf_putAccord_self, if_neg]
  · rfl
  · rw [Core.steppedAddi, Core.setG_eq]
    exact Nat.lt_irrefl 0

theorem yields_accDbgHalt {n : CoreNo} {v : Word} {s : State} (hawake : Awake s) (hrefused : dbgRefused s v = false) {c : Core}
    (hc : coreOf s n = c) :
    Yields (.accDbgHalt n v) s fun t => AccordOnly n s t ∧ ClustersKept s t ∧ coreOf t n = c.dbgWritten (v.getLsbD 0) := by
  have hexec : exec (.accDbgHalt n v) s = done s (if dbgRefused s v then dbgDenied s else haltCore n.val (v.getLsbD 0) s) := rfl
  rw [hrefused, if_neg Bool.false_ne_true, haltCore_eq hc] at hexec
  exact ⟨_, exec_setCore hawake hexec, rfl, accordOnly_setCore .., fun _ => rfl, coreOf_setCore_self ..⟩

section
variable {n : CoreNo} {v : Word} {s : State} (hawake : Awake s) (hrefused : dbgRefused s v = false) {c : Core} (hc : coreOf s n = c)
include hrefused hc

theorem exec_accDbgStep :
    exec (.accDbgStep n v) s =
      done s (if v.getLsbD 1 then stepHalted n (setCore n (c.dbgWritten (v.getLsbD 0)) s) else setCore n (c.dbgWritten (v.getLsbD 0)) s) := by
  have hexec : exec (.accDbgStep n v) s = done s (if dbgRefused s v then dbgDenied s else
    if v.getLsbD 1 then stepHalted n.val (haltCore n.val (v.getLsbD 0) s) else haltCore n.val (v.getLsbD 0) s) := rfl
  rwa [hrefused, if_neg Bool.false_ne_true, haltCore_eq hc] at hexec

include hawake

theorem yields_accDbgStep_without_step (h1 : v.getLsbD 1 = false) :
    Yields (.accDbgStep n v) s fun t => AccordOnly n s t ∧ ClustersKept s t ∧ coreOf t n = c.dbgWritten (v.getLsbD 0) := by
  have hexec := exec_accDbgStep hrefused hc
  rw [h1, if_neg Bool.false_ne_true] at hexec
  exact ⟨_, exec_setCore hawake hexec, rfl, accordOnly_setCore .., fun _ => rfl, coreOf_setCore_self ..⟩

theorem yields_accDbgStep_addi (h0 : v.getLsbD 0 = true) (h1 : v.getLsbD 1 = true) (hwaiting : c.waiting = false) (huser : c.user = false)
    (hie : c.ie = false) (hint : c.interruptible = true) (hpoison : (accClusterOf s (n.val / 16)).poison.contains (c.pc.toNat / 4) = false)
    {b : FmtB} (hdecode : decodeWord (BitVec.ofNat 32 (leNat (mreadN (accClusterOf s (n.val / 16)).scratch c.pc.toNat 4))) = .addi b) :
    Yields (.accDbgStep n v) s fun t => AccordOnly n s t ∧ ClustersKept s t ∧
      coreOf t n = Core.steppedAddi { c with haltReq := true, halted := true } b := by
  have hexec := exec_accDbgStep hrefused hc
  rw [h0, h1, if_pos rfl, Core.dbgWritten_halts hint] at hexec
  generalize hd : ({ c with haltReq := true, halted := true } : Core) = d at hexec ⊢
  have hstep : stepHalted n (setCore n d s) = putAccord n (d.steppedAddi b) (accClusterOf s (n.val / 16)) (setCore n d (setCore n d s)) := by
    subst hd
    exact stepHalted_addi (c := { c with haltReq := true, halted := true }) (coreOf_setCore_self ..) rfl rfl hwaiting huser hie hint hpoison hdecode
  rw [hstep] at hexec
  have hnext : exec (.accDbgStep n v) s = .next (putAccord n (d.steppedAddi b) (accClusterOf s (n.val / 16)) (setCore n d (setCore n d s))) :=
    hexec.trans (done_awake _ hawake)
  have honly := (accordOnly_setCore n d s).trans (accordOnly_setCore n d (setCore n d s))
  exact ⟨_, hnext, rfl, honly.trans (accordOnly_putAccord ..), clustersKept_putAccord n _ (setCore n d (setCore n d s)), coreOf_putAccord_self ..⟩

end

/-! ### DMA transfers (R322, R327) -/

section
variable {n : CoreNo} {r : DmaReq} (hfits : r.scratch.toNat + r.len ≤ 0x200000)
include hfits

theorem exec_dmaTransfer_toScratch (s : State) (hdir : r.toScratch = true) :
    ∃ d m, exec (.dmaTransfer n r) s = done s (putAccord n d m s) ∧
      m.scratch = mwriteN (accClusterOf s (n.val / 16)).scratch r.scratch.toNat (mreadN s.hbm.mem r.hbm.toNat r.len) := by
  have hexec : exec (.dmaTransfer n r) s = execDmaTransfer n r s := rfl
  rw [hexec]
  unfold execDmaTransfer
  simp only [hfits, hdir, decide_true, Bool.not_true, Bool.false_eq_true, if_false, if_true]
  exact ⟨_, _, rfl, rfl⟩

theorem exec_dmaTransfer_toHbm (s : State) (hdir : r.toScratch = false) :
    ∃ d m, let copied := mwriteN s.hbm.mem r.hbm.toNat (mreadN (accClusterOf s (n.val / 16)).scratch r.scratch.toNat r.len)
      exec (.dmaTransfer n r) s = done s (putAccord n d m { s with hbm := { s.hbm with mem := copied } }) ∧
      m.scratch = (accClusterOf s (n.val / 16)).scratch := by
  have hexec : exec (.dmaTransfer n r) s = execDmaTransfer n r s := rfl
  rw [hexec]
  unfold execDmaTransfer
  simp only [hfits, hdir, decide_true, Bool.not_true, Bool.false_eq_true, if_false]
  exact ⟨_, _, rfl, rfl⟩

end

/-- Bytes copied from one memory into another are read back there in order. -/
theorem mread_copy_in {src dst : Memory} {a b len i : Nat} (hwf : Memory.wf dst = true) (hi : i < len) :
    mread (mwriteN dst a (mreadN src b len)) (a + i) = mread src (b + i) :=
  (mread_mwriteN_in hwf (by rwa [length_mreadN])).trans (getD_mreadN src b len i hi)

theorem mread_copy_out {src dst : Memory} {a b len x : Nat} (hwf : Memory.wf dst = true) (hx : x < a ∨ a + len ≤ x) :
    mread (mwriteN dst a (mreadN src b len)) x = mread dst x :=
  mread_mwriteN_out hwf (by rwa [length_mreadN])

/-! ### Forced grants (R326) -/

/-- The cluster after a forced grant of a bank: its starvation counter restarts, and its episode has begun. -/
def AccCluster.granted (m : AccCluster) (bank : Fin 16) : AccCluster :=
  { m with starve := tdel m.starve bank.val, episode := m.episode ||| (1#16 <<< bank.val), dmaWait := m.dmaWait &&& ~~~(1#16 <<< bank.val) }

theorem AccCluster.granted_episode (m : AccCluster) (bank : Fin 16) : (m.granted bank).episode.getLsbD bank = true := by
  simp [AccCluster.granted]

/-- The state after a forced grant of a bank, counted. -/
def granted (k : ClusterNo) (bank : Fin 16) (s : State) : State :=
  count1 (accCtr k 0x10C) (setAccCluster k ((accClusterOf s k).granted bank) s)

theorem granted_obj (k : ClusterNo) (bank : Fin 16) (s : State) : (granted k bank s).obj = s.obj := by
  rw [granted]
  simp [setAccCluster]

theorem accClusterOf_granted (k : ClusterNo) (bank : Fin 16) (s : State) : accClusterOf (granted k bank s) k = (accClusterOf s k).granted bank := by
  have haccord : (granted k bank s).accord = (setAccCluster k ((accClusterOf s k).granted bank) s).accord := by
    rw [granted]
    simp
  rw [accClusterOf, haccord]
  exact accClusterOf_setAccCluster_self ..

theorem counterOf_granted (k : ClusterNo) (bank : Fin 16) (s : State) :
    counterOf (granted k bank s) (accCtr k 0x10C) = counterOf s (accCtr k 0x10C) + 1 := count1_value ..

/-- The first forced grant of an episode is counted and reported as one more starvation. -/
theorem exec_dmaForcedGrant {bank : Fin 16} (hbank : 2 ≤ bank.val) (k : ClusterNo) (s : State) :
    exec (.dmaForcedGrant k bank) s = done s (if !(accClusterOf s k).episode.getLsbD bank then
      postDevice evDmaStarved k bank (count1 (accCtr k 0x108) (granted k bank s)) else granted k bank s) := by
  have hexec : exec (.dmaForcedGrant k bank) s = execDmaForcedGrant k bank s := rfl
  rw [hexec]
  unfold execDmaForcedGrant
  rw [if_neg (by omega)]
  rfl

theorem yields_dmaForcedGrant {bank : Fin 16} (hbank : 2 ≤ bank.val) (k : ClusterNo) {s : State} (hawake : Awake s) :
    Yields (.dmaForcedGrant k bank) s fun t => t.obj = s.obj ∧ accClusterOf t k = (accClusterOf s k).granted bank ∧
      counterOf t (accCtr k 0x10C) = counterOf s (accCtr k 0x10C) + 1 := by
  refine row_yields hawake (exec_dmaForcedGrant hbank k s) ?_
  split
  case isTrue =>
    refine ⟨?obj, ?cluster, ?counter⟩
    case obj => simp [granted_obj]
    case cluster =>
      refine Eq.trans ?_ (accClusterOf_granted k bank s)
      simp [accClusterOf]
    case counter =>
      refine Eq.trans ?_ (counterOf_granted k bank s)
      refine (counterOf_postDevice ..).trans (count_other _ _ _ _ ?_)
      simp [accCtr]
  case isFalse => exact ⟨granted_obj k bank s, accClusterOf_granted k bank s, counterOf_granted k bank s⟩

/-- Settles O8: a refused write of ACC_DBG_CTL by `dbgDenied`, an allowed one by the core that `dbgWritten` gives; a transfer as a copy between two memories. -/
theorem accordDebugAndDma : Obligations.AccordDebugAndDma := by
  refine ⟨?debug, ?dma⟩
  case debug =>
    intro n v s hawake
    have hdenied {i : Instr} {t : State} (hexec : exec i s = done s (if dbgRefused s v then dbgDenied s else t)) (h : dbgRefused s v = true) :
        exec i s = done s (dbgDenied s) := by
      rwa [h, if_pos rfl] at hexec
    refine ⟨fun hlock => ?locked, fun hlock hprot hbit => ?protecting, fun hlock hbits => ?allowed⟩
    case locked =>
      have hrefused := dbgRefused_of_locked hlock v
      exact ⟨exec_of_locked hawake (hdenied rfl hrefused) hlock, exec_of_locked hawake (hdenied rfl hrefused) hlock⟩
    case protecting =>
      have hrefused := dbgRefused_of_protecting hprot hbit
      exact ⟨yields_of_dbgDenied hawake (hdenied rfl hrefused) hlock, yields_of_dbgDenied hawake (hdenied rfl hrefused) hlock⟩
    case allowed =>
      have hrefused := dbgRefused_of_allowed hlock hbits
      generalize hc : coreOf s n = c
      obtain ⟨hreq, hacc, hruns⟩ := c.dbgWritten_keeps (v.getLsbD 0)
      refine ⟨?halt, ?step⟩
      case halt =>
        obtain ⟨t, hnext, hpending, honly, hclusters, hcore⟩ := yields_accDbgHalt hawake hrefused hc
        refine ⟨t, hnext, hpending, honly, hclusters, ?_⟩
        rw [hcore]
        exact ⟨hreq, hacc, hruns, fun h0 hint => by rw [h0, Core.dbgWritten_halts hint], fun h0 hie => by rw [h0, Core.dbgWritten_runs hie]⟩
      case step =>
        have hnext := (exec_accDbgStep hrefused hc).trans (done_awake _ hawake)
        refine ⟨_, hnext, rfl, ?_⟩
        generalize ({ (if v.getLsbD 1 = true then _ else _ : State) with pending := s.pending } : State) = t at hnext ⊢
        refine ⟨fun h1 => ?written, fun h0 h1 hhalted hwaiting huser hie hint hpoison b hdecode => ?stepped⟩
        case written =>
          obtain ⟨u, hnext', -, honly, hclusters, hcore⟩ := yields_accDbgStep_without_step hawake hrefused hc h1
          obtain rfl := Host.Outcome.next.inj (hnext.symm.trans hnext')
          exact ⟨honly, hclusters, by rw [hcore, hreq]⟩
        case stepped =>
          obtain ⟨u, hnext', -, honly, hclusters, hcore⟩ := yields_accDbgStep_addi hawake hrefused hc h0 h1 hwaiting huser hie hint hpoison hdecode
          obtain rfl := Host.Outcome.next.inj (hnext.symm.trans hnext')
          rw [hcore]
          exact ⟨honly, hclusters, rfl, rfl, Core.g_steppedAddi _ b⟩
  case dma =>
    intro n r k bank s hawake
    refine ⟨fun hfits hscratch hhbm => ?transfer, fun hbank => ?forced, fun hbank => ?ported⟩
    case transfer =>
      cases hdir : r.toScratch with
      | true =>
        obtain ⟨d, m, hexec, hm⟩ := exec_dmaTransfer_toScratch (n := n) hfits s hdir
        refine ⟨_, exec_putAccord hawake hexec, rfl, rfl, fun _ => ⟨rfl, ?_⟩, nofun⟩
        rw [accClusterOf_putAccord_self, hm]
        exact ⟨fun i hi => mread_copy_in hscratch hi, fun x hx => mread_copy_out hscratch hx⟩
      | false =>
        obtain ⟨d, m, hexec, hm⟩ := exec_dmaTransfer_toHbm (n := n) hfits s hdir
        have hnext := hexec.trans (done_awake (putAccord n d m _) hawake)
        refine ⟨_, hnext, rfl, rfl, nofun, fun _ => ⟨?_, fun i hi => mread_copy_in hhbm hi, fun x hx => mread_copy_out hhbm hx⟩⟩
        exact (congrArg AccCluster.scratch (accClusterOf_putAccord_self ..)).trans hm
    case forced =>
      obtain ⟨t, hnext, hpending, hobj, hcluster, hcounter⟩ := yields_dmaForcedGrant hbank k hawake
      refine ⟨t, hnext, hpending, hobj, ?_⟩
      rw [hcluster]
      exact ⟨tget_tdel_self _ _, (accClusterOf s k).granted_episode bank, rfl, hcounter⟩
    case ported =>
      have hexec : exec (.dmaForcedGrant k bank) s = execDmaForcedGrant k bank s := rfl
      rw [hexec]
      unfold execDmaForcedGrant
      rw [if_pos hbank]
      exact done_awake _ hawake

end Sys2Proof.Machine
end
